-- ==== Sys2Proof/Word.lean ====
section
/-! DEFINITION. The word types of the machine and their plainest arithmetic (00 R3, R11). -/
namespace Sys2Proof

/-- One byte. -/
abbrev Byte := BitVec 8
/-- A vector register word (03 R78). -/
abbrev Word32 := BitVec 32
/-- A uniform register, pointer, program counter or system register (03 R78). -/
abbrev Word64 := BitVec 64
/-- A set of threads of one group: bit `L` is thread `L` (02 R29). -/
abbrev Mask := BitVec 64

/-- `x[hi:lo]` of R3 as a field of `len` bits that starts at bit `lo`. -/
abbrev field (lo len : Nat) (x : BitVec n) : BitVec len := x.extractLsb' lo len

/-- `sext(x, n)` of R11. -/
abbrev sext (n : Nat) (x : BitVec w) : BitVec n := x.signExtend n

/-- `zext(x, n)` of R11. -/
abbrev zext (n : Nat) (x : BitVec w) : BitVec n := x.setWidth n

/-- A 64-bit value from the two words of a pair: the low word is the lower register (03 R80). -/
abbrev pair (lo hi : Word32) : Word64 := hi ++ lo

/-- The low word of a pair value. -/
abbrev lowWord (x : Word64) : Word32 := x.extractLsb' 0 32

/-- The high word of a pair value. -/
abbrev highWord (x : Word64) : Word32 := x.extractLsb' 32 32

/-- One bit as a truth value. -/
abbrev bit (x : BitVec n) (i : Nat) : Bool := x.getLsbD i

/-- `x` with bit `i` set or cleared. -/
def setBit (x : BitVec n) (i : Nat) (b : Bool) : BitVec n :=
  if b then x ||| (BitVec.ofNat n (2 ^ i)) else x &&& ~~~(BitVec.ofNat n (2 ^ i))

/-- The mask with the single thread `i` (empty when `i` is 64 or more). -/
abbrev oneBit (i : Nat) : Mask := BitVec.ofNat 64 (2 ^ i)

/-- The mask of threads `0` to `n - 1`. -/
abbrev lowMask (n : Nat) : Mask := BitVec.ofNat 64 (2 ^ n - 1)

/-- The threads of a mask in ascending order (00 R11: `for each lane L in active`). -/
def maskList (m : Mask) : List Nat := (List.range 64).filter (fun i => m.getLsbD i)

/-- The lowest thread of a mask; 0 when it is empty. -/
def lowestOf (m : Mask) : Nat := (maskList m).headD 0

/-- The mask of a list of threads. -/
def maskOf (l : List Nat) : Mask := l.foldl (fun m i => m ||| oneBit i) 0#64

/-- Truth value to a word of width `n`. -/
abbrev ofBool (n : Nat) (b : Bool) : BitVec n := if b then 1#n else 0#n

/-- Round `x` up to a multiple of `n`. -/
def alignUp (x n : Nat) : Nat := (x + n - 1) / n * n

end Sys2Proof
end

