-- ==== Sys2Proof/Config.lean ====
section
/-! DEFINITION. What the module fixes for its life (01 R13, R14), and the free values: what the spec leaves open is an opaque
constant applied to a counter of the state or to the operands, so that nothing in Lean can evaluate it. -/
namespace Sys2Proof.Config

/-- Dies of the module (01 R13). -/
def dies : Nat := 4
/-- Clusters of a die (01 R13). -/
def clustersPerDie : Nat := 12
/-- Cores of a cluster (01 R13). -/
def coresPerCluster : Nat := 4
/-- Cores of the module (01 R13). -/
def cores : Nat := 192
/-- Partitions of a core (01 R13). -/
def partitions : Nat := 16
/-- Memory-side slices of a die (01 R13). -/
def slicesPerDie : Nat := 16
/-- Memory-side slices of the module (01 R13). -/
def slices : Nat := 64
/-- Bytes of DRAM behind one die: 96 GiB (01 R14, 03 R94). -/
def dramBytesPerDie : Nat := 96 * 2 ^ 30
/-- Rows of a partition (01 R6, R14). -/
def rows : Nat := 8
/-- Register words of a lane (02 R50). -/
def laneWords : Nat := 512
/-- Uniform registers of a partition (02 R50). -/
def partitionUniforms : Nat := 1536
/-- Scratchpad units of a core (01 R14, 02 R50). -/
def scratchUnits : Nat := 128
/-- Slabs of a core (01 R14, 02 R50). -/
def slabs : Nat := 384
/-- The group ageing limit in clocks (02 R34). -/
def groupAge : Nat := 1024
/-- The bundle ageing limit in issues (02 R35). -/
def bundleAge : Nat := 4096
/-- The gang timeout in counted clocks (11 R307). -/
def gangTimeout : Nat := 1048576
/-- The longest run-on of a faulting load, in younger instructions (02 R38, 18 R430). -/
def runOnLimit : Nat := 23

/-- A free 64-bit value: what the spec leaves open where the machine goes on. The argument is a counter of the state. -/
opaque freeWord : Nat → BitVec 64
/-- A free 32-bit value. -/
opaque freeWord32 : Nat → BitVec 32

/-- Hours over six of a scrub period, by the corrections of its last plan period (16 R409): the spec gives no value. -/
opaque scrubSpan : Nat → Nat

/-- This device's number in its fabric domain (13 R381): the spec gives no value. -/
opaque deviceNumber : BitVec 8

/-- The serial number of the device (13 R351, 16 R413): the spec gives no value. -/
opaque serialNumber : BitVec 64
/-- SHAKE256 of what a boot stage runs, by image and stage: 0 the firmware, 1 the service kernel (16 R412). -/
opaque imageDigest : Nat → Nat → BitVec 512
/-- The public key of an SLH-DSA-SHAKE-256s key pair, by its seed (16 R413). -/
opaque publicKey : BitVec 512 → BitVec 512
/-- Word `i` of the signature that the key of a seed gives a message (16 R413, R415). -/
opaque signatureWord : BitVec 512 → Nat → Nat → BitVec 64
/-- The bytes of the vendor-signed identity certificate, which carries the serial number, by the public identity key (16 R413). -/
opaque identityCertificate : BitVec 64 → BitVec 512 → List Byte
/-- The bytes of the alias certificate that the identity key of a seed signs, by the public alias key (16 R413). -/
opaque aliasCertificate : BitVec 512 → BitVec 512 → List Byte

end Sys2Proof.Config
end

