-- ==== Sys2Proof/Machine/Tab.lean ====
section
/-! DEFINITION. Sparse tables as plain data: lists of key and value pairs, keys strictly rising. An `Assoc` never lists the
value an unlisted key reads as (zero), so equal contents are equal data. -/
namespace Sys2Proof.Machine

/-- A sparse table. -/
abbrev Tab (α : Type) := List (Nat × α)

namespace Tab

/-- The entry of a key, if the table lists it. -/
def get? (k : Nat) : Tab α → Option α
  | [] => none
  | (a, x) :: t => if a = k then some x else get? k t

/-- The table without the key. -/
def del (k : Nat) : Tab α → Tab α
  | [] => []
  | (a, x) :: t => if a = k then del k t else (a, x) :: del k t

/-- Put an entry before the first larger key (of a table that does not list the key). -/
def insert (k : Nat) (x : α) : Tab α → Tab α
  | [] => [(k, x)]
  | (a, y) :: t => if k < a then (k, x) :: (a, y) :: t else (a, y) :: insert k x t

/-- Set the entry of a key. -/
def put (k : Nat) (x : α) (t : Tab α) : Tab α := insert k x (del k t)

/-- Change the entry of a key, when the table lists it. -/
def modify (k : Nat) (f : α → α) (t : Tab α) : Tab α :=
  match get? k t with
  | some x => put k (f x) t
  | none => t

/-- The keys, in rising order. -/
def keys (t : Tab α) : List Nat := t.map Prod.fst

/-- Keys strictly rising, all of them above `lo`. -/
def risingFrom : Nat → Tab α → Bool
  | _, [] => true
  | lo, (a, _) :: t => lo ≤ a && risingFrom (a + 1) t

/-- The canonical form: keys strictly rising. -/
def wf (t : Tab α) : Bool := risingFrom 0 t

/-- A key no entry has, above every listed key. -/
def fresh : Tab α → Nat
  | [] => 0
  | (a, _) :: t => max (a + 1) (fresh t)

end Tab

/-- Sparse words: an unlisted key reads as zero. -/
abbrev Assoc (n : Nat) := Tab (BitVec n)

namespace Assoc

/-- The word at a key. -/
def get (k : Nat) (t : Assoc n) : BitVec n := (Tab.get? k t).getD 0#n

/-- Set the word at a key; zero removes the entry. -/
def set (k : Nat) (x : BitVec n) (t : Assoc n) : Assoc n := if x = 0#n then Tab.del k t else Tab.put k x t

/-- The canonical form: keys strictly rising and no zero listed. -/
def wf (t : Assoc n) : Bool := Tab.wf t && t.all (fun e => e.2 != 0#n)

end Assoc

end Sys2Proof.Machine
end

