-- ==== Sys2Proof/Syntax.lean ====
section
/-! DEFINITION. The instructions and events of the opcode table, one constructor per row of spec/opcode_table.json.
Fields carry the widths of the encoding (07 R208-R211); `sw` is the switch marker S (07 R206). -/
namespace Sys2Proof

/-- One constructor per row of the opcode table. Encoded instructions carry their operand fields as the word holds them
(`d`, `a`, `b`, `c`, `v` registers, `p`, `q` the selectors of the field to their right, `u` a uniform register, `i` an immediate,
`o` an offset or an operation, `w` a width code). -/
inductive Instr where
  -- Events and operations of the device: rows of the opcode table that have no encoding. Their arguments name the agent that acts and what arrives from outside.
  | trapqRead (g : Nat) (d : BitVec 8)
  | slottotalRead (g : Nat) (d : BitVec 8)
  | trapqlenWrite (g : Nat) (x : BitVec 64)
  | ustatUsplitClear (g : Nat)
  | uimaskWrite (g : Nat) (x : BitVec 64)
  | einjWrite (g : Nat) (x : BitVec 64)
  | bundleUnpark (g : Nat) (m : BitVec 64)
  | vectorWriteback (g : Nat) (id : Nat) (bad : BitVec 64)
  | loadDataReturn (g : Nat) (id : Nat)
  | ownershipArrival (id : Nat)
  | groupAgeingExpiry (g : Nat)
  | bundleAgeingExpiry (g : Nat) (m : BitVec 64)
  | fetchFault
  | registerDeadlock (part : Nat)
  | counterSignal (ctx : Nat) (ctr : BitVec 12)
  | blockDistribute (die : Nat)
  | blockPlace (cluster : Nat)
  | blockResident (blk : Nat)
  | eviction (cluster : Nat)
  | mxEvictionStop (id : Nat)
  | groupSaveComplete (g : Nat)
  | blockSaveComplete (blk : Nat)
  | groupRestore (core : Nat)
  | restoreComplete (g : Nat)
  | groupEnd (g : Nat)
  | blockEnd (blk : Nat)
  | releasePerform (id : Nat)
  | closeConfirmation (core : Nat) (line : Nat)
  | sequenceNumberArrival (id : Nat)
  | stampArrival (core : Nat) (id : Nat) (stamp : BitVec 96)
  | reorderCheckerTimeout (core : Nat) (id : Nat)
  | intervalRecordArrival (line : Nat)
  | coherenceCheckerTimeout (line : Nat)
  | directoryRecall (line : Nat)
  | l2LineEviction (line : Nat)
  | pageWalkComplete (die : Nat) (ctx : Nat) (page : Nat)
  | tlbInvalidationComplete (ctx : Nat) (page : Nat)
  | zeroEngineClear (page : Nat)
  | generationAdvance (ctx : Nat)
  | scaleFill (core : Nat) (tensor : BitVec 8) (line : Nat)
  | copyRecordStart (core : Nat) (ch : Nat)
  | copySegmentCredit (core : Nat) (ch : Nat)
  | mxRendezvous (id : Nat)
  | gangTimeout (id : Nat)
  | mxCompletion (id : Nat) (bad : List Nat)
  | iterationDivergedTrap (g : Nat)
  | interruptArrival (ctx : Nat) (v : BitVec 6) (x : BitVec 64) (kind : BitVec 2) (sender : BitVec 16) (dev : BitVec 16)
  | svcRingAppend (g : Nat)
  | svcCallNull (g : Nat)
  | svcCallAllocate (g : Nat)
  | svcCallLog (g : Nat)
  | svcCallExchangeBuffer (g : Nat)
  | svcCallHost (g : Nat)
  | svcCallReserved (g : Nat)
  | eventDisposition (seq : Nat) (disp : BitVec 8)
  | hostEventEntryWrite
  | convoyCompare (id : Nat)
  | convoyTimeout (id : Nat)
  | convoyRetry (id : Nat)
  | traceSample (core : Nat)
  | tracePageRetry (core : Nat)
  | traceHoldTimeout (core : Nat)
  | patrolScrub (sector : Nat)
  | railOn (rail : Nat)
  | perstDeassert
  | functionLevelReset
  | powerSample (watts : Nat) (temp : Nat)
  | marginPlan (slacks : List (Nat × Int)) (hot : List Nat)
  | voltageStep (core : Nat)
  | skewMeasurement (offs : List (BitVec 64))
  | powerlimWrite (x : BitVec 64)
  | attestationGo (x : BitVec 64)
  | certificateChainRequest (x : BitVec 64)
  | attestationReportDone
  | firmwareRestore (x : BitVec 64)
  | firmwareRestoreDone
  | debugStop (x : BitVec 64)
  | debugResume (x : BitVec 64)
  | debugRefusedClear
  | bar0RegisterWrite (off : Nat) (x : BitVec 64)
  | mqtailWrite (q : Nat) (x : BitVec 64)
  | mqctlEnable (q : Nat) (x : BitVec 64)
  | mqHaltedClear (q : Nat)
  | heqctlEnable (x : BitVec 64)
  | heqheadWrite (x : BitVec 64)
  | mailboxNop (q : Nat)
  | mailboxWriteInline (q : Nat)
  | mailboxWriteBulk (q : Nat)
  | mailboxRead (q : Nat)
  | mailboxInterrupt (q : Nat)
  | mailboxTaskPost (q : Nat)
  | callReply (q : Nat)
  | mapPages (q : Nat)
  | revoke (q : Nat)
  | revokeDrainComplete (id : Nat)
  | dispose (q : Nat)
  | exportEntry (q : Nat)
  | createContext (q : Nat)
  | destroyContext (q : Nat)
  | destroyDrainComplete (id : Nat)
  | traceControl (q : Nat)
  | interruptConfiguration (q : Nat)
  | hostSnoop (line : Nat)
  | cxlPortFailure
  | cxlPortRecovery
  | waylineRemoteAccess (dev : BitVec 16) (ctx : BitVec 16) (entry : BitVec 8) (off : BitVec 32) (op : BitVec 6) (size : Nat) (data : List (BitVec 32))
  | waylineAck (id : Nat)
  | remoteRefusal (id : Nat)
  | waylinePortDown (port : Nat)
  | waylinePortRetrained (port : Nat)
  | waylineRequestTimeout (id : Nat)
  | routeTableChange (dev : Nat) (ports : BitVec 16)
  | reservedEncoding (w : BitVec 32) (reason : BitVec 4)
  | formatWindowWrite (n : Nat) (x : List (BitVec 64))
  | cxlWriteAcknowledgement (id : Nat)
  | perstAssert
  | railOff (rail : Nat)
  | slotClassification (part : Nat)
  -- The sixteen 16-bit forms (07 R208).
  | mov16 (d : BitVec 5) (b : BitVec 5) (sw : Bool)
  | iadd16 (d : BitVec 5) (b : BitVec 5) (sw : Bool)
  | isub16 (d : BitVec 5) (b : BitVec 5) (sw : Bool)
  | imul16 (d : BitVec 5) (b : BitVec 5) (sw : Bool)
  | and16 (d : BitVec 5) (b : BitVec 5) (sw : Bool)
  | or16 (d : BitVec 5) (b : BitVec 5) (sw : Bool)
  | xor16 (d : BitVec 5) (b : BitVec 5) (sw : Bool)
  | shl16 (d : BitVec 5) (b : BitVec 5) (sw : Bool)
  | shr16 (d : BitVec 5) (b : BitVec 5) (sw : Bool)
  | sar16 (d : BitVec 5) (b : BitVec 5) (sw : Bool)
  | imin16 (d : BitVec 5) (b : BitVec 5) (sw : Bool)
  | imax16 (d : BitVec 5) (b : BitVec 5) (sw : Bool)
  | fadd16 (d : BitVec 5) (b : BitVec 5) (sw : Bool)
  | fmul16 (d : BitVec 5) (b : BitVec 5) (sw : Bool)
  | fmin16 (d : BitVec 5) (b : BitVec 5) (sw : Bool)
  | fmax16 (d : BitVec 5) (b : BitVec 5) (sw : Bool)
  -- Vector ALU, vector with vector: format VV (07 R210, 09 R257, R261-R263).
  | iadd (d : BitVec 6) (a : BitVec 6) (p : BitVec 2) (b : BitVec 6) (q : BitVec 2) (sw : Bool)
  | isub (d : BitVec 6) (a : BitVec 6) (p : BitVec 2) (b : BitVec 6) (q : BitVec 2) (sw : Bool)
  | imul (d : BitVec 6) (a : BitVec 6) (p : BitVec 2) (b : BitVec 6) (q : BitVec 2) (sw : Bool)
  | imulh (d : BitVec 6) (a : BitVec 6) (p : BitVec 2) (b : BitVec 6) (q : BitVec 2) (sw : Bool)
  | imulhn (d : BitVec 6) (a : BitVec 6) (p : BitVec 2) (b : BitVec 6) (q : BitVec 2) (sw : Bool)
  | iaddsat (d : BitVec 6) (a : BitVec 6) (p : BitVec 2) (b : BitVec 6) (q : BitVec 2) (sw : Bool)
  | isubsat (d : BitVec 6) (a : BitVec 6) (p : BitVec 2) (b : BitVec 6) (q : BitVec 2) (sw : Bool)
  | iaddmin (d : BitVec 6) (a : BitVec 6) (p : BitVec 2) (b : BitVec 6) (q : BitVec 2) (sw : Bool)
  | vAnd (d : BitVec 6) (a : BitVec 6) (p : BitVec 2) (b : BitVec 6) (q : BitVec 2) (sw : Bool)
  | vOr (d : BitVec 6) (a : BitVec 6) (p : BitVec 2) (b : BitVec 6) (q : BitVec 2) (sw : Bool)
  | vXor (d : BitVec 6) (a : BitVec 6) (p : BitVec 2) (b : BitVec 6) (q : BitVec 2) (sw : Bool)
  | andn (d : BitVec 6) (a : BitVec 6) (p : BitVec 2) (b : BitVec 6) (q : BitVec 2) (sw : Bool)
  | shl (d : BitVec 6) (a : BitVec 6) (p : BitVec 2) (b : BitVec 6) (q : BitVec 2) (sw : Bool)
  | shr (d : BitVec 6) (a : BitVec 6) (p : BitVec 2) (b : BitVec 6) (q : BitVec 2) (sw : Bool)
  | sar (d : BitVec 6) (a : BitVec 6) (p : BitVec 2) (b : BitVec 6) (q : BitVec 2) (sw : Bool)
  | rotl (d : BitVec 6) (a : BitVec 6) (p : BitVec 2) (b : BitVec 6) (q : BitVec 2) (sw : Bool)
  | imin (d : BitVec 6) (a : BitVec 6) (p : BitVec 2) (b : BitVec 6) (q : BitVec 2) (sw : Bool)
  | imax (d : BitVec 6) (a : BitVec 6) (p : BitVec 2) (b : BitVec 6) (q : BitVec 2) (sw : Bool)
  | nmin (d : BitVec 6) (a : BitVec 6) (p : BitVec 2) (b : BitVec 6) (q : BitVec 2) (sw : Bool)
  | nmax (d : BitVec 6) (a : BitVec 6) (p : BitVec 2) (b : BitVec 6) (q : BitVec 2) (sw : Bool)
  | fadd (d : BitVec 6) (a : BitVec 6) (p : BitVec 2) (b : BitVec 6) (q : BitVec 2) (sw : Bool)
  | fsub (d : BitVec 6) (a : BitVec 6) (p : BitVec 2) (b : BitVec 6) (q : BitVec 2) (sw : Bool)
  | fmul (d : BitVec 6) (a : BitVec 6) (p : BitVec 2) (b : BitVec 6) (q : BitVec 2) (sw : Bool)
  | fmad (d : BitVec 6) (a : BitVec 6) (p : BitVec 2) (b : BitVec 6) (q : BitVec 2) (sw : Bool)
  | fmin (d : BitVec 6) (a : BitVec 6) (p : BitVec 2) (b : BitVec 6) (q : BitVec 2) (sw : Bool)
  | fmax (d : BitVec 6) (a : BitVec 6) (p : BitVec 2) (b : BitVec 6) (q : BitVec 2) (sw : Bool)
  | faddmin (d : BitVec 6) (a : BitVec 6) (p : BitVec 2) (b : BitVec 6) (q : BitVec 2) (sw : Bool)
  | fscale (d : BitVec 6) (a : BitVec 6) (p : BitVec 2) (b : BitVec 6) (q : BitVec 2) (sw : Bool)
  | dadd (d : BitVec 6) (a : BitVec 6) (p : BitVec 2) (b : BitVec 6) (q : BitVec 2) (sw : Bool)
  | dmul (d : BitVec 6) (a : BitVec 6) (p : BitVec 2) (b : BitVec 6) (q : BitVec 2) (sw : Bool)
  | dmad (d : BitVec 6) (a : BitVec 6) (p : BitVec 2) (b : BitVec 6) (q : BitVec 2) (sw : Bool)
  | dmin (d : BitVec 6) (a : BitVec 6) (p : BitVec 2) (b : BitVec 6) (q : BitVec 2) (sw : Bool)
  | bfadd2 (d : BitVec 6) (a : BitVec 6) (p : BitVec 2) (b : BitVec 6) (q : BitVec 2) (sw : Bool)
  | bfmul2 (d : BitVec 6) (a : BitVec 6) (p : BitVec 2) (b : BitVec 6) (q : BitVec 2) (sw : Bool)
  | bfmad2 (d : BitVec 6) (a : BitVec 6) (p : BitVec 2) (b : BitVec 6) (q : BitVec 2) (sw : Bool)
  | bfmax2 (d : BitVec 6) (a : BitVec 6) (p : BitVec 2) (b : BitVec 6) (q : BitVec 2) (sw : Bool)
  | hadd2 (d : BitVec 6) (a : BitVec 6) (p : BitVec 2) (b : BitVec 6) (q : BitVec 2) (sw : Bool)
  | hmul2 (d : BitVec 6) (a : BitVec 6) (p : BitVec 2) (b : BitVec 6) (q : BitVec 2) (sw : Bool)
  | hmad2 (d : BitVec 6) (a : BitVec 6) (p : BitVec 2) (b : BitVec 6) (q : BitVec 2) (sw : Bool)
  | hmax2 (d : BitVec 6) (a : BitVec 6) (p : BitVec 2) (b : BitVec 6) (q : BitVec 2) (sw : Bool)
  -- Vector with uniform: format VS (09 R257, R261).
  | iaddVs (d : BitVec 6) (a : BitVec 6) (p : BitVec 2) (u : BitVec 8) (sw : Bool)
  | isubVs (d : BitVec 6) (a : BitVec 6) (p : BitVec 2) (u : BitVec 8) (sw : Bool)
  | imulVs (d : BitVec 6) (a : BitVec 6) (p : BitVec 2) (u : BitVec 8) (sw : Bool)
  | iaddminVs (d : BitVec 6) (a : BitVec 6) (p : BitVec 2) (u : BitVec 8) (sw : Bool)
  | andVs (d : BitVec 6) (a : BitVec 6) (p : BitVec 2) (u : BitVec 8) (sw : Bool)
  | orVs (d : BitVec 6) (a : BitVec 6) (p : BitVec 2) (u : BitVec 8) (sw : Bool)
  | xorVs (d : BitVec 6) (a : BitVec 6) (p : BitVec 2) (u : BitVec 8) (sw : Bool)
  | shlVs (d : BitVec 6) (a : BitVec 6) (p : BitVec 2) (u : BitVec 8) (sw : Bool)
  | shrVs (d : BitVec 6) (a : BitVec 6) (p : BitVec 2) (u : BitVec 8) (sw : Bool)
  | sarVs (d : BitVec 6) (a : BitVec 6) (p : BitVec 2) (u : BitVec 8) (sw : Bool)
  | iminVs (d : BitVec 6) (a : BitVec 6) (p : BitVec 2) (u : BitVec 8) (sw : Bool)
  | imaxVs (d : BitVec 6) (a : BitVec 6) (p : BitVec 2) (u : BitVec 8) (sw : Bool)
  | faddVs (d : BitVec 6) (a : BitVec 6) (p : BitVec 2) (u : BitVec 8) (sw : Bool)
  | fmulVs (d : BitVec 6) (a : BitVec 6) (p : BitVec 2) (u : BitVec 8) (sw : Bool)
  | fmadVs (d : BitVec 6) (a : BitVec 6) (p : BitVec 2) (u : BitVec 8) (sw : Bool)
  | faddminVs (d : BitVec 6) (a : BitVec 6) (p : BitVec 2) (u : BitVec 8) (sw : Bool)
  -- Vector with immediate: format VI (09 R258).
  | iaddi (d : BitVec 6) (a : BitVec 6) (p : BitVec 2) (i : BitVec 10) (sw : Bool)
  | andi (d : BitVec 6) (a : BitVec 6) (p : BitVec 2) (i : BitVec 10) (sw : Bool)
  | ori (d : BitVec 6) (a : BitVec 6) (p : BitVec 2) (i : BitVec 10) (sw : Bool)
  | xori (d : BitVec 6) (a : BitVec 6) (p : BitVec 2) (i : BitVec 10) (sw : Bool)
  | shli (d : BitVec 6) (a : BitVec 6) (p : BitVec 2) (i : BitVec 5) (sw : Bool)
  | shri (d : BitVec 6) (a : BitVec 6) (p : BitVec 2) (i : BitVec 5) (sw : Bool)
  | sari (d : BitVec 6) (a : BitVec 6) (p : BitVec 2) (i : BitVec 5) (sw : Bool)
  -- Format VV, major 0x15 (09 R260).
  | pack2h (d : BitVec 6) (a : BitVec 6) (p : BitVec 2) (b : BitVec 6) (q : BitVec 2) (sw : Bool)
  | bperm (d : BitVec 6) (a : BitVec 6) (p : BitVec 2) (b : BitVec 6) (q : BitVec 2) (sw : Bool)
  | fcopysign (d : BitVec 6) (a : BitVec 6) (p : BitVec 2) (b : BitVec 6) (q : BitVec 2) (sw : Bool)
  | nabsdiff (d : BitVec 6) (a : BitVec 6) (p : BitVec 2) (b : BitVec 6) (q : BitVec 2) (sw : Bool)
  -- Four registers: format V4 (09 R260).
  | ffma (d : BitVec 6) (a : BitVec 6) (b : BitVec 6) (c : BitVec 6) (sw : Bool)
  | imad (d : BitVec 6) (a : BitVec 6) (b : BitVec 6) (c : BitVec 6) (sw : Bool)
  | sel (d : BitVec 6) (a : BitVec 6) (b : BitVec 6) (c : BitVec 3) (sw : Bool)
  | bfe (d : BitVec 6) (a : BitVec 6) (b : BitVec 6) (c : BitVec 6) (sw : Bool)
  | bfi (d : BitVec 6) (a : BitVec 6) (b : BitVec 6) (c : BitVec 6) (sw : Bool)
  -- One source: format VU (09 R259, R264, R265).
  | mov (d : BitVec 6) (a : BitVec 6) (p : BitVec 2) (sw : Bool)
  | vNot (d : BitVec 6) (a : BitVec 6) (p : BitVec 2) (sw : Bool)
  | ineg (d : BitVec 6) (a : BitVec 6) (p : BitVec 2) (sw : Bool)
  | iabs (d : BitVec 6) (a : BitVec 6) (p : BitVec 2) (sw : Bool)
  | clz (d : BitVec 6) (a : BitVec 6) (p : BitVec 2) (sw : Bool)
  | ctz (d : BitVec 6) (a : BitVec 6) (p : BitVec 2) (sw : Bool)
  | popc (d : BitVec 6) (a : BitVec 6) (p : BitVec 2) (sw : Bool)
  | brev (d : BitVec 6) (a : BitVec 6) (p : BitVec 2) (sw : Bool)
  | fabs (d : BitVec 6) (a : BitVec 6) (p : BitVec 2) (sw : Bool)
  | fneg (d : BitVec 6) (a : BitVec 6) (p : BitVec 2) (sw : Bool)
  | frcp (d : BitVec 6) (a : BitVec 6) (p : BitVec 2) (sw : Bool)
  | frsq (d : BitVec 6) (a : BitVec 6) (p : BitVec 2) (sw : Bool)
  | fsqrt (d : BitVec 6) (a : BitVec 6) (p : BitVec 2) (sw : Bool)
  | fexp2 (d : BitVec 6) (a : BitVec 6) (p : BitVec 2) (sw : Bool)
  | flog2 (d : BitVec 6) (a : BitVec 6) (p : BitVec 2) (sw : Bool)
  | fsin (d : BitVec 6) (a : BitVec 6) (p : BitVec 2) (sw : Bool)
  | fcos (d : BitVec 6) (a : BitVec 6) (p : BitVec 2) (sw : Bool)
  | fround (d : BitVec 6) (a : BitVec 6) (p : BitVec 2) (r : BitVec 2) (sw : Bool)
  | ffract (d : BitVec 6) (a : BitVec 6) (p : BitVec 2) (sw : Bool)
  | fclass (d : BitVec 6) (a : BitVec 6) (p : BitVec 2) (sw : Bool)
  | cvt (d : BitVec 6) (a : BitVec 6) (p : BitVec 2) (f : BitVec 4) (e : BitVec 4) (r : BitVec 2) (sw : Bool)
  -- Immediate to register: format VL (09 R266).
  | movi (d : BitVec 6) (i : BitVec 16) (sw : Bool)
  | movhi (d : BitVec 6) (i : BitVec 16) (sw : Bool)
  | movf (d : BitVec 6) (i : BitVec 16) (sw : Bool)
  -- Cross-lane: format VR (09 R269-R275).
  | vredAddS32 (v : BitVec 6) (u : BitVec 8) (p : BitVec 2) (sw : Bool)
  | vredAddF32 (v : BitVec 6) (u : BitVec 8) (p : BitVec 2) (sw : Bool)
  | vredMinS32 (v : BitVec 6) (u : BitVec 8) (p : BitVec 2) (sw : Bool)
  | vredMaxS32 (v : BitVec 6) (u : BitVec 8) (p : BitVec 2) (sw : Bool)
  | vredMinB32 (v : BitVec 6) (u : BitVec 8) (p : BitVec 2) (sw : Bool)
  | vredMaxB32 (v : BitVec 6) (u : BitVec 8) (p : BitVec 2) (sw : Bool)
  | vredMinF32 (v : BitVec 6) (u : BitVec 8) (p : BitVec 2) (sw : Bool)
  | vredMaxF32 (v : BitVec 6) (u : BitVec 8) (p : BitVec 2) (sw : Bool)
  | vredAnd (v : BitVec 6) (u : BitVec 8) (p : BitVec 2) (sw : Bool)
  | vredOr (v : BitVec 6) (u : BitVec 8) (p : BitVec 2) (sw : Bool)
  | vredXor (v : BitVec 6) (u : BitVec 8) (p : BitVec 2) (sw : Bool)
  | rdlane (v : BitVec 6) (u : BitVec 8) (sw : Bool)
  | bcast (v : BitVec 6) (u : BitVec 8) (sw : Bool)
  | bcastd (v : BitVec 6) (u : BitVec 8) (sw : Bool)
  | permSet (v : BitVec 6) (u : BitVec 8) (sw : Bool)
  | bxEnc8 (v : BitVec 6) (u : BitVec 8) (p : BitVec 2) (sw : Bool)
  | bxEnc4 (v : BitVec 6) (u : BitVec 8) (p : BitVec 2) (sw : Bool)
  | bxDec8 (v : BitVec 6) (p : BitVec 2) (sw : Bool)
  | bxDec4 (v : BitVec 6) (p : BitVec 2) (sw : Bool)
  -- Scans: major 0x20 (09 R270).
  | vscanAddS32 (d : BitVec 6) (a : BitVec 6) (p : BitVec 2) (e : BitVec 1) (sw : Bool)
  | vscanAddF32 (d : BitVec 6) (a : BitVec 6) (p : BitVec 2) (e : BitVec 1) (sw : Bool)
  | vscanMinS32 (d : BitVec 6) (a : BitVec 6) (p : BitVec 2) (e : BitVec 1) (sw : Bool)
  | vscanMaxS32 (d : BitVec 6) (a : BitVec 6) (p : BitVec 2) (e : BitVec 1) (sw : Bool)
  | vscanMinF32 (d : BitVec 6) (a : BitVec 6) (p : BitVec 2) (e : BitVec 1) (sw : Bool)
  | vscanMaxF32 (d : BitVec 6) (a : BitVec 6) (p : BitVec 2) (e : BitVec 1) (sw : Bool)
  -- Compares: format PC (09 R267).
  | icmp (d : BitVec 3) (c : BitVec 3) (a : BitVec 6) (p : BitVec 2) (b : BitVec 6) (q : BitVec 2) (t : BitVec 1) (sw : Bool)
  | fcmp (d : BitVec 3) (c : BitVec 3) (a : BitVec 6) (p : BitVec 2) (b : BitVec 6) (q : BitVec 2) (sw : Bool)
  -- Predicates: format PP (09 R268).
  | pand (d : BitVec 3) (p : BitVec 3) (q : BitVec 3) (sw : Bool)
  | por (d : BitVec 3) (p : BitVec 3) (q : BitVec 3) (sw : Bool)
  | pxor (d : BitVec 3) (p : BitVec 3) (q : BitVec 3) (sw : Bool)
  | pandn (d : BitVec 3) (p : BitVec 3) (q : BitVec 3) (sw : Bool)
  | pnot (d : BitVec 3) (p : BitVec 3) (sw : Bool)
  | pmov (d : BitVec 3) (p : BitVec 3) (sw : Bool)
  | voteAny (d : BitVec 3) (p : BitVec 3) (sw : Bool)
  | voteAll (d : BitVec 3) (p : BitVec 3) (sw : Bool)
  | ballot (p : BitVec 3) (u : BitVec 8) (sw : Bool)
  -- Per-thread branches: format BR (08 R228).
  | bra (o : BitVec 18) (sw : Bool)
  | brp (p : BitVec 3) (n : BitVec 1) (o : BitVec 18) (sw : Bool)
  | call (o : BitVec 18) (sw : Bool)
  -- Uniform branches: format BU (08 R239).
  | sBra (o : BitVec 14) (sw : Bool)
  | sBrz (u : BitVec 8) (o : BitVec 14) (sw : Bool)
  | sBrnz (u : BitVec 8) (o : BitVec 14) (sw : Bool)
  | sBrlt (u : BitVec 8) (o : BitVec 14) (sw : Bool)
  -- Control: format CT (08 R231).
  | nop (sw : Bool)
  | ret (sw : Bool)
  | jmp (a : BitVec 6) (sw : Bool)
  | exit (sw : Bool)
  | yield (sw : Bool)
  | gbar (sw : Bool)
  | brk (c : BitVec 8) (sw : Bool)
  | rdlnk (a : BitVec 6) (sw : Bool)
  | wrlnk (a : BitVec 6) (sw : Bool)
  -- Uniform arithmetic: format UA (08 R241).
  | sMov (d : BitVec 8) (b : BitVec 8) (sw : Bool)
  | sAdd (d : BitVec 8) (b : BitVec 8) (sw : Bool)
  | sSub (d : BitVec 8) (b : BitVec 8) (sw : Bool)
  | sMul (d : BitVec 8) (b : BitVec 8) (sw : Bool)
  | sMulh (d : BitVec 8) (b : BitVec 8) (sw : Bool)
  | sMulhn (d : BitVec 8) (b : BitVec 8) (sw : Bool)
  | sAnd (d : BitVec 8) (b : BitVec 8) (sw : Bool)
  | sOr (d : BitVec 8) (b : BitVec 8) (sw : Bool)
  | sXor (d : BitVec 8) (b : BitVec 8) (sw : Bool)
  | sShl (d : BitVec 8) (b : BitVec 8) (sw : Bool)
  | sShr (d : BitVec 8) (b : BitVec 8) (sw : Bool)
  | sSar (d : BitVec 8) (b : BitVec 8) (sw : Bool)
  | sMin (d : BitVec 8) (b : BitVec 8) (sw : Bool)
  | sMax (d : BitVec 8) (b : BitVec 8) (sw : Bool)
  | sNmin (d : BitVec 8) (b : BitVec 8) (sw : Bool)
  | sNmax (d : BitVec 8) (b : BitVec 8) (sw : Bool)
  | sSlt (d : BitVec 8) (b : BitVec 8) (sw : Bool)
  | sSltn (d : BitVec 8) (b : BitVec 8) (sw : Bool)
  | sSeq (d : BitVec 8) (b : BitVec 8) (sw : Bool)
  | sNot (d : BitVec 8) (b : BitVec 8) (sw : Bool)
  | sNeg (d : BitVec 8) (b : BitVec 8) (sw : Bool)
  | sClz (d : BitVec 8) (b : BitVec 8) (sw : Bool)
  | sPopc (d : BitVec 8) (b : BitVec 8) (sw : Bool)
  | sDivn (d : BitVec 8) (b : BitVec 8) (sw : Bool)
  | sRemn (d : BitVec 8) (b : BitVec 8) (sw : Bool)
  | sFadd (d : BitVec 8) (b : BitVec 8) (sw : Bool)
  | sFmul (d : BitVec 8) (b : BitVec 8) (sw : Bool)
  -- Uniform immediates: format UI (08 R242).
  | sAddi (d : BitVec 8) (i : BitVec 12) (sw : Bool)
  | sAndi (d : BitVec 8) (i : BitVec 12) (sw : Bool)
  | sOri (d : BitVec 8) (i : BitVec 12) (sw : Bool)
  | sXori (d : BitVec 8) (i : BitVec 12) (sw : Bool)
  | sShli (d : BitVec 8) (i : BitVec 6) (sw : Bool)
  | sShri (d : BitVec 8) (i : BitVec 6) (sw : Bool)
  | sSari (d : BitVec 8) (i : BitVec 6) (sw : Bool)
  | sSlti (d : BitVec 8) (i : BitVec 12) (sw : Bool)
  | sMuli (d : BitVec 8) (i : BitVec 12) (sw : Bool)
  -- Uniform loads of constants: format UL (08 R243).
  | sLi (d : BitVec 8) (i : BitVec 16) (sw : Bool)
  | sLih (d : BitVec 8) (i : BitVec 16) (sw : Bool)
  -- Engine instructions: format EN, major 0x2C (12 R335-R340, 11 R303, R324, 08 R246, 10 R292, R301).
  | cpyKick (d : BitVec 8) (a : BitVec 8) (sw : Bool)
  | cpyStage (sw : Bool)
  | cpyWp (d : BitVec 8) (c : BitVec 3) (sw : Bool)
  | cpyCancel (d : BitVec 8) (sw : Bool)
  | taskPost (a : BitVec 8) (sw : Bool)
  | taskSig (a : BitVec 8) (sw : Bool)
  | gangSet (a : BitVec 8) (sw : Bool)
  | gangGet (d : BitVec 8) (sw : Bool)
  | xregAcq (x : BitVec 3) (sw : Bool)
  | xregRel (sw : Bool)
  | xregTry (d : BitVec 8) (x : BitVec 3) (sw : Bool)
  | genPass (sw : Bool)
  | genCur (d : BitVec 8) (sw : Bool)
  | kset (k : BitVec 4) (a : BitVec 8) (sw : Bool)
  | kget (d : BitVec 8) (k : BitVec 4) (sw : Bool)
  | scopeSet (i : BitVec 5) (q : BitVec 2) (sw : Bool)
  -- User-level interrupts: EN, major 0x2D (12 R343).
  | uirqSend (d : BitVec 8) (a : BitVec 8) (sw : Bool)
  | uirqWait (sw : Bool)
  | uirqTake (d : BitVec 8) (sw : Bool)
  | uirqMask (d : BitVec 8) (a : BitVec 8) (sw : Bool)
  | uirqPend (d : BitVec 8) (sw : Bool)
  | uirqDone (a : BitVec 8) (sw : Bool)
  -- System: EN, major 0x2E (12 R344-R350).
  | svc (n : BitVec 8) (sw : Bool)
  | trap (c : BitVec 8) (sw : Bool)
  | rett (sw : Bool)
  | tmask (sw : Bool)
  | tunmask (sw : Bool)
  | rdsr (r : BitVec 11) (d : BitVec 8) (sw : Bool)
  | wrsr (r : BitVec 11) (d : BitVec 8) (sw : Bool)
  | ckpt (sw : Bool)
  | profMark (a : BitVec 8) (sw : Bool)
  -- Memory: format M (10 R276).
  | ld (d : BitVec 6) (a : BitVec 6) (w : BitVec 3) (o : BitVec 9) (sw : Bool)
  | st (b : BitVec 6) (a : BitVec 6) (w : BitVec 3) (o : BitVec 9) (sw : Bool)
  | lds (d : BitVec 6) (a : BitVec 6) (w : BitVec 3) (o : BitVec 9) (sw : Bool)
  | sts (b : BitVec 6) (a : BitVec 6) (w : BitVec 3) (o : BitVec 9) (sw : Bool)
  -- Ordered memory: format MO (10 R284).
  | ldAcq (d : BitVec 6) (a : BitVec 6) (w : BitVec 3) (q : BitVec 2) (o : BitVec 6) (sw : Bool)
  | ldCon (d : BitVec 6) (a : BitVec 6) (w : BitVec 3) (q : BitVec 2) (o : BitVec 6) (sw : Bool)
  | stRel (b : BitVec 6) (a : BitVec 6) (w : BitVec 3) (q : BitVec 2) (o : BitVec 6) (sw : Bool)
  -- Uniform memory: format SM (10 R283).
  | sLd (d : BitVec 8) (a : BitVec 8) (o : BitVec 8) (sw : Bool)
  | sSt (d : BitVec 8) (a : BitVec 8) (o : BitVec 8) (sw : Bool)
  -- Atomics: format A (10 R285).
  | atom (d : BitVec 6) (a : BitVec 6) (b : BitVec 6) (o : BitVec 4) (sw : Bool)
  | atomAcq (d : BitVec 6) (a : BitVec 6) (b : BitVec 6) (o : BitVec 4) (q : BitVec 2) (sw : Bool)
  | atomRel (d : BitVec 6) (a : BitVec 6) (b : BitVec 6) (o : BitVec 4) (q : BitVec 2) (sw : Bool)
  | atomAr (d : BitVec 6) (a : BitVec 6) (b : BitVec 6) (o : BitVec 4) (q : BitVec 2) (sw : Bool)
  | red (r : BitVec 1) (a : BitVec 6) (b : BitVec 6) (o : BitVec 4) (q : BitVec 2) (sw : Bool)
  -- Synchronisation and caches: format SY (10 R290-R300).
  | fence (e : BitVec 5) (k : BitVec 2) (sw : Bool)
  | barInit (a : BitVec 8) (b : BitVec 8) (sw : Bool)
  | barArrive (a : BitVec 8) (b : BitVec 8) (sw : Bool)
  | barExpect (a : BitVec 8) (b : BitVec 8) (sw : Bool)
  | barWait (a : BitVec 8) (b : BitVec 8) (sw : Bool)
  | barTest (a : BitVec 8) (b : BitVec 8) (p : BitVec 3) (sw : Bool)
  | barStat (a : BitVec 8) (b : BitVec 8) (sw : Bool)
  | bsync (sw : Bool)
  | cacheWb (a : BitVec 8) (b : BitVec 8) (x : BitVec 3) (sw : Bool)
  | cacheInv (a : BitVec 8) (b : BitVec 8) (x : BitVec 3) (sw : Bool)
  | cachePf (a : BitVec 8) (b : BitVec 8) (sw : Bool)
  | cachePf2 (a : BitVec 8) (b : BitVec 8) (sw : Bool)
  -- Matrix: format MX (11 R315-R325).
  | mma (d : BitVec 8) (a : BitVec 6) (b : BitVec 6) (sw : Bool)
  | mmaZ (d : BitVec 8) (a : BitVec 6) (b : BitVec 6) (sw : Bool)
  | mmaS (d : BitVec 8) (b : BitVec 6) (sw : Bool)
  | mmaF (d : BitVec 8) (b : BitVec 6) (sw : Bool)
  | mpoly (d : BitVec 8) (sw : Bool)
  | miter (d : BitVec 8) (sw : Bool)
  | accZero (d : BitVec 8) (sw : Bool)
  | accScale (d : BitVec 8) (sw : Bool)
  | accAdd (d : BitVec 8) (sw : Bool)
  | accTr (d : BitVec 8) (sw : Bool)
  | accNorm (d : BitVec 8) (sw : Bool)
  | accOut (d : BitVec 8) (sw : Bool)
  | accIn (d : BitVec 8) (sw : Bool)
  -- Accumulator access: format AV (11 R326).
  | accLd (v : BitVec 6) (s : BitVec 9) (q : BitVec 2) (f : BitVec 3) (sw : Bool)
  | accSt (v : BitVec 6) (s : BitVec 9) (q : BitVec 2) (f : BitVec 3) (sw : Bool)
deriving DecidableEq, Repr

end Sys2Proof
end

