-- ==== Sys2Proof/Machine/State.lean ====
section
/-! DEFINITION. The state of the module as plain data, the reasons a step can stop, and the state after module reset. -/
namespace Sys2Proof.Machine

/-- What a thread waits in (02 R32, R66, 19 R455). -/
inductive Wait where
  | none
  | gbar
  | svc
  | mx
  | barWait
  | uirqWait
  | bsync
  | xregAcq
  | copy       -- parked by `cpy.kick` or `cpy.cancel` until the copy engine is done (12 R335, R339)
  | gate       -- held in the instruction until a release passes the gate, a queue has room, or an engine is done
deriving DecidableEq, Repr

/-- A register named by an instruction (18 R434 gives each kind its number in TRAPADDR[11:8]). -/
inductive RegRef where
  | v (n : Nat)
  | s (n : Nat)
  | p (n : Nat)
  | k (n : Nat)
  | lnk
deriving DecidableEq, Repr

/-- An entry of the segment write set: the register, and whether every writer in the segment is of the fixed-latency class
(19 R440). -/
structure SegEntry where
  reg : RegRef
  fixed : Bool
deriving DecidableEq, Repr

/-- One thread (02 R66). Vector words are kept by register number. -/
structure Thread where
  pc : Word64 := 0
  lnk : Word64 := 0
  v : Assoc 32 := []
  taint : BitVec 64 := 0
  poison : BitVec 64 := 0
  /-- p0-p6; bit 7 is not read (p7 reads true). -/
  pred : BitVec 8 := 0
  exited : Bool := false
  wait : Wait := .none
  /-- Parked at a marker, and the threads of the bundle that parked there (02 R36). -/
  parked : Bool := false
  parkedWith : Mask := 0
  /-- Bundle wait count (02 R35). -/
  waitCount : Nat := 0
  /-- A `yield` not yet followed by an issue of another bundle (08 R235). -/
  yielded : Bool := false
  /-- The segment write set of the thread's bundle (19 R440). -/
  seg : List SegEntry := []
  /-- What a waiting thread waits on: the object and parity of a `bar.wait`, the release of `gate`, the operation of `mx`. -/
  waitOn : Nat := 0
  waitParity : Bool := false
  /-- Why a thread that was turned away does not issue, as a leaf of 15 R394. -/
  turnedLeaf : Nat := 8
deriving DecidableEq, Repr

/-- One entry of the replay queue (02 R67). -/
structure ReplayEntry where
  word : BitVec 32
  short : Bool
  reread : Bool
  pc : Word64
  mask : Mask
  done : Mask
  /-- Captured source words: key 64 * j + L for source j of thread L. -/
  src : Assoc 32 := []
  /-- Taint of the captured sources, bit 64 * j + L. -/
  taint : BitVec 192 := 0
  /-- Captured uniform sources, and the scope slots as they stood at the first issue (10 R292). -/
  uni : List Word64 := []
  qslot : BitVec 32 := 0
  /-- Where the bundle went on after the instruction (the resume point of 12 R346 when it is the youngest kept entry). -/
  next : Word64
  /-- Where each thread went on after a branch that split its bundle. -/
  nexts : List (Nat × Word64) := []
  /-- Registers that stay unchanged while the entry may re-read them (02 R68). -/
  keep : List RegRef := []
deriving DecidableEq, Repr

/-- One pending register write of the scoreboard (02 R38, 15 R403): a word with its taint and poison, a predicate, a uniform or coefficient register, a thread's LNK. -/
inductive RegWrite where
  | v (L n : Nat) (x : Word32) (taint poison : Bool)
  | p (L n : Nat) (b : Bool)
  | s (n : Nat) (x : Word64)
  | k (n : Nat) (x : Word32)
  | lnk (L : Nat) (x : Word64)
deriving DecidableEq, Repr

/-- How an outstanding instruction completes. -/
inductive OutKind where
  | vector     -- VECTOR_WRITEBACK
  | load       -- LOAD_DATA_RETURN
  | matrix     -- VECTOR_WRITEBACK, of an `acc.ld`
deriving DecidableEq, Repr

/-- An issued instruction whose register writes are outstanding. -/
structure Outstanding where
  id : Nat
  kind : OutKind
  /-- The instruction, its lanes and its captured sources. -/
  entry : ReplayEntry
  /-- The threads of the bundle that issued it. -/
  bundle : Mask
  writes : List RegWrite
  /-- The vector or uniform operation is shadowed (21 R493). -/
  shadowed : Bool := false
  /-- It carries the switch marker; it was re-injected. -/
  sw : Bool := false
  replay : Bool := false
  /-- An injected shadow disagreement (17 R424): the thread and the shadow's sign and M. -/
  injected : Option (Nat × BitVec 16) := none
deriving DecidableEq, Repr

/-- What a detecting unit reports (17 R421). -/
structure Report where
  code : BitVec 16
  path : BitVec 32 := 0
  ctx : BitVec 16 := 0xFFFF
  info : BitVec 16 := 0
  detail : BitVec 256 := 0
  slice : Nat := 0
  grp : Option Nat := none
  /-- The disposition the service core writes by itself; none when it is given from outside (19 R445). -/
  auto : Option (BitVec 8) := some 6
deriving DecidableEq, Repr

/-- A lane condition whose bundle still runs on (18 R430): the trap to take, and the queue so far. -/
structure RunOn where
  bundle : Mask
  cause : BitVec 16
  pc : Word64
  addr : Word64
  lanes : Mask
  /-- The record the condition makes when the trap is taken. -/
  rep : Option Report := none
  queue : List ReplayEntry
  /-- Younger instructions issued so far. -/
  younger : Nat
  /-- Nothing more is issued: the trap is taken once every issued instruction has completed or stopped. -/
  ended : Bool := false
deriving DecidableEq, Repr

/-- The states of a group (02 R42). -/
inductive GroupState where
  | placing
  | resident
  | saving (kind : Nat)   -- 0 Saved, 1 Off-core, 2 Escalated
  | saved
  | offCore
  | restoring
  | escalated
  | ended
deriving DecidableEq, Repr

/-- Where a group is and what its role declares (02 R29, R30, R47). -/
structure Place where
  ctx : Nat := 0
  blk : Nat := 0
  /-- Global core index. -/
  core : Nat := 0
  part : Nat := 0
  /-- Rows held, rising (02 R51); an 8-wide group holds one half of one row. -/
  rows : List Nat := [0]
  upper : Bool := false
  /-- Width code: 0 = 8, 1 = 16, 2 = 32, 3 = 64. -/
  wcode : BitVec 2 := 1
  role : BitVec 2 := 0
  gidx : Nat := 0
  bpart : Nat := 0
  base : Nat := 16
  xmax : Nat := 0
  ucount : Nat := 32
  gangCapable : Bool := false
  handler : Bool := false
  paired : Bool := false
  redundant : Bool := false
  rear : Bool := false
  entry : Word64 := 0
  vec : Word64 := 0
  /-- Physical address of the group's reserved record (02 R63). -/
  record : Nat := 0
deriving DecidableEq, Repr

/-- The per-group registers (03 R78, 07 R221). -/
structure GroupRegs where
  /-- s0-s159 (s0 reads zero). -/
  s : Assoc 64 := []
  /-- k0-k15. -/
  k : Assoc 32 := []
  /-- Permutation slots 1-3. -/
  perm : Assoc 32 := []
  /-- Scope slots, packed as the group header packs them (02 R65). -/
  qslot : BitVec 32 := 0
  gang : Word64 := 0
  /-- The group indices `gang.set` named, in member order (11 R302, R303). -/
  gangIdx : List Nat := []
  iter : Word64 := 0
  einj : Word64 := 0
  /-- Extended registers held per thread. -/
  xheld : Nat := 0
  usplit : Bool := false
  /-- For a uniform register, the number the group's next instruction had when it was last written: an older result does not overwrite it (02 R39). -/
  sAt : Tab Nat := []
deriving DecidableEq, Repr

/-- The nested condition of an escalated group (19 R447). -/
structure Nested where
  code : BitVec 16
  pc : Word64
  mask : Mask
  done : Mask
  /-- The threads of its bundle. -/
  bundle : Mask := 0
deriving DecidableEq, Repr

/-- The trap frame (07 R221, 12 R344) and the fault hold (19 R444, R447). -/
structure TrapFrame where
  cause : Word64 := 0
  pc : Word64 := 0
  addr : Word64 := 0
  mask : Word64 := 0
  queue : List ReplayEntry := []
  /-- TRAPQIX bits [14:3]. -/
  qix : Word64 := 0
  /-- Captured entries that follow the trap entries (19 R452). -/
  captured : List ReplayEntry := []
  inHandler : Bool := false
  tmasked : Bool := false
  /-- Threads of the trapping bundle (19 R447). -/
  bundle : Mask := 0
  held : Bool := false
  /-- Log sequence number of the pending event. -/
  heldSeq : Nat := 0
  nested : Option Nested := none
  divergePending : Bool := false
  /-- The residual and DONE of a pending divergence trap, as TRAPADDR shows them. -/
  divergeAddr : Word64 := 0
deriving DecidableEq, Repr

/-- A word of the register bank whose code is bad (19 R450). -/
structure RegError where
  thread : Nat
  reg : RegRef
  corrected : Bool
deriving DecidableEq, Repr

/-- A finding for a group that is away from its core: it acts when the group is restored (20 R473). -/
structure LateStop where
  mask : Mask
  code : BitVec 16
  ptr : Word64
  rep : Report
deriving DecidableEq, Repr

/-- The instruction flow of a group beside its threads. -/
structure Flow where
  outstanding : List Outstanding := []
  nextId : Nat := 0
  runOns : List RunOn := []
  /-- Entries being re-injected, oldest first, and the bundle that issues them (12 R346). -/
  inject : List ReplayEntry := []
  injectMask : Mask := 0
  /-- Threads whose next access was stopped on an armed watchpoint: it is not compared again (15 R402). -/
  skipWatch : Mask := 0
  regErrors : List RegError := []
  /-- Entries captured by a save, each with its bundle, to be issued again before anything else of the bundle (19 R452). -/
  reissue : List (Mask × ReplayEntry) := []
  /-- Remote stores that a peer refused: their threads trap at their next issue (20 R484). -/
  refusals : List (Mask × Word64) := []
  /-- Loads and atomics at peers that are not answered yet, by outstanding instruction: the run-on each becomes when a peer refuses it (20 R484). -/
  watch : List (Nat × RunOn) := []
  late : List LateStop := []
deriving DecidableEq, Repr

/-- Scheduling data of a group (02 R34, R35, R57, R62, 03 R115). -/
structure Sched where
  restore : Bool := false
  runnableFor : Nat := 0
  aged : Bool := false
  lastIssue : Nat := 0
  placedAt : Nat := 0
  savedAt : Nat := 0
  passed : Word64 := 0
  /-- An Off-core or Escalated group that is to return (02 R43). -/
  returning : Bool := false
  /-- When its service call passed the release gate (13 R376). -/
  calledAt : Nat := 0
deriving DecidableEq, Repr

/-- The convoy fields of a group (02 R65, R72-R77). -/
structure ConvoySide where
  held : Nat := 0
  waystations : Nat := 0
  retries : Nat := 0
deriving DecidableEq, Repr

/-- A group (02 R27-R45). -/
structure Group where
  st : GroupState := .resident
  place : Place := {}
  regs : GroupRegs := {}
  trap : TrapFrame := {}
  flow : Flow := {}
  sched : Sched := {}
  convoy : ConvoySide := {}
  /-- By sector, the epoch of the group's latest `cache.inv` of it: its fetches see the stores of earlier epochs (04 R146). -/
  code : Tab Nat := []
  threads : List Thread := []
deriving DecidableEq, Repr

/-- One group's share of the issuing bundle (two when packed, 02 R33): its threads, and the lanes the instruction executes on
(fewer than the threads only when a replay-queue entry is re-injected, 12 R346). -/
structure Sel where
  g : Nat
  bundle : Mask
  mask : Mask
deriving DecidableEq, Repr

/-- The instruction being issued: its bundle, its address and what was fetched there. -/
structure Issue where
  sels : List Sel
  pc : Word64
  word : BitVec 32
  short : Bool
  replay : Option ReplayEntry := none
deriving DecidableEq, Repr

/-- An event record of an error log (17 R421) and the group or copy channel it holds. -/
structure EventRecord where
  seq : Nat
  owner : BitVec 2
  code : BitVec 16
  cls : BitVec 8
  disp : BitVec 8
  path : BitVec 32
  ctx : BitVec 16
  info : BitVec 16
  occ : BitVec 32 := 1
  clk : Word64
  /-- +24 in bits [63:0], +32 in [127:64], +40, +48. -/
  detail : BitVec 256
  /-- The fault-held or escalated group. -/
  grp : Option Nat := none
  /-- The host event queue entry index of a host-owned event, once written (13 R367). -/
  heqIndex : Option Nat := none
deriving DecidableEq, Repr

/-- An entry for the host event queue (13 R364): kind, context, body (offset +8 in bits [7:0]). -/
structure HeqEntry where
  kind : BitVec 8
  ctx : BitVec 16
  body : BitVec 448
  /-- Routing class of an event entry, for its MSI-X vector. -/
  cls : Nat
  /-- Log key of a host-owned event. -/
  key : Option Nat := none
deriving DecidableEq, Repr

/-- One interrupt vector (12 R341). -/
structure IrqVector where
  payload : Word64 := 0
  count : BitVec 16 := 0
  mode : BitVec 2 := 0
  wake : Bool := false
deriving DecidableEq, Repr

/-- One sender entry (12 R341). -/
structure IrqSender where
  allowed : Word64 := 0
  kind : BitVec 2 := 0
  num : BitVec 16 := 0
  dev : BitVec 16 := 0
deriving DecidableEq, Repr

/-- The interrupt block of a context (12 R341). Vectors and sender entries not listed are zero. -/
structure IrqBlock where
  pending : Word64 := 0
  mask : Word64 := BitVec.allOnes 64
  inService : Word64 := 0
  vectors : Tab IrqVector := []
  senders : Tab IrqSender := []
deriving DecidableEq, Repr

/-- An export table entry (13 R371). -/
structure ExportEntry where
  dev : BitVec 16
  ctx : BitVec 16
  perms : BitVec 16
  va : Word64
  size : Word64
deriving DecidableEq, Repr

/-- A trace control block (15 R397). -/
structure TraceCtl where
  bufva : Word64 := 0
  log2size : BitVec 8 := 0
  /-- The block is armed, and its ENABLE byte. -/
  enable : Bool := false
  kinds : BitVec 8 := 0
  log2period : BitVec 8 := 0
  written : Word64 := 0
  dropped : Word64 := 0
deriving DecidableEq, Repr

/-- A dependence counter bound by a pending task (02 R54), with the slot of its task. -/
structure Pending where
  count : Nat
  slot : Nat
deriving DecidableEq, Repr

/-- A posted task in its task-queue slot (02 R53, 12 R340). -/
structure Task where
  record : Word64
  manifest : Word64
  params : Word64
  counter : BitVec 12
  signal : Option (BitVec 12)
  /-- The number of the completion counter, also when its signal is not enabled (02 R70). -/
  endCounter : BitVec 12 := 0
  initial : Nat := 0
deriving DecidableEq, Repr

/-- Where the images of a context stand: descriptor, interrupt block, export table, task queue (13 R371). -/
structure ContextPages where
  desc : Nat
  irq : Nat
  exports : Nat
  tasks : Nat
deriving DecidableEq, Repr

/-- A generation allocation (03 R114): its first byte, its size in whole pages, its generation and its tag. -/
structure Allocation where
  va : Nat
  size : Nat
  gen : Word64
  tag : BitVec 4
deriving DecidableEq, Repr

/-- A context (13 R371), with its interrupt block, its tables and the allocator's data (03 R114-R116, 13 R380). -/
structure Context where
  live : Bool := true
  debuggable : Bool := false
  priority : Nat := 0
  dieMask : BitVec 4 := 0xF
  fabric : BitVec 16 := 0
  /-- Physical address of the level-0 table. -/
  table : Nat := 0
  saveBase : Nat := 0
  saveSize : Nat := 0
  home : Nat := 0
  irq : IrqBlock := {}
  exports : Tab ExportEntry := []
  trace : TraceCtl := {}
  measurement : BitVec 512 := 0
  /-- Scope table entries 8-31 (04 R128): core masks of the VALID entries. -/
  scopes : Tab (BitVec 192) := []
  /-- Task-queue slots 0-1023 in use, and the bound counters. -/
  tasks : Tab Task := []
  counters : Tab Pending := []
  gen : Word64 := 1
  allocs : List Allocation := []
  /-- Reclaimed allocations, whose bytes may be used again (03 R116). -/
  reclaimed : List Allocation := []
  /-- Next unused byte of the allocator's window and of the exchange window (13 R380). -/
  allocNext : Nat := 0
  exchangeNext : Nat := 0
  /-- Exchange buffers: first byte, size, and what the host may do: [0] write, [1] read (13 R377). -/
  exchange : List (Nat × Nat × BitVec 2) := []
  /-- Save-area reservations: (block, first byte, size) (02 R63). -/
  reserved : List (Nat × Nat × Nat) := []
  /-- Queued for its handler groups (12 R342). -/
  woken : Bool := false
  /-- Extents: id, first page and pages (13 R368). -/
  extents : List (Nat × Nat × Nat) := []
  pages : Option ContextPages := none
deriving DecidableEq, Repr

/-- An entry of a slice's request ring (13 R375): a service call of a bundle, with the calling threads and their v0-v7. -/
structure RingEntry where
  seq : BitVec 32
  ctx : Nat
  g : Nat
  n : Nat
  mask : Mask
  pc : Word64
  args : List (Nat × List Word32)
  /-- Physical address of the group record, and the placement and GIDX words. -/
  record : Nat := 0
  placement : BitVec 16 := 0
  gidx : Nat := 0
  begun : Bool := false
  /-- Threads whose answer from the host is still to come (13 R380), and the results so far: thread and v1:v0. -/
  forwarded : List Nat := []
  results : List (Nat × Word64) := []
  /-- What the host answered to threads of call 3. -/
  answers : List (Nat × Word64) := []
deriving DecidableEq, Repr

/-- A memory-side slice: its error log (17 R421). -/
structure Slice where
  log : List EventRecord := []
  seq : Nat := 0
  lost : Nat := 0
  /-- The sequence number of the slice's sequencer (05 R178). -/
  fenceSeq : BitVec 64 := 0
  /-- Lines of the L2 bank, most recently used first (03 R106), and accesses to lines that could not be pinned (03 R103). -/
  l2 : List Nat := []
  pinOverflow : Nat := 0
  /-- The request ring (13 R374-R376): entries appended so far, those not yet answered, and groups whose calls wait for room. -/
  ringCount : BitVec 32 := 0
  ring : List RingEntry := []
  ringWait : List Nat := []
  /-- The 1 MiB of the ring, in its units of 32 bytes, and the unit at which the next entry starts (13 R374, R375). -/
  ringMem : Assoc 256 := []
  ringTail : Nat := 0
  /-- Corrections of each DRAM row since the last margin plan, the weighted rows with their corrections, and the scrub period in hours (20 R477, 16
  R409). -/
  rowCounts : Assoc 32 := []
  weighted : List (Nat × Nat) := []
  scrubHours : Nat := 24
  /-- The refresh interval of its DRAM channel is halved (16 R409). -/
  refreshHalved : Bool := false
deriving DecidableEq, Repr

/-- A pending `xreg.acq` (08 R247): the group, its bundle, the amount, and whether the bundle advances past it by 4 bytes. -/
structure XRequest where
  g : Nat
  bundle : Mask
  n : Nat
  entry : ReplayEntry
deriving DecidableEq, Repr

/-- A partition: its request queue (02 R52), slot counters (15 R395) and shadow disagreements of the plan period (21 R498). -/
structure Partition where
  xqueue : List XRequest := []
  /-- The leaf counters of codes 0 to 13, and the snapshot of all sixteen counters. Every clock counts one leaf, so the counter of code 14 is what
  the others leave of the clocks. -/
  slots : Assoc 64 := []
  slotSnap : Assoc 64 := []
  shadowCount : Nat := 0
deriving DecidableEq, Repr

/-- A copy record with its progress (12 R331-R338): its four words, who kicked it, and what is delivered. -/
structure CopyRecord where
  w0 : Word64
  w1 : Word64
  w2 : Word64
  w3 : Word64
  /-- RECORD of `cpy.wp`: the scratchpad address, or the waybill form (12 R337). -/
  name : BitVec 22
  /-- Global address of a waybill record. -/
  at_ : Word64 := 0
  g : Nat
  blk : Nat
  part : Nat
  ctx : Nat
  /-- Kicking core, and the core and channel whose queue holds the record. -/
  core : Nat
  chCore : Nat
  ch : Nat
  active : Bool := false
  /-- Rows and bytes of the current row delivered; bytes delivered since the original start. -/
  row : Nat := 0
  col : Nat := 0
  delivered : Nat := 0
  /-- Held on a condition, and the key of its event (20 R479). -/
  held : Bool := false
  heldKey : Nat := 0
  /-- The requests to peers that the current segment waits for, and whether one of them has failed. -/
  remote : List Nat := []
  failed : Bool := false
  /-- The sectors that it keeps while it waits for them (03 R108). -/
  kept : List Nat := []
  /-- The segment that waits for them has read poisoned data or met a contained line (20 R479). -/
  spoiled : Bool := false
  /-- `cpy.cancel` waits for it: 1 until its current segment is finished, then 2; it starts no further one (12 R339). -/
  cancel : Nat := 0
deriving DecidableEq, Repr

/-- One barrier-map entry (02 R70): an engine completes onto it; operations outstanding. -/
structure BarMap where
  engine : Bool := false
  outstanding : Nat := 0
deriving DecidableEq, Repr

/-- The TIMEs of a barrier object (05 R178): the largest of the arrivals and completions of the phase, and that of the last flip. -/
structure FlipTime where
  acc : BitVec 48 := 0
  last : BitVec 48 := 0
deriving DecidableEq, Repr

/-- A block's share of one of its cores (02 R69, R70): scratchpad bytes, slab words (1,024 a slab), accumulator poison bits (16 words
each), barrier map, withdrawn copy records and copy pointers. -/
structure BlockPart where
  core : Nat
  /-- Physical address of the reserved block record (02 R63). -/
  record : Nat := 0
  scratch : Assoc 8 := []
  slabs : Assoc 32 := []
  slabPoison : List Nat := []
  bars : Tab BarMap := []
  flips : Tab FlipTime := []
  /-- Interval numbers of its scratchpad's 256-byte lines (05 R163). -/
  intervals : Assoc 32 := []
  /-- Words of the scratchpad and of the slabs with an error the next read finds: corrected or not (20 R475, 21 R505). -/
  scratchErr : Tab Bool := []
  slabErr : Tab Bool := []
  withdrawn : List CopyRecord := []
  /-- `cpy.wp` words of channels 0-7 (12 R337). -/
  wp : Assoc 64 := []
deriving DecidableEq, Repr

/-- An arrival at a rendezvous (11 R306): the member, its threads, its instruction and its descriptor. -/
structure Arrival where
  g : Nat
  bundle : Mask
  entry : ReplayEntry
  /-- It was re-injected: its threads do not stand at the instruction. -/
  replay : Bool := false
  gang : Word64
  /-- The descriptor words, as the member arrived and as the rendezvous read them. -/
  d0 : Word64 := 0
  d1 : Word64 := 0
  d2 : Word64 := 0
deriving DecidableEq, Repr

/-- The condition flags an operation collects. -/
structure MxFlags where
  special : Bool := false
  overflow : Bool := false
  invalid : Bool := false
  scaleNf : Bool := false
  poisonIn : Bool := false
  scaleCor : Bool := false
  scaleErr : Bool := false
  shadow : Bool := false
deriving DecidableEq, Repr

/-- Where an `mpoly` or `miter` stands between two of its products (11 R320-R323): the fields of ITER, what the growth test keeps, the flags so far, and the words on
which the array's shadow disagreed. -/
structure MxProgress where
  phase : Nat := 0
  done : Nat := 0
  resid : Word32 := 0
  prev : Option Word32 := none
  grow : Nat := 0
  flags : MxFlags := {}
  bad : List Nat := []
deriving DecidableEq, Repr

/-- An MX operation (11 R306-R310): at its rendezvous, or in flight with the staged registers of its members. -/
structure MxOp where
  blk : Nat
  part : Nat
  ctx : Nat
  core : Nat
  /-- Group numbers of the members, leader first. -/
  members : List Nat
  arrived : List Arrival := []
  /-- Clocks counted towards the gang timeout. -/
  clocks : Nat := 0
  running : Bool := false
  /-- Its place in the order in which rendezvous completed (11 R309), and whether its first array clock has come (R308). -/
  seq : Nat := 0
  begun : Bool := false
  /-- An iteration that a save asks to stop at its next product, and one that has stopped there (11 R323). -/
  asked : Bool := false
  stopped : Bool := false
  progress : MxProgress := {}
  /-- Staged words: key 4096 * member + 64 * thread + index in the run; and the keys of poisoned ones. -/
  runA : Assoc 32 := []
  runB : Assoc 32 := []
  badA : List Nat := []
  badB : List Nat := []
deriving DecidableEq, Repr

/-- The states of a block. -/
inductive BlockState where
  | queued | placing | resident | saving | saved | restoring | ended
deriving DecidableEq, Repr

/-- A role entry of a manifest (02 R47). -/
structure Role where
  wcode : BitVec 2
  groups : Nat
  base : Nat
  xmax : Nat
  gang : Bool
  handler : Bool
  paired : Bool
  redundant : Bool
  ucount : Nat
  entry : Word64
  vec : Word64
deriving DecidableEq, Repr

/-- A manifest as checked (02 R46). -/
structure Manifest where
  gx : Nat
  gy : Nat
  gz : Nat
  units : Nat
  slabs : Nat
  objects : Nat
  cores : Nat
  slack : Nat
  waybill : Word64
  roles : List Role
deriving DecidableEq, Repr

/-- A launch: a task whose counter reached zero (02 R54, R55). -/
structure Launch where
  ctx : Nat
  slot : Nat
  manifestAddr : Word64
  man : Manifest
  params : List Word64
  signal : Option (BitVec 12)
  /-- The number of the completion counter, also when its signal is not enabled (02 R70). -/
  endCounter : BitVec 12 := 0
  /-- Blocks dealt and blocks ended. -/
  dealt : Nat := 0
  ended : Nat := 0
  /-- Next cluster of the round-robin deal. -/
  turn : Nat := 0
deriving DecidableEq, Repr

/-- A block (02 R27, R69-R71). -/
structure Block where
  ctx : Nat
  launch : Nat
  bx : Nat
  byy : Nat
  bz : Nat
  st : BlockState := .placing
  parts : List BlockPart := []
  /-- Groups whose save a whole-block save still waits for (02 R59). -/
  savingWhole : Bool := false
  /-- Waybill stages released (12 R338). -/
  stages : Nat := 0
  rear : Bool := false
  /-- The cluster whose queue it came from. -/
  cluster : Nat := 0
  /-- The other block of a convoy (02 R72). -/
  twin : Option Nat := none
  savedAt : Nat := 0
  /-- It is being saved because a unit it sat on was fenced; once Saved, that it fits nowhere (17 R426). -/
  moved : Bool := false
deriving DecidableEq, Repr

/-- A leaf of the page tables: the entry, its level and the address it was read from (03 R96, R97). -/
structure Leaf where
  entry : Word64
  level : Nat
  at_ : Nat
  /-- It stands for a 64 KiB page of 16 like entries (03 R99). -/
  merged : Bool := false
deriving DecidableEq, Repr

/-- A die: the shared TLB, by page, most recently filled first (03 R110), and the launches its block distributor deals (02 R55). -/
structure Die where
  tlb : List (Nat × Leaf) := []
  ready : List Nat := []
deriving DecidableEq, Repr

/-- One thread's store to global memory: the pointer, the physical address, bytes and value. -/
structure LaneStore where
  L : Nat
  ptr : Word64
  pa : Nat
  size : Nat
  x : Nat
deriving DecidableEq, Repr

/-- One thread's atomic: pointer, physical address and data registers. -/
structure LaneAtomic where
  L : Nat
  ptr : Word64
  pa : Nat
  data : List Word32
deriving DecidableEq, Repr

/-- What an instruction held at the release gate (05 R175) or in a compare buffer (02 R74) does when it performs. -/
inductive Act where
  | store (l : List LaneStore)
  | atomic (op : BitVec 4) (dst : Option Nat) (l : List LaneAtomic)
  | arrive (core : Nat) (off : Nat) (n : Nat)
  | bsync
  | gbar
  | fence
  | kick (addr : Nat) (count : Nat)
  | stage
  | post (record : Word64)
  | sig (x : Word64)
  | uirq (target : Word64) (payload : Word64)
  | svc (n : BitVec 8)
  | ckpt
  | exit
deriving DecidableEq, Repr

/-- An event of a thread as the reorder checker keeps it (05 R161, R169, R171). -/
structure MemEvent where
  id : Nat
  g : Nat
  mask : Mask
  kind : Nat
  scope : BitVec 5
  /-- Class of the scope: 0 local, 1 regional, 2 global (04 R132); 0 for an event without a scope. -/
  cls : Nat := 0
  /-- The line accessed (physical address over 256), and the pointer of the lowest thread. -/
  line : Option Nat := none
  ptr : Word64 := 0
  /-- First bytes and sizes of the locations accessed. -/
  locs : List (Nat × Nat) := []
  /-- LEVEL, HOME, INTERVAL and TIME, once the stamp has arrived. -/
  stamp : Option (BitVec 96) := none
  /-- The checker's time when the access issued (05 R160). -/
  issued : BitVec 48 := 0
  /-- A TIME that its own must be later than: that of the phase flip which a wait observed, or of the sequence number of a `fence.sc` (05 R178). -/
  after : Option (BitVec 48) := none
  /-- The sequencer that served a `fence.sc`, and the number (05 R178). -/
  seq : Option (Nat × BitVec 64) := none
  /-- It touches global memory, or another core's scratchpad (05 R170). -/
  outside : Bool := false
deriving DecidableEq, Repr

/-- A release held at the gate of its core (05 R175). -/
structure Held where
  id : Nat
  g : Nat
  bundle : Mask
  mask : Mask
  kind : Nat
  scope : BitVec 5
  cls : Nat
  pc : Word64
  entry : ReplayEntry
  replay : Bool
  /-- The switch marker of the instruction. -/
  sw : Bool
  /-- Lines of the release's class still to be closed (05 R168). -/
  lines : List Nat
  /-- Requests to host memory and to peers whose acknowledgement it waits for (04 R153, R156). -/
  acks : List Nat
  /-- A `fence.sc`: none while no number has been asked for, then the number once it arrives (05 R178). -/
  sc : Bool := false
  asked : Bool := false
  seq : Option (BitVec 64) := none
  /-- The number's TIME (05 R171, R178). -/
  seqTime : BitVec 48 := 0
  /-- The groups of a convoy that receive the old values of a matched atomic, with their outstanding instructions (02 R75); of a matched `svc`, with
  their bundles. A release that a compare buffer performs holds no thread: its bundle is empty. -/
  targets : List (Nat × Nat) := []
  /-- Its own access touches global memory, or another core's scratchpad (05 R170). -/
  outside : Bool := false
  act : Act
  /-- Older stores of its threads have not performed: its lines and acknowledgements are those found once they have (02 R74, 05 R175). -/
  early : Bool := false
deriving DecidableEq, Repr

/-- A store that waits for write ownership (10 R280). -/
structure PendingStore where
  g : Nat
  mask : Mask
  core : Nat
  kind : Nat
  scope : BitVec 5
  cls : Nat
  l : List LaneStore
  /-- HOME of its page (03 R101). -/
  home : BitVec 2 := 0
  /-- Registers its entry would read again (02 R68). -/
  keep : List RegRef := []
deriving DecidableEq, Repr

/-- A request on its way to host memory or to a peer, not yet acknowledged (04 R153, R156, 20 R483-R485). -/
structure Remote where
  host : Bool
  g : Nat
  mask : Mask
  ctx : Nat := 0
  /-- Physical address, and the pointer of the lowest thread. -/
  pa : Nat
  ptr : Word64
  /-- 0 store, 1 load or atomic, 2 uirq.send, 3 copy segment, 4 write of the mailbox record at the HEAD of queue `g`. -/
  kind : Nat
  /-- The die that sends it, and the destination device of a request to a peer. -/
  die : Nat := 0
  dev : Nat := 0
  /-- The outstanding instruction a load or atomic completes. -/
  out : Option Nat := none
  port : Nat := 0
deriving DecidableEq, Repr

/-- A record of a coherence checker (05 R164). -/
structure IntervalRecord where
  hash : BitVec 32
  interval : BitVec 32
  edge : Bool
  role : BitVec 3
  sect : BitVec 4
  line : BitVec 44
deriving DecidableEq, Repr

/-- A comparison pending at the home: the agent's record, and the home's own (05 R167). -/
structure Comparison where
  agent : Nat
  rec_ : IntervalRecord
  home : IntervalRecord
  /-- For a start record, the hash with which the interval before ended. -/
  prev : Option (BitVec 32) := none
  /-- The record itself has travelled; any other travels in its agent's signature (05 R166). -/
  whole : Bool := false
  /-- The clock on which it was emitted (20 R464). -/
  since : Nat := 0
deriving DecidableEq, Repr

/-- The containment of a line (20 R467). -/
structure Containment where
  code : BitVec 16
  interval : BitVec 32
  /-- Table index and class, as byte +36 of the record (17 R421). -/
  scope : BitVec 8
  /-- Sectors that were poisoned before it. -/
  prior : BitVec 4
  /-- The kind of the later event of the finding. -/
  kindY : Nat
  injected : Bool
  /-- The context of the group that a reorder finding stops (20 R473); none for a coherence finding. -/
  ctx : Option Nat := none
deriving DecidableEq, Repr

/-- A line at its home (03 R106, 05 R163): interval number, owners, the L2's copy, pending comparisons, containment. -/
structure Line where
  interval : BitVec 32 := 0
  /-- The agents that hold write ownership, by sector of the line. -/
  owners : Tab Nat := []
  /-- The L2's copy: valid and dirty sectors, and whether HOME 10 pins it (03 R101). -/
  valid : BitVec 4 := 0
  dirty : BitVec 4 := 0
  pinned : Bool := false
  /-- The clusters marked for a sector that more than eight L1s have held (03 R106). -/
  marks : Tab (BitVec 48) := []
  /-- The TIME of the last atomic that performed at the home (05 R178). -/
  atomTime : Option (BitVec 48) := none
  pending : List Comparison := []
  /-- The confirmed writers of the line's interval: agent, interval and sectors (05 R167). -/
  writers : List (Nat × BitVec 32 × BitVec 4) := []
  contained : Option Containment := none
  /-- Sectors whose L2 copy has an error that the next access finds: corrected or not (20 R475). -/
  l2err : Tab Bool := []
deriving DecidableEq, Repr

/-- A signature of an instruction as a compare buffer sees it (02 R74, 21 R511): the word without S, lanes, addresses, data. -/
structure Signature where
  word : BitVec 32
  mask : Mask
  addrs : List Word64
  data : List (List Word64)
deriving DecidableEq, Repr

/-- An entry of a compare buffer, with what its instruction does when it performs. -/
structure CompareEntry where
  sig : Signature
  pc : Word64
  bundle : Mask
  mask : Mask
  kind : Nat
  scope : BitVec 5
  sw : Bool
  entry : ReplayEntry
  /-- The outstanding instruction that waits for the old values of an atomic. -/
  out : Option Nat := none
  act : Act
deriving DecidableEq, Repr

/-- What a lead's load returned, for the rear (02 R76): where it stands, the registers so far, and the lanes still to be loaded when some faulted. -/
structure PassedLoad where
  pc : Word64
  missing : Mask
  writes : List RegWrite
  /-- The lead's outstanding instruction: the values are there once its data has returned. -/
  out : Option Nat := none
deriving DecidableEq, Repr

/-- A convoy (02 R72-R77, 21 R511-R516). -/
structure Convoy where
  lead : Nat
  rear : Nat
  slack : Nat
  /-- Entries of the lead, oldest first, and the rear's entry for the oldest of them. -/
  held : List CompareEntry := []
  rearEntry : Option CompareEntry := none
  /-- An entry that is not a store has performed since the waystation. -/
  nonStore : Bool := false
  retries : Nat := 0
  /-- The waystation snapshots. -/
  snapLead : Option Group := none
  snapRear : Option Group := none
  /-- Values the lead's loads returned that the rear's have not taken (02 R76). -/
  loads : List PassedLoad := []
  /-- A mismatch was declared and outstanding loads must return first. -/
  retrying : Bool := false
  /-- Both groups are chosen for eviction: the rear still matches the held entries (21 R516). -/
  evicting : Bool := false
  /-- Clocks counted towards the timeout of the oldest entry (21 R513). -/
  clocks : Nat := 0
deriving DecidableEq, Repr

/-- States of an L1 line (03 R105). -/
inductive LineState where
  | m | o | e | s
deriving DecidableEq, Repr

/-- A valid L1 line: its number (physical address over 64), its state, and whether it is pinned (03 R102). -/
structure L1Line where
  line : Nat
  st : LineState
  pinned : Bool := false
  /-- An error of its data that the next access finds: corrected or not (20 R475). -/
  err : Option Bool := none
deriving DecidableEq, Repr

/-- An entry of a scale cache (06 R202). -/
structure ScaleEntry where
  ctx : Nat
  tensor : BitVec 8
  block : Nat
  scale : BitVec 16
  poison : Bool := false
  /-- An error of the scale was corrected when it was filled (21 R502). -/
  cor : Bool := false
deriving DecidableEq, Repr

/-- A format window (06 R200). -/
structure Window where
  base : Word64 := 0
  limit : Word64 := 0
  scale : Word64 := 0
  ctl : Word64 := 0
deriving DecidableEq, Repr

/-- The debug registers (15 R400): DBGTGT, DBGCTL's ARMBRK, ARMWP, STOPPED and REFUSED, DBGDUMP, and the watchpoints. -/
structure DebugRegs where
  tgt : Word64 := 0
  armBrk : Bool := false
  armWp : Bool := false
  stopped : Bool := false
  refused : Bool := false
  dump : Word64 := 0
  wpAddr : Assoc 64 := []
  wpCtl : Assoc 64 := []
  /-- The partitions that are stopped (15 R402). -/
  frozen : List Nat := []
deriving DecidableEq, Repr

/-- A line of a written-line set (05 R176): the sectors written, the interval of the first write and the number of the last. -/
structure WrittenLine where
  line : Nat
  sectors : BitVec 4
  interval : BitVec 32
  last : Nat
deriving DecidableEq, Repr

/-- A trace record of 32 bytes. -/
abbrev TraceRecord := BitVec 256

/-- A core's tracing of one context (15 R398, 20 R486): the trace hold with the index a held record has taken, the gap count, and whether
the core waits for the page or has given up. -/
structure TraceHold where
  held : List (Option Nat × TraceRecord) := []
  gap : Nat := 0
  /-- CLK of the last record dropped. -/
  gapAt : Word64 := 0
  waiting : Bool := false
  suspended : Bool := false
deriving DecidableEq, Repr

/-- A finding of a fence that releases, of which no later write has performed (20 R465). -/
structure DeferredFinding where
  code : BitVec 16
  x : MemEvent
  y : MemEvent
  injected : Bool
deriving DecidableEq, Repr

/-- A core: L1 TLB and L1 lines (most recently used first), scale cache. -/
structure Core where
  l1tlb : List (Nat × Leaf) := []
  l1 : List L1Line := []
  pinOverflow : Nat := 0
  scales : List ScaleEntry := []
  /-- The reorder checker: events not yet verified, and the latest verified event of each group and kind (05 R171, R179). -/
  events : List MemEvent := []
  verified : List MemEvent := []
  /-- Findings of fences that wait for the write whose line they contain (20 R465). -/
  deferred : List DeferredFinding := []
  /-- Releases held at the gate, oldest first (05 R175). -/
  gate : List Held := []
  /-- Written-line sets of the local, regional and global class (05 R176). -/
  written0 : List WrittenLine := []
  written1 : List WrittenLine := []
  written2 : List WrittenLine := []
  /-- The sequencer of the local class (05 R178). -/
  seq : BitVec 64 := 0
  /-- Tracing, by context. -/
  trace : Tab TraceHold := []
deriving DecidableEq, Repr

/-- Errors of a stored sector that its error check will find (20 R474). -/
inductive EccKind where
  | corrected | uncorrected | misdirected
deriving DecidableEq, Repr

/-- A 64-byte sector of memory: allocation tag (03 R113), poison (17 R423), a stored error. -/
structure Sector where
  tag : BitVec 4 := 0
  poison : Bool := false
  ecc : Option EccKind := none
deriving DecidableEq, Repr

/-- What the request at a queue's HEAD still waits for: the pages a revoke invalidated, or the context a destroy ends. -/
inductive MailboxWait where
  | none
  | revoke (pages : List Nat)
  | destroy (ctx : Nat)
  | acks   -- peers have not acknowledged its writes yet (04 R151)
deriving DecidableEq, Repr

/-- A mailbox queue (13 R355): MQBASE, MQCTL, MQTAIL, MQHEAD, MQCBASE, MQSTAT. -/
structure Mailbox where
  base : Word64 := 0
  ctl : Word64 := 0
  tail : BitVec 32 := 0
  head : BitVec 32 := 0
  cbase : Word64 := 0
  status : BitVec 16 := 0
  index : BitVec 32 := 0
  wait : MailboxWait := .none
  /-- Its context has been destroyed: it halts at its next record (13 R372). -/
  dead : Bool := false
deriving DecidableEq, Repr

/-- The host-facing registers and queues (13 R351-R366). -/
structure HostSide where
  heqBase : Word64 := 0
  heqCtl : Word64 := 0
  heqHead : BitVec 32 := 0
  heqTail : BitVec 32 := 0
  heqHeld : List HeqEntry := []
  /-- Routing table entries 0-15 (13 R365). -/
  route : List Word64 := [4, 4, 6, 4, 6, 4, 4, 6, 6, 4, 4, 5, 6, 6, 6, 4]
  /-- MSI-X vectors sent, oldest first (13 R351, R361). -/
  msix : List Nat := []
  /-- Mailbox queues 0-255; the MSI-X table, by 8-byte word. -/
  queues : Tab Mailbox := []
  msixTable : Assoc 64 := []
  /-- The MSI-X pending bits (13 R353, log 91). -/
  msixPending : BitVec 2048 := 0
  /-- A function level reset waits for the records being applied (13 R352). -/
  flr : Bool := false
deriving DecidableEq, Repr

/-- A core's margin (16 R409, R410): MARGIN c, and the offset the last plan asks for. -/
structure Margin where
  epoch : BitVec 8 := 0
  slack : BitVec 8 := 0
  offset : Int := 0
  target : Int := 0
deriving DecidableEq, Repr

/-- A firmware image in module flash as the checks of 16 R411 find it. -/
structure Image where
  /-- Which image it is: 0 the main image, 1 the recovery image, 2 the main image that the recovery image carries. -/
  id : Nat := 0
  /-- Not marked unbootable by a restore that failed (17 R427). -/
  bootable : Bool := true
  /-- The SHAKE256 digest of the public key under which its SLH-DSA-SHAKE-256s signature verifies; none where it does not. -/
  signer : Option (BitVec 512) := some 0
  version : BitVec 32 := 0
  family : Bool := true
deriving DecidableEq, Repr

/-- The management block (16 R405-R415). -/
structure Platform where
  /-- Rails that are on, in the order they came on, and whether that order was broken (16 R405). -/
  rails : List Nat := []
  misordered : Bool := false
  /-- PERST# is asserted. -/
  perst : Bool := true
  phase : BitVec 4 := 0
  /-- The boot sequence goes on to the next phase (16 R406). -/
  booting : Bool := false
  recovery : Bool := false
  strap : Bool := false
  throttle : Bool := false
  ready : Bool := false
  powerLim : BitVec 12 := 2200
  watts : BitVec 16 := 0
  tmax : BitVec 16 := 0
  /-- The samples of the last millisecond, newest first (16 R408). -/
  samples : List Nat := []
  /-- Units that self-test finds failed, by unit path (17 R425). -/
  defects : List (BitVec 32) := []
  /-- Issue is stopped at 115 degrees (16 R408). -/
  hot : Bool := false
  margins : Tab Margin := []
  epoch : Word64 := 0
  /-- Smallest monitor slack of a core since the last plan, in ps; an unlisted core reported 50. -/
  slacks : Tab Int := []
  /-- Module flash and the fused minimum version (16 R411). -/
  main : Image := {}
  rescue : Image := { id := 1 }
  carried : Image := { id := 2 }
  minVersion : BitVec 32 := 0
  /-- The fused digest of the vendor public key (16 R411), and the fused device secret, which is locked before phase 1 ends (16 R412). -/
  vendor : BitVec 512 := 0
  secret : BitVec 256 := 0
  locked : Bool := false
  /-- The seeds of the identity key and of the alias key (16 R413). -/
  identitySeed : BitVec 512 := 0
  aliasSeed : BitVec 512 := 0
  /-- The measurement register M (16 R412). -/
  measurement : BitVec 512 := 0
  attCtx : BitVec 16 := 0
  attBusy : Bool := false
  /-- A certificate chain is being written in place of a report. -/
  attChain : Bool := false
  attDst : Word64 := 0
  attNonce : BitVec 256 := 0
  /-- The report being built (16 R415), from the state as it stood at GO. -/
  attReport : List (Nat × Nat × Nat) := []
  /-- FWCTL: BUSY and STATUS (17 R427). -/
  fwBusy : Bool := false
  fwStatus : BitVec 16 := 0
deriving DecidableEq, Repr

/-- Why the machine stops with a fault. -/
inductive Fault where
  /-- `exec` was asked to run an encoded instruction while no bundle issues. Raised by the issue operations; the step function
  never does so. Safe: it only stops. -/
  | noIssuingBundle
deriving DecidableEq, Repr

/-- Why an instruction has no meaning. -/
inductive Refusal where
  /-- The arm of `exec` gives the instruction no meaning yet. Safe: it only stops. -/
  | notModelled (mnemonic : String)
deriving DecidableEq, Repr

/-- What this device answered a peer's access: the device, and the value read, or none for a refusal (13 R382). -/
structure RemoteReply where
  dev : BitVec 16
  value : Option Nat
deriving DecidableEq, Repr

/-- The byte that stood at a physical address before the first store of an epoch to it (04 R146). -/
structure OldByte where
  epoch : Nat
  pa : Nat
  byte : Byte
deriving DecidableEq, Repr

/-- The state of the module. -/
structure State where
  issue : Option Issue := none
  /-- Groups whose share of the issue did not issue after all: turned away, stopped by the debugger, or trapping for an older instruction. -/
  unissued : List Nat := []
  groups : Tab Group := []
  mem : List Host.Cell := []
  ctxs : Tab Context := []
  /-- Partitions by 16 * core + partition. -/
  parts : Tab Partition := []
  blks : Tab Block := []
  dies : Tab Die := []
  cores : Tab Core := []
  /-- Sectors by physical address over 64; one that is not listed has tag 0, no poison and no error. -/
  sectors : Tab Sector := []
  launches : Tab Launch := []
  slices : Tab Slice := []
  /-- Local block queues of the clusters (02 R55). -/
  queues : Tab (List Nat) := []
  /-- The block and the core that saves in progress make room for (02 R61). -/
  room : Option (Nat × Nat) := none
  /-- Fenced partitions, by 16 * core + partition (17 R426). -/
  fenced : List Nat := []
  host : HostSide := {}
  /-- The time counters of dies 0-3 (01 R16). -/
  clk : Assoc 64 := []
  /-- BOOTERR (17 R427). -/
  bootErr : BitVec 16 := 0
  /-- Lines at their homes, by physical address over 256. -/
  lines : Tab Line := []
  /-- Logical clocks of the agents (05 R159), and the signatures of their records by agent and home slice (05 R166). -/
  logical : Assoc 48 := []
  signatures : Assoc 64 := []
  /-- The signatures that the homes expect of the agents (05 R166); the hash of a sector when its last writer interval ended, and when it was last written
  back to DRAM, while nothing else has written it (05 R165, R167). -/
  expected : Assoc 64 := []
  ends : Tab (BitVec 32) := []
  dramEnds : Tab (BitVec 32) := []
  /-- Instruction fetch does not see a store before its group's `cache.inv` (04 R146): the bytes before the stores, oldest first, and the number of
  invalidations so far. -/
  oldCode : List OldByte := []
  epoch : Nat := 0
  /-- Stores that wait for ownership, and unacknowledged requests to the host and to peers, by request number. -/
  stores : Tab PendingStore := []
  remotes : Tab Remote := []
  /-- The CXL port works (20 R483). -/
  cxlUp : Bool := true
  /-- The Wayline route table: ports of each destination device (13 R384); the ports that work, bit p of port p. -/
  routes : Assoc 16 := []
  ports : BitVec 16 := 0xFFFF
  /-- Changes of the route table that wait for the requests on the old route (13 R384). -/
  routePending : List (Nat × BitVec 16) := []
  dbg : DebugRegs := {}
  plat : Platform := {}
  /-- DIESKEW and PORTSKEW (15 R396). -/
  dieSkew : Assoc 64 := []
  portSkew : Assoc 64 := []
  /-- The first partition that has not had its turn on this clock. -/
  turn : Nat := 0
  /-- Convoys, by the number of the lead group. -/
  convoys : Tab Convoy := []
  /-- Records of the request queues, in the order they were queued; MX operations. -/
  copies : Tab CopyRecord := []
  mxops : Tab MxOp := []
  /-- Answers sent to peers, oldest first. -/
  replies : List RemoteReply := []
  /-- Device DRAM the service kernel has allocated: context, first byte, size. -/
  phys : List (Nat × Nat × Nat) := []
  /-- Pages that the zero engine is clearing, by page number: where their leaf stands, and the leaf (03 R119). -/
  zeroing : Tab (Nat × Word64) := []
  /-- The format windows, as every memory controller holds them. -/
  windows : Tab Window := []
  /-- Numbers of requests, events and held releases. -/
  nextId : Nat := 0
  agenda : List Instr := []
  /-- Completions on their way, with the clock on which each is due (09 R255, 10 R280). -/
  late : List (Nat × Instr) := []
  /-- Clocks counted since module reset: the total of every partition's slot counters (15 R395). -/
  clocks : Nat := 0
  /-- The last perform stamp returned to an agent without an L1 (05 R161). -/
  agentStamps : Assoc 96 := []
  /-- The model's own counter that numbers the free values. -/
  free : Nat := 0
deriving DecidableEq, Repr

/-- The module right after module reset. -/
def State.reset : State := {}

end Sys2Proof.Machine
end

