-- ==== Sys2Proof/Machine/Ops.lean ====
section
/-! DEFINITION. The named operations over groups, threads, registers and logs; taking a trap (12 R344, 18 R428-R436), the fault
hold (19 R444), escalation (19 R446) and the return from a trap (12 R346). -/
namespace Sys2Proof.Machine

/-! ### The module -/

/-- Change one group. -/
def State.modGroup (s : State) (g : Nat) (f : Group → Group) : State := { s with groups := Tab.modify g f s.groups }

/-- The group of a number. -/
def State.group (s : State) (g : Nat) : Option Group := Tab.get? g s.groups

/-- Put events at the end of the agenda. -/
def State.push (s : State) (l : List Instr) : State := { s with agenda := s.agenda ++ l }

/-- A completion that is due `n` clocks after this one; its bundle can issue on the clock after (09 R255, 10 R280, 15 R395). -/
def State.later (s : State) (n : Nat) (i : Instr) : State := { s with late := s.late ++ [(s.clocks + n + 1, i)] }

/-- Change one context. -/
def State.modCtx (s : State) (c : Nat) (f : Context → Context) : State := { s with ctxs := Tab.modify c f s.ctxs }

/-- The context of a number. -/
def State.context (s : State) (c : Nat) : Option Context := Tab.get? c s.ctxs

/-- Change one slice; a slice that is not listed has nothing logged. -/
def State.modSlice (s : State) (k : Nat) (f : Slice → Slice) : State :=
  { s with slices := Tab.put k (f ((Tab.get? k s.slices).getD {})) s.slices }

/-- Change one partition; a partition that is not listed has nothing pending. -/
def State.modPart (s : State) (k : Nat) (f : Partition → Partition) : State :=
  { s with parts := Tab.put k (f ((Tab.get? k s.parts).getD {})) s.parts }

/-- A partition. -/
def State.part (s : State) (k : Nat) : Partition := (Tab.get? k s.parts).getD {}

/-- The partition a group sits on. -/
def Group.partIndex (g : Group) : Nat := 16 * g.place.core + g.place.part

/-- The slice that homes a context (13 R374); slice 0 when there is none. -/
def State.homeSlice (s : State) (c : Nat) : Nat := ((s.context c).map (·.home)).getD 0

/-- Die of a core. -/
def dieOfCore (c : Nat) : Nat := c / 48

/-- Cluster of a core. -/
def clusterOfCore (c : Nat) : Nat := c / 4

/-! ### Groups and threads -/

/-- The threads, from index `i` on, for which `p` holds. -/
def maskFrom (p : Thread → Bool) : Nat → List Thread → Mask
  | _, [] => 0#64
  | i, t :: ts => (if p t then oneBit i else 0#64) ||| maskFrom p (i + 1) ts

/-- Change the threads of a mask, from index `i` on. -/
def modFrom (m : Mask) (f : Nat → Thread → Thread) : Nat → List Thread → List Thread
  | _, [] => []
  | i, t :: ts => (if m.getLsbD i then f i t else t) :: modFrom m f (i + 1) ts

/-- The threads for which `p` holds. -/
def Group.which (g : Group) (p : Thread → Bool) : Mask := maskFrom p 0 g.threads

/-- Change the threads of a mask. -/
def Group.modLanes (g : Group) (m : Mask) (f : Nat → Thread → Thread) : Group :=
  { g with threads := modFrom m f 0 g.threads }

/-- The live threads: those that have not executed `exit` (02 R32). -/
def Group.live (g : Group) : Mask := g.which (fun t => !t.exited)

/-- The group's width in threads (02 R47). -/
def Group.width (g : Group) : Nat := 8 * 2 ^ g.place.wcode.toNat

/-- Vector registers a thread may name: base and extended (03 R81). -/
def Group.vLimit (g : Group) : Nat := g.place.base + g.regs.xheld

/-- A thread of the group; a fresh one past the width. -/
def Group.thread (g : Group) (L : Nat) : Thread := (g.threads[L]?).getD {}

/-- A vector word (03 R78). -/
def Thread.vreg (t : Thread) (n : Nat) : Word32 := Assoc.get n t.v

/-- Write a vector word with its taint and poison bits (03 R89, 19 R451). -/
def Thread.setV (t : Thread) (n : Nat) (x : Word32) (taint poison : Bool) : Thread :=
  { t with v := Assoc.set n x t.v, taint := setBit t.taint n taint, poison := setBit t.poison n poison }

/-- A predicate; p7 reads true (03 R79). -/
def Thread.pget (t : Thread) (n : Nat) : Bool := n == 7 || t.pred.getLsbD n

/-- Write a predicate; a write to p7 is discarded (03 R79). -/
def Thread.setP (t : Thread) (n : Nat) (b : Bool) : Thread := if n = 7 then t else { t with pred := setBit t.pred n b }

/-- A uniform register; s0 reads zero (03 R79). -/
def Group.sget (g : Group) (n : Nat) : Word64 := if n = 0 then 0#64 else Assoc.get n g.regs.s

/-- Write a uniform register as the instruction numbered `k` of the group does; a write to s0 is discarded (03 R79). -/
def Group.setSAt (g : Group) (k n : Nat) (x : Word64) : Group :=
  if n = 0 then g else { g with regs := { g.regs with s := Assoc.set n x g.regs.s, sAt := Tab.put n k g.regs.sAt } }

/-- Write a uniform register at issue: the instruction is younger than every one whose result is outstanding. -/
def Group.setS (g : Group) (n : Nat) (x : Word64) : Group := g.setSAt g.flow.nextId n x

/-- A younger instruction than the one numbered `k` has written a uniform register: the register keeps its value (02 R39). -/
def Group.rewritten (g : Group) (k n : Nat) : Bool := decide (k < (Tab.get? n g.regs.sAt).getD 0)

/-- A coefficient register. -/
def Group.kget (g : Group) (n : Nat) : Word32 := Assoc.get n g.regs.k

/-- Write a coefficient register. -/
def Group.setK (g : Group) (n : Nat) (x : Word32) : Group :=
  { g with regs := { g.regs with k := Assoc.set n x g.regs.k } }

/-- Apply one register write. -/
def Group.write (g : Group) : RegWrite → Group
  | .v L n x t p => g.modLanes (oneBit L) (fun _ th => th.setV n x t p)
  | .p L n b => g.modLanes (oneBit L) (fun _ th => th.setP n b)
  | .s n x => g.setS n x
  | .k n x => g.setK n x
  | .lnk L x => g.modLanes (oneBit L) (fun _ th => { th with lnk := x })

/-- Apply register writes in order. -/
def Group.writes (g : Group) (l : List RegWrite) : Group := l.foldl Group.write g

/-- Apply a register write of the outstanding instruction numbered `k`. -/
def Group.land (k : Nat) (g : Group) : RegWrite → Group
  | .s n x => if g.rewritten k n then g else g.setSAt k n x
  | w => g.write w

/-- `s.divn` or `s.remn` (07 R215). -/
def ReplayEntry.divides (e : ReplayEntry) : Bool := !e.short && field 2 6 e.word == 0x28 && (field 24 8 e.word == 23 || field 24 8 e.word == 24)

/-- The group has just issued it in the packed bundle that issues (02 R33). -/
def State.justIssued (s : State) (n : Nat) (g : Group) (o : Outstanding) : Bool :=
  s.issue.any (fun is => is.sels.any (fun x => x.g == n) && !s.unissued.contains n && o.entry.pc == is.pc) && o.id + 1 == g.flow.nextId

/-- The uniform pipeline of partition `k` is not free for group `gi`: it divides (08 R245). -/
def State.dividing (s : State) (gi k : Nat) : Bool :=
  s.groups.any (fun e => e.2.partIndex == k && e.2.flow.outstanding.any (fun o => o.entry.divides && (e.1 == gi || !s.justIssued e.1 e.2 o)))

/-- USTAT.USPLIT is set when a bundle that lacks a live thread writes a uniform register (02 R40). -/
def Group.noteSplit (g : Group) (bundle : Mask) : Group :=
  if bundle &&& g.live = g.live then g else { g with regs := { g.regs with usplit := true } }

/-- USTAT as it reads (02 R41). -/
def Group.ustat (g : Group) : Word64 :=
  0#24 ++ BitVec.ofNat 8 g.regs.xheld ++ BitVec.ofNat 8 g.place.base ++ BitVec.ofNat 8 g.place.ucount
    ++ g.place.role ++ g.place.wcode ++ 0#4 ++ ofBool 1 g.place.upper ++ ofBool 1 g.place.rear
    ++ ofBool 1 g.place.paired ++ ofBool 1 g.sched.restore ++ ofBool 1 g.trap.inHandler ++ ofBool 1 g.trap.tmasked
    ++ ofBool 1 g.place.handler ++ ofBool 1 g.regs.usplit

/-! ### Event records (17 R416-R422) -/

/-- How a code is delivered (17 R417). -/
inductive Route where
  | cls (n : Nat)
  | trap
  | result
  | log
  | mgmt
deriving DecidableEq, Repr

/-- Codes of classes 1 to 3 (17 R418). -/
def routeLow (c : Nat) : Route :=
  if c < 0x2000 then .trap
  else if c = 0x2D01 then .trap
  else if c < 0x3000 then .cls 0
  else if c = 0x3603 then .cls 0
  else if c = 0x3605 ∨ c = 0x3606 then .cls 5
  else if c = 0x3604 ∨ c % 256 = 2 then .cls 4
  else .cls 3

/-- Codes of classes 4 to 9 (17 R418). -/
def routeMid (c : Nat) : Route :=
  if c < 0x5000 then .cls 2
  else if c < 0x6000 then .cls 6
  else if c < 0x7000 then .cls 7
  else if c = 0x7001 then .cls 6
  else if c = 0x7A01 ∨ c = 0x7A04 then .cls 8
  else if c = 0x7A02 then .cls 9
  else if c = 0x7A03 then .cls 14
  else if c < 0x9000 then .log
  else if c = 0x9501 then .cls 10
  else if c = 0x9B05 ∨ c = 0x9B08 then .log
  else .cls 11

/-- Codes of classes A to E (17 R418). -/
def routeHigh (c : Nat) : Route :=
  if c < 0xB000 then .cls 12
  else if c < 0xC000 then .result
  else if c = 0xCF01 ∨ c = 0xCF02 then .cls 13
  else if c = 0xCF03 then .cls 15
  else if c < 0xE000 then .cls 14
  else .mgmt

/-- The Route column of 17 R418. -/
def routeOf (code : BitVec 16) : Route :=
  let c := code.toNat
  if c < 0x4000 then routeLow c else if c < 0xA000 then routeMid c else routeHigh c

/-- The unit path of a partition's unit (17 R420). -/
def partitionPath (core part : Nat) (unit : BitVec 4) : BitVec 32 :=
  4#4 ++ BitVec.ofNat 2 (core / 48) ++ BitVec.ofNat 4 (core / 4 % 12) ++ BitVec.ofNat 2 (core % 4) ++ BitVec.ofNat 4 part
    ++ unit ++ 0#12

/-- The unit path of a core's unit (17 R420). -/
def corePath (core : Nat) (unit : BitVec 4) (inst : Nat) : BitVec 32 :=
  3#4 ++ BitVec.ofNat 2 (core / 48) ++ BitVec.ofNat 4 (core / 4 % 12) ++ BitVec.ofNat 2 (core % 4) ++ 0#4
    ++ unit ++ BitVec.ofNat 8 inst ++ 0#4

/-- The unit path of a die's unit (17 R420). -/
def diePath (die : Nat) (unit : BitVec 4) (inst : Nat) : BitVec 32 :=
  1#4 ++ BitVec.ofNat 2 die ++ 0#10 ++ unit ++ BitVec.ofNat 8 inst ++ 0#4

/-- The unit path of a module unit (17 R420). -/
def modulePath (unit : BitVec 4) (inst : Nat) : BitVec 32 := 0#16 ++ unit ++ BitVec.ofNat 8 inst ++ 0#4

/-- Region of a physical address. -/
def regionOf (pa : Nat) : Nat := pa / 2 ^ 48

/-- Die of a device-DRAM address. -/
def dieOf (pa : Nat) : Nat := pa / 2 ^ 37 % 4

/-- A device-DRAM address that exists: bits [47:39] zero and the offset below 96 GiB. -/
def inDram (pa : Nat) : Bool := pa < 2 ^ 39 && decide (pa % 2 ^ 37 < Config.dramBytesPerDie)

/-- The XOR of the nibbles of a page number that picks its home slice (03 R95). -/
def pageSlice (P : Nat) : Nat :=
  (P ^^^ (P >>> 4) ^^^ (P >>> 8) ^^^ (P >>> 12) ^^^ (P >>> 16) ^^^ (P >>> 20)) % 16 ^^^ (P >>> 24) % 2

/-- The home slice of an address, as a global index: its own die's slice for DRAM; slice 0 of die 1 for host memory, whose home is the
CXL agent there (13 R354). -/
def homeSliceOf (pa : Nat) : Nat :=
  if regionOf pa = 0 then 16 * dieOf pa + pageSlice (pa % 2 ^ 37 / 4096) else 16

/-- The 32 detail bytes from four 8-byte values. -/
def detail4 (a b c d : Word64) : BitVec 256 := d ++ c ++ b ++ a

/-- The 56-byte event record as it lies in memory (17 R421). -/
def EventRecord.image (r : EventRecord) : BitVec 448 :=
  r.detail ++ r.clk ++ r.occ ++ r.info ++ r.ctx ++ r.path ++ r.disp ++ r.cls ++ r.code

/-- The time counter of a die. -/
def State.clkOf (s : State) (die : Nat) : Word64 := Assoc.get die s.clk

/-- Records of classes 3 and 5 and L records may be overwritten when the ring is full (17 R421). -/
def overwritable (r : EventRecord) : Bool := r.cls == 0xFF || r.cls == 3 || r.cls == 5

/-- Drop the oldest L record, else the oldest record of classes 3 and 5 (17 R421). -/
def dropOldest (l : List EventRecord) : List EventRecord :=
  if l.any (fun r => r.cls == 0xFF) then l.eraseP (fun r => r.cls == 0xFF) else l.eraseP overwritable

/-- What corrected errors of one code are folded by (17 R421): the DRAM row (the 256-byte line stands for it, log 40), the L2 line, or the unit path. -/
def EventRecord.sameUnit (r old : EventRecord) : Bool :=
  if field 8 8 r.code = 0x36#8 ∨ field 8 8 r.code = 0x35#8 then field 8 56 r.detail == field 8 56 old.detail else r.path == old.path

/-- A corrected error within one millisecond of an earlier record of its code and fold key joins that record (17 R421). -/
def foldsInto (r old : EventRecord) : Bool :=
  (r.cls == 3 || r.code == 0x3605) && r.code == old.code && r.sameUnit old && (r.clk - old.clk).ult 1000000#64

/-- Records were counted and not written, and there is room again: the count is written as 0x7E01 (17 R421). `at_` is the service core's unit path. -/
def Slice.noteLost (at_ : BitVec 32) (clk : Word64) (sl : Slice) : Slice :=
  if sl.lost = 0 ∨ 4096 ≤ sl.log.length then sl
  else
    { sl with
      log := sl.log ++ [{ seq := sl.seq, owner := 0, code := 0x7E01, cls := 0xFF, disp := 6, path := at_, ctx := 0xFFFF, info := 0, clk := clk,
                          detail := detail4 (BitVec.ofNat 64 sl.lost) 0 0 0 }]
      seq := sl.seq + 1, lost := 0 }

/-- Put a record into a slice's log (17 R421). -/
def Slice.append (at_ : BitVec 32) (sl : Slice) (r : EventRecord) : Slice :=
  if sl.log.any (foldsInto r) then
    { sl with log := sl.log.map (fun o => if foldsInto r o then { o with occ := o.occ + 1 } else o) }
  else if sl.log.length < 4096 then ({ sl with log := sl.log ++ [r], seq := sl.seq + 1 } : Slice).noteLost at_ r.clk
  else if sl.log.any overwritable then { sl with log := dropOldest sl.log ++ [r], seq := sl.seq + 1 }
  else { sl with lost := sl.lost + 1 }

/-- Routing table entry of a class (13 R365). -/
def State.routeEntry (s : State) (cls : Nat) : Word64 := (s.host.route[cls]?).getD 0

/-- OWNER of a class; the value 3 acts as 0 (13 R365). -/
def State.ownerOf (s : State) (cls : Nat) : BitVec 2 :=
  let o := field 0 2 (s.routeEntry cls)
  if o = 3 then 0 else o

/-- The key of a record: its slice and its sequence number there. -/
def eventKey (slice seq : Nat) : Nat := slice * 2 ^ 32 + seq

/-- Hold an entry for the host event queue (13 R364). -/
def State.holdHeq (s : State) (e : HeqEntry) : State :=
  { s with host := { s.host with heqHeld := s.host.heqHeld ++ [e] }, agenda := s.agenda ++ [.hostEventEntryWrite] }

/-- The record of a report, as the slice writes it. -/
def State.recordOf (s : State) (r : Report) (cls : BitVec 8) (owner : BitVec 2) (disp : BitVec 8) : EventRecord :=
  { seq := ((Tab.get? r.slice s.slices).getD {}).seq, owner := owner, code := r.code, cls := cls, disp := disp, path := r.path,
    ctx := r.ctx, info := r.info, clk := s.clkOf (r.slice / 16), detail := r.detail, grp := r.grp }

/-- Record a condition of a numbered class: the owner is read once, now (13 R366). One that joins an earlier record is no event of its own (17 R421). -/
def State.reportClass (s : State) (r : Report) (cls : Nat) : State :=
  let owner := s.ownerOf cls
  let rec' := s.recordOf r (BitVec.ofNat 8 cls) owner 0
  let joins := ((Tab.get? r.slice s.slices).getD {}).log.any (foldsInto rec')
  let s := s.modSlice r.slice (fun sl => sl.append (diePath (r.slice / 16) 0xE (r.slice % 16)) rec')
  if joins then s
  else if owner = 1 then
    s.holdHeq { kind := 3, ctx := r.ctx, body := rec'.image, cls := cls, key := some (eventKey r.slice rec'.seq) }
  else
    match r.auto with
    | some d => s.push [.eventDisposition (eventKey r.slice rec'.seq) d]
    | none => s

/-- The weighted row to give up: that with the fewest corrections, the earliest of those (20 R477). -/
def fewestRow : List (Nat × Nat) → Option (Nat × Nat)
  | [] => none
  | e :: es =>
    match fewestRow es with
    | none => some e
    | some f => if f.2 < e.2 then some f else some e

/-- A row of a slice's DRAM was corrected: it is weighted, and counted since the last plan (20 R477, 17 R421). -/
def Slice.noteCorrection (sl : Slice) (row : Nat) : Slice :=
  let sl := { sl with rowCounts := Assoc.set row (Assoc.get row sl.rowCounts + 1) sl.rowCounts }
  if sl.weighted.any (fun e => e.1 == row) then { sl with weighted := sl.weighted.map (fun e => if e.1 = row then (row, e.2 + 1) else e) }
  else if sl.weighted.length < 4096 then { sl with weighted := sl.weighted ++ [(row, 1)] }
  else match fewestRow sl.weighted with
    | some e => { sl with weighted := sl.weighted.erase e ++ [(row, 1)] }
    | none => sl

/-- Count a corrected DRAM sector against its row (the 256-byte line stands for the row, log 40). -/
def State.countCorrection (s : State) (r : Report) : State :=
  if r.code = 0x3601 ∨ r.code = 0x3605 then s.modSlice (homeSliceOf (field 0 64 r.detail).toNat) (fun sl => sl.noteCorrection (field 8 56 r.detail).toNat) else s

/-- The record of a condition of a sector holds the corrections of its DRAM row (17 R421). -/
def State.withCorrections (s : State) (r : Report) : Report :=
  if 0x34#8 ≤ field 8 8 r.code ∧ field 8 8 r.code ≤ 0x36#8 then
    let sl := (Tab.get? (homeSliceOf (field 0 64 r.detail).toNat) s.slices).getD {}
    { r with detail := r.detail ||| (zext 256 (Assoc.get (field 8 56 r.detail).toNat sl.rowCounts) <<< 96) }
  else r

/-- Record a condition (17 R417). -/
def State.report (s : State) (r : Report) : State :=
  let s := s.countCorrection r
  let r := s.withCorrections r
  match routeOf r.code with
  | .cls n => s.reportClass r n
  | .log => s.modSlice r.slice (fun sl => sl.append (diePath (r.slice / 16) 0xE (r.slice % 16)) (s.recordOf r 0xFF 0 6))
  | .mgmt => { s with bootErr := r.code }
  | .trap => s
  | .result => s

/-- The key the next record of a slice takes. -/
def State.nextKey (s : State) (slice : Nat) : Nat := eventKey slice (((Tab.get? slice s.slices).getD {}).seq)

/-- A report of a group's condition. -/
def State.groupReport (s : State) (gi : Nat) (g : Group) (code : BitVec 16) (detail : BitVec 256) : Report :=
  { code := code, path := partitionPath g.place.core g.place.part 0, ctx := BitVec.ofNat 16 g.place.ctx,
    info := BitVec.ofNat 16 g.place.gidx, detail := detail, slice := s.homeSlice g.place.ctx, grp := some gi, auto := none }

/-! ### Traps (12 R344), the fault hold (19 R444) and escalation (19 R446) -/

/-- What stops an instruction: the cause, the lanes and the address of 18 R434. -/
structure Stop where
  code : BitVec 16
  mask : Mask
  addr : Word64
  /-- What the detecting unit recorded, of a condition with a numbered route. -/
  rep : Option Report := none
deriving DecidableEq, Repr

/-- Kinds of a register or field in TRAPADDR[11:8] (18 R434); LNK is kind 8 in a segment hazard (19 R441). -/
def RegRef.addr : RegRef → Word64
  | .v n => 0#52 ++ 0#4 ++ BitVec.ofNat 8 n
  | .s n => 0#52 ++ 1#4 ++ BitVec.ofNat 8 n
  | .p n => 0#52 ++ 2#4 ++ BitVec.ofNat 8 n
  | .k n => 0#52 ++ 3#4 ++ BitVec.ofNat 8 n
  | .lnk => 0#52 ++ 8#4 ++ 0#8

/-- TRAPADDR of an illegal operand: kind and number (18 R434). -/
def operandAddr (kind : BitVec 4) (n : Nat) : Word64 := 0#52 ++ kind ++ BitVec.ofNat 8 n

/-- An illegal-operand stop on the active threads. -/
def illegal (m : Mask) (kind : BitVec 4) (n : Nat) : Stop := { code := 0x1002, mask := m, addr := operandAddr kind n }

/-- Issue is stopped everywhere (16 R408) or on this partition (15 R402). -/
def State.partitionStopped (s : State) (k : Nat) : Bool := s.plat.hot || s.dbg.frozen.contains k

/-- Conditions that hold the group for a disposition instead of entering its handler: numbered routes (18 R433, 19 R443, 20 R470,
21 R495). -/
def Stop.holds (st : Stop) : Bool :=
  match routeOf st.code with
  | .cls _ => true
  | _ => false

/-- The trap takes every thread out of its segment: the segment write sets are emptied (19 R440). -/
def Group.clearSegs (g : Group) (m : Mask) : Group := g.modLanes m (fun _ t => { t with seg := [] })

/-- Two entries are of one issue. -/
def sameIssue (a b : ReplayEntry) : Bool := a.pc == b.pc && a.word == b.word && a.mask == b.mask

/-- Entries with the last one of an issue marked as not completed on the lanes of `bad`. -/
def unfinish (e : ReplayEntry) (bad : Mask) (l : List ReplayEntry) : List ReplayEntry :=
  let n := (l.zipIdx.filter (fun q => sameIssue q.1 e)).foldl (fun _ q => q.2) l.length
  l.zipIdx.map (fun q => if q.2 = n then { q.1 with done := q.1.done &&& ~~~bad } else q.1)

/-- The run-on of a bundle. -/
def Group.runOn (g : Group) (B : Mask) : Option RunOn := g.flow.runOns.find? (fun r => r.bundle &&& B != 0)

/-- The number a thread waits on at a `ckpt` or an `exit` of a convoy until the other group has matched it (21 R512). -/
def convoyWait : Nat := 2 ^ 60

/-- A group's bundle leaves the rendezvous it waits at; a rendezvous without a member is gone. -/
def State.withdrawArrivals (s : State) (gi : Nat) (B : Mask) : State :=
  let l := s.mxops.map (fun (e : Nat × MxOp) =>
    if e.2.running then e else (e.1, { e.2 with arrived := e.2.arrived.filter (fun (a : Arrival) => !(a.g == gi && a.bundle &&& B != 0)) }))
  { s with mxops := l.filter (fun (e : Nat × MxOp) => e.2.running || !e.2.arrived.isEmpty) }

/-- Entries of a bundle that are still to be issued again: those of `rett`, then those a save captured (12 R346, 19 R452). -/
def Group.pendingEntries (g : Group) (B : Mask) : List ReplayEntry :=
  (if g.flow.injectMask &&& B == 0 then [] else g.flow.inject) ++ (g.flow.reissue.filter (fun e => e.1 &&& B != 0)).map Prod.snd

/-- Forget them. -/
def Flow.dropPending (f : Flow) (B : Mask) : Flow :=
  { f with inject := if f.injectMask &&& B == 0 then f.inject else [], injectMask := if f.injectMask &&& B == 0 then f.injectMask else 0,
           reissue := f.reissue.filter (fun e => e.1 &&& B == 0) }

/-- Write the trap frame (12 R344): cause, address of the instruction, queue and the threads of the bundle. -/
def Group.writeFrame (g : Group) (st : Stop) (pc : Word64) (queue : List ReplayEntry) (B : Mask) : Group :=
  { g with
    trap := { g.trap with cause := zext 64 st.code, pc := pc, addr := st.addr, mask := st.mask, queue := queue, qix := 0, bundle := B }
    flow := { g.flow.dropPending B with runOns := g.flow.runOns.filter (fun r => r.bundle &&& B == 0) } }

/-- Enter the handler (12 R344): traps are masked and the live threads of the bundle stand at TRAPVEC. -/
def Group.enterHandler (g : Group) : Group :=
  let g := { g with trap := { g.trap with inHandler := true, tmasked := true, held := false } }
  (g.modLanes (g.trap.bundle &&& g.live) (fun _ t => { t with pc := g.place.vec, parked := false, wait := .none, waitCount := 0 })).clearSegs
    (BitVec.allOnes 64)

/-- Record 0x7001 with the original trap frame and the nested code (19 R446), and save the group as Escalated. A run-on of the bundle ends with it. -/
def State.escalate (s : State) (gi : Nat) (B : Mask) (code : BitVec 16) (pc : Word64) (mask done : Mask) : State :=
  match s.group gi with
  | none => s
  | some g =>
    let cause : Word64 := 0#32 ++ code ++ field 0 16 g.trap.cause
    let r := s.groupReport gi g 0x7001 (detail4 cause g.trap.pc g.trap.addr g.trap.mask)
    let key := s.nextKey r.slice
    let s := s.modGroup gi (fun g =>
      { g with st := .saving 2
               trap := { g.trap with nested := some { code := code, pc := pc, mask := mask, done := done, bundle := B }, heldSeq := key }
               flow := { g.flow with runOns := g.flow.runOns.filter (fun r => r.bundle &&& B == 0) } })
    (s.report r).push [.groupSaveComplete gi]

/-- Take a condition that stopped an instruction of bundle `B` (12 R344, 18 R433, 19 R446): escalate while traps are masked, hold the
group for a numbered route, else enter the handler. `queue` has the stopped instruction at its head (empty for a fetch condition). -/
def State.takeStop (s : State) (gi : Nat) (B : Mask) (st : Stop) (pc : Word64) (queue : List ReplayEntry) : State :=
  match s.group gi with
  | none => s
  | some g =>
    if g.trap.tmasked then
      let s := match st.rep with
        | some r => s.report { r with auto := some 6, grp := none }
        | none => s
      let m := match queue with
        | e :: _ => (e.mask, e.done)
        | [] => (B, 0)
      s.escalate gi B st.code pc m.1 m.2
    else if st.holds then
      let r := { (st.rep.getD (s.groupReport gi g st.code (detail4 st.addr 0 0 0))) with grp := some gi, auto := none }
      let key := s.nextKey r.slice
      let s := s.modGroup gi (fun g =>
        let g := (g.writeFrame st pc queue B).clearSegs (BitVec.allOnes 64)
        { g with trap := { g.trap with held := true, heldSeq := key } })
      s.report r
    else s.modGroup gi (fun g => (g.writeFrame st pc queue B).enterHandler)

/-! ### The return from a trap (12 R346) -/

/-- Where a thread goes on after an entry: a branch that split its bundle sent each thread its own way. -/
def ReplayEntry.nextOf (e : ReplayEntry) (L : Nat) : Word64 := ((e.nexts.find? (fun x => x.1 == L)).map Prod.snd).getD e.next

/-- Where a thread resumes: after the youngest kept entry, else at TRAPPC. -/
def TrapFrame.resume (t : TrapFrame) (L : Nat) : Word64 :=
  match t.queue.getLast? with
  | some e => e.nextOf L
  | none => t.pc

/-- Re-inject the kept entries and let the bundle continue (12 R346): its threads stand at the resume point, and the entries issue first, on the
whole bundle, with the threads that left it by an `exit` of the trapping segment: what they issued before performs (08 R233). Entries of another bundle
that are still to be issued wait behind them. -/
def Group.reinject (g : Group) : Group :=
  let B := g.trap.bundle
  let g := g.modLanes (B &&& g.live) (fun L t => { t with pc := g.trap.resume L, parked := false, wait := .none })
  { g with flow := { g.flow with inject := g.trap.queue, injectMask := B, reissue := g.flow.inject.map (fun e => (g.flow.injectMask, e)) ++ g.flow.reissue }
           trap := { g.trap with queue := [], qix := 0, bundle := 0, held := false } }

/-- `rett` (12 R346). -/
def Group.endTrap (g : Group) : Group :=
  { g.reinject with trap := { g.reinject.trap with inHandler := false, tmasked := false } }

/-- Every thread of the trapping bundle has executed `exit` in the handler: it ends without `rett` (12 R347). -/
def Group.abandonTrap (g : Group) : Group :=
  { g with trap := { g.trap with queue := [], qix := 0, bundle := 0, inHandler := false, tmasked := false } }

end Sys2Proof.Machine
end

