-- ==== Sys2Proof/Machine/Operands.lean ====
section
/-! DEFINITION. Operand forms: what an instruction names, the permutation crossbar (03 R83-R87), operand delivery and capture
(02 R67), and the operand, hazard and poison checks (18 R434, R435, 19 R441). -/
namespace Sys2Proof.Machine

/-- A vector source: its first register, its selector and its number of words. A selector of 4 + n is `rdlane`'s: every thread receives the word of
the thread that uniform register n names (09 R271). -/
structure VSrc where
  reg : Nat
  sel : Nat := 0
  cnt : Nat := 1
deriving DecidableEq, Repr

/-- The registers an instruction names. -/
structure Use where
  vsrc : List VSrc := []
  /-- Vector destinations: first register and words. -/
  vdst : List (Nat × Nat) := []
  ssrc : List Nat := []
  sdst : List Nat := []
  psrc : List Nat := []
  pdst : List Nat := []
  ksrc : List Nat := []
  kdst : List Nat := []
  lnkR : Bool := false
  lnkW : Bool := false
  /-- Of the fixed-latency class (09 R255). -/
  fixed : Bool := false
  /-- Its destination, read as a third source, may have been written earlier in the segment by a fixed-latency instruction (09 R257). -/
  mayReread : Bool := false
deriving DecidableEq, Repr

/-- A register's words. -/
def wordsOf (reg cnt : Nat) : List Nat := (List.range cnt).map (fun i => reg + i)

/-- The source words in operand order. -/
def Use.srcWords (u : Use) : List (Nat × Nat) := u.vsrc.flatMap (fun v => (wordsOf v.reg v.cnt).map (fun r => (r, v.sel)))

/-- The destination words. -/
def Use.dstWords (u : Use) : List Nat := u.vdst.flatMap (fun d => wordsOf d.1 d.2)

/-! ### The permutation crossbar (03 R83-R87) -/

/-- Segment size of a descriptor for a group of width `W` (03 R84, R85). -/
def permSegment (desc : Word32) (W : Nat) : Nat :=
  let seg := (field 9 3 desc).toNat
  if seg = 6 then W else min (2 ^ (seg + 1)) W

/-- The source thread f(L) of a descriptor; none where the thread receives the fill value (03 R85). -/
def permSource (desc : Word32) (W L : Nat) : Option Nat :=
  let S := permSegment desc W
  let m := (field 3 6 desc).toNat
  let b := L - L % S
  let i := L % S
  match (field 0 3 desc).toNat with
  | 1 => some (b + (i + S - m % S) % S)
  | 2 => if i < m then none else some (b + i - m)
  | 3 => if S ≤ i + m then none else some (b + i + m)
  | 4 => some (b + m % S)
  | 5 => some (b + (i ^^^ (m % S)))
  | 6 => some (b + (S - 1 - i))
  | _ => some L

/-- The descriptor of a slot; slot 0 is the identity (03 R83). -/
def Group.slot (g : Group) (n : Nat) : Word32 := if n = 0 then 0#32 else Assoc.get n g.regs.perm

/-- The fill register of a descriptor that fills from one (03 R84). -/
def fillReg (desc : Word32) : Option Nat := if desc.getLsbD 12 then some (field 13 8 desc).toNat else none

/-- The fill value (03 R84): no taint, no poison (03 R86). -/
def Group.fill (g : Group) (desc : Word32) : Word32 :=
  match fillReg desc with
  | some n => lowWord (g.sget n)
  | none => 0#32

/-- The thread whose word thread `L` receives through a selector. -/
def Group.sourceThread (g : Group) (sel L : Nat) : Option Nat :=
  if 4 ≤ sel then some ((field 0 6 (g.sget (sel - 4))).toNat % g.width) else permSource (g.slot sel) g.width L

/-- A source word as delivered to thread `L`: value and taint. -/
def Group.deliver (g : Group) (L : Nat) (w : Nat × Nat) : Word32 × Bool :=
  match g.sourceThread w.2 L with
  | none => (g.fill (g.slot w.2), false)
  | some k => ((g.thread k).vreg w.1, (g.thread k).taint.getLsbD w.1)

/-! ### Delivery and capture -/

/-- What one thread's operation reads: source words and their taint in operand order, uniform sources, predicates. -/
structure LaneIn where
  L : Nat
  v : List Word32
  tv : List Bool
  s : List Word64
  p : List Bool
deriving DecidableEq, Repr

/-- The operands of thread `L`: from the registers, or from the captured sources of a re-injected entry (18 R432). -/
def Group.gather (g : Group) (u : Use) (rep : Option ReplayEntry) (L : Nat) : LaneIn :=
  let t := g.thread L
  let p := u.psrc.map t.pget
  match rep with
  | some e =>
    if e.reread then
      { L := L, v := u.srcWords.map (fun w => (g.deliver L w).1), tv := u.srcWords.map (fun w => (g.deliver L w).2),
        s := u.ssrc.map g.sget, p := p }
    else
      let n := u.srcWords.length
      { L := L, v := (List.range n).map (fun j => Assoc.get (64 * j + L) e.src),
        tv := (List.range n).map (fun j => e.taint.getLsbD (64 * j + L)), s := e.uni, p := p }
  | none =>
    { L := L, v := u.srcWords.map (fun w => (g.deliver L w).1), tv := u.srcWords.map (fun w => (g.deliver L w).2),
      s := u.ssrc.map g.sget, p := p }

/-- Uniform operand `j` of an instruction, register `a`: from the register, or captured (02 R67). -/
def uniSrc (is : Issue) (g : Group) (a : BitVec 8) (j : Nat) : Word64 :=
  match is.replay with
  | some e => if e.reread then g.sget a.toNat else e.uni.getD j 0
  | none => g.sget a.toNat

/-- The captured words of one thread's operands, source `j` at key `64 * j + L`. -/
def captureWords (L : Nat) : Nat → List Word32 → Assoc 32 → Assoc 32
  | _, [], a => a
  | j, x :: xs, a => captureWords L (j + 1) xs (Assoc.set (64 * j + L) x a)

/-- The captured taint of one thread's operands. -/
def captureTaint (L : Nat) : Nat → List Bool → BitVec 192 → BitVec 192
  | _, [], a => a
  | j, b :: bs, a => captureTaint L (j + 1) bs (setBit a (64 * j + L) b)

/-- Registers an entry with flag [2] keeps unchanged (02 R68). -/
def Use.keep (u : Use) : List RegRef := u.srcWords.map (fun w => .v w.1)

/-- The replay-queue entry of an instruction about to issue (02 R67); a re-injected one with flag [2] reads its uniform sources again. -/
def capture (is : Issue) (sel : Sel) (g : Group) (u : Use) (next : Word64) : ReplayEntry :=
  match is.replay with
  | some e => if e.reread then { e with uni := u.ssrc.map g.sget } else e
  | none =>
    let big := 3 < u.srcWords.length
    let ins := (maskList sel.mask).map (g.gather u none)
    { word := is.word, short := is.short, reread := big, pc := is.pc, mask := sel.mask, done := 0
      src := if big then [] else ins.foldl (fun a i => captureWords i.L 0 i.v a) []
      taint := if big then 0 else ins.foldl (fun a i => captureTaint i.L 0 i.tv a) 0
      uni := u.ssrc.map g.sget
      qslot := g.regs.qslot
      next := next
      keep := if big then u.keep else [] }

/-! ### Operand checks: 0x1002 -/

/-- A pair names an even register and a quad a multiple of 4 (03 R80, 07 R212); runs of other lengths have no alignment. -/
def misaligned (reg cnt : Nat) : Bool := (cnt == 2 && reg % 2 == 1) || (cnt == 4 && reg % 4 != 0)

/-- The vector operands, destination first (the order of the fields of 07 R210). -/
def Use.vectors (u : Use) : List (Nat × Nat) := u.vdst ++ u.vsrc.map (fun v => (v.reg, v.cnt))

/-- The first misaligned operand. -/
def Use.misalignedReg (u : Use) : Option Nat := (u.vectors.find? (fun v => misaligned v.1 v.2)).map Prod.fst

/-- The vector registers named past the limit of the thread. -/
def Use.pastLimit (u : Use) (limit : Nat) : List Nat :=
  (u.vectors.flatMap (fun v => wordsOf v.1 v.2)).filter (fun r => limit ≤ r)

/-- The least of a list. -/
def leastOf : List Nat → Option Nat
  | [] => none
  | x :: xs => some (xs.foldl min x)

/-- The illegal-operand condition of the registers an instruction names: alignment, vector limit, uniform limit (03 R80, R81). -/
def operandStop (g : Group) (m : Mask) (u : Use) : Option Stop :=
  match u.misalignedReg with
  | some r => some (illegal m 0 r)
  | none =>
    match leastOf (u.pastLimit g.vLimit) with
    | some r => some (illegal m 0 r)
    | none =>
      match (u.sdst ++ u.ssrc).find? (fun n => g.place.ucount ≤ n) with
      | some n => some (illegal m 1 n)
      | none => none

/-! ### Segment hazards: 0x1008 -/

/-- The fill registers of the slots an instruction reads with a fill (09 R273, 19 R441): of those from which an active thread receives the fill (DESIGN
CHOICE, log 97). -/
def fillReads (g : Group) (u : Use) (m : Mask) : List RegRef :=
  (u.vsrc.filter (fun v => v.sel != 0 && (maskList m).any (fun L => (g.sourceThread v.sel L).isNone))).filterMap
    (fun v => (fillReg (g.slot v.sel)).map .s)

/-- The registers an instruction reads. -/
def Use.reads (u : Use) : List RegRef :=
  u.srcWords.map (fun w => .v w.1) ++ u.ssrc.map .s ++ u.psrc.map .p ++ u.ksrc.map .k ++ (if u.lnkR then [.lnk] else [])

/-- The registers an instruction writes. -/
def Use.writes (u : Use) : List RegRef :=
  u.dstWords.map .v ++ u.sdst.map .s ++ u.pdst.map .p ++ u.kdst.map .k ++ (if u.lnkW then [.lnk] else [])

/-- Writes to s0 and p7 are discarded: they name no register (03 R79). -/
def realReg : RegRef → Bool
  | .s 0 => false
  | .p 7 => false
  | _ => true

/-- The segment write set of a bundle: the union over its threads (19 R440). -/
def Group.segSet (g : Group) (m : Mask) : List SegEntry := (maskList m).flatMap (fun L => (g.thread L).seg)

/-- A register is in the segment write set. -/
def inSeg (seg : List SegEntry) (r : RegRef) : Bool := seg.any (fun e => e.reg == r)

/-- A register is in the set and not every writer is of the fixed-latency class. -/
def inSegVariable (seg : List SegEntry) (r : RegRef) : Bool := seg.any (fun e => e.reg == r && !e.fixed)

/-- A vector register. -/
def isVec : RegRef → Bool
  | .v _ => true
  | _ => false

/-- A write that meets the set: a fixed-latency vector instruction may overwrite a register, of any kind, that only fixed-latency vector
instructions have written (02 R37, 19 R441). -/
def writeHazard (u : Use) (seg : List SegEntry) (r : RegRef) : Bool :=
  if u.fixed then inSegVariable seg r else inSeg seg r

/-- A read that meets the set: the destination of `iaddmin` may be read when only fixed-latency vector instructions have written it (09 R257). -/
def readHazard (u : Use) (seg : List SegEntry) (r : RegRef) : Bool :=
  if u.mayReread && u.dstWords.any (fun d => r == .v d) then inSegVariable seg r else inSeg seg r

/-- The segment hazard of an instruction: reads first, then writes (19 R441). A destination that the instruction also reads counts as read, whoever
wrote it, but for that of `iaddmin`. -/
def hazardStop (g : Group) (m : Mask) (u : Use) : Option Stop :=
  let seg := g.segSet m
  let rd := (fillReads g u m ++ u.reads).find? (fun r => realReg r && readHazard u seg r)
  match rd with
  | some r => some { code := 0x1008, mask := m, addr := r.addr }
  | none =>
    match u.writes.find? (fun r => realReg r && writeHazard u seg r) with
    | some r => some { code := 0x1008, mask := m, addr := r.addr }
    | none => none

/-- The entries an instruction adds to the set. A register keeps its mark only when every writer is of the fixed class. -/
def addSeg (u : Use) (seg : List SegEntry) : List SegEntry :=
  let ws := u.writes.filter realReg
  seg.filter (fun e => !ws.contains e.reg)
    ++ ws.eraseDups.map (fun r => { reg := r, fixed := u.fixed && !inSegVariable seg r })

/-! ### Poison: 0x100A -/

/-- The first poisoned word thread `L` reads: register and source thread (18 R434). -/
def Group.poisonRead (g : Group) (u : Use) (L : Nat) : Option (Nat × Nat) :=
  u.srcWords.findSome? (fun w =>
    match g.sourceThread w.2 L with
    | none => none
    | some k => if (g.thread k).poison.getLsbD w.1 then some (w.1, k) else none)

/-- The poisoned-word condition (18 R434). -/
def poisonStop (g : Group) (m : Mask) (u : Use) : Option Stop :=
  let bad := (maskList m).filter (fun L => (g.poisonRead u L).isSome)
  match bad with
  | [] => none
  | L :: _ =>
    match g.poisonRead u L with
    | some (r, k) =>
      some { code := 0x100A, mask := maskOf bad, addr := 0#42 ++ BitVec.ofNat 6 k ++ 0#4 ++ 0#4 ++ BitVec.ofNat 8 r }
    | none => none

/-- The first condition of a list. -/
def firstStop : List (Option Stop) → Option Stop
  | [] => none
  | some x :: _ => some x
  | none :: xs => firstStop xs

end Sys2Proof.Machine
end

