-- ==== Sys2Proof/Machine/Issue.lean ====
section
/-! DEFINITION. The issue of an encoded instruction: operand read, checks in the family's order (18 R435), its effect, and what
issue leaves behind: the segment write set (19 R440), the run-on of a lane condition (18 R430) and parking at a marker (02 R36). -/
namespace Sys2Proof.Machine

/-- A lane condition met while an instruction performed: the condition and the lanes on which its effect is done. -/
structure LaneStop where
  stop : Stop
  done : Mask
deriving DecidableEq, Repr

/-- An encoded instruction as the issue operation sees it. -/
structure Op where
  use : Use
  /-- Carries the switch marker (07 R206). -/
  sw : Bool
  /-- The issue conditions in check order, judged on one group's own threads (12 R347). -/
  checks : State → Issue → Sel → Group → List (Option Stop)
  /-- The instruction ends a run-on before it issues (18 R430; DEDUCED, log 12). -/
  endsRunOn : State → Sel → Group → Bool := fun _ _ _ => false
  /-- A memory or engine instruction: it needs room in its core's reorder checker (05 R179). -/
  mem : Bool := false
  /-- An instruction of the uniform pipeline (08 R245). -/
  uniform : Bool := false
  /-- Produces an entry of a convoy's compare buffer (21 R511). -/
  compared : Bool := false
  /-- What happens in place of the instruction when no condition stops it: it waits, or a debug stop is made first. -/
  instead : State → Issue → Sel → Group → Option State := fun _ _ _ _ => none
  /-- The effect on one group's lanes, and the lane condition it met. -/
  effect : Issue → Sel → ReplayEntry → State → State × Option LaneStop

/-- Bytes of an instruction. -/
def Issue.size (is : Issue) : Word64 := if is.short then 2 else 4

/-- The address after the instruction. -/
def Issue.next (is : Issue) : Word64 := is.pc + is.size

/-! ### Register bank errors (19 R450) -/

/-- A bank error in a word the passes read: its row has an active thread, or it supplies one through the crossbar; a FILLREG is read with the fill (09
R273). -/
def errorRead (g : Group) (u : Use) (m : Mask) (e : RegError) : Bool :=
  match e.reg with
  | .v n => u.srcWords.any (fun w => w.1 == n && (maskList m).any (fun L =>
      if 4 ≤ w.2 then (g.sourceThread w.2 L).any (fun k => k / 16 == e.thread / 16)
      else L / 16 == e.thread / 16 || g.sourceThread w.2 L == some e.thread))
  | .s n => u.ssrc.contains n || (fillReads g u m).contains (.s n)
  | .p n => u.psrc.contains n
  | .k n => u.ksrc.contains n
  | .lnk => u.lnkR

/-- The word's thread is active or supplies an active thread. -/
def errorActive (g : Group) (u : Use) (m : Mask) (e : RegError) : Bool :=
  match e.reg with
  | .v n => u.srcWords.any (fun w => w.1 == n && (maskList m).any (fun L => g.sourceThread w.2 L == some e.thread))
  | _ => true

/-- The record of a bank error: 0x3001, or 0x3002 with the deferred flag when no active thread reads it (19 R450, 17 R419). -/
def bankReport (s : State) (gi : Nat) (g : Group) (active : Bool) (e : RegError) : Report :=
  let r := s.groupReport gi g (if e.corrected then 0x3001 else 0x3002)
    (detail4 e.reg.addr (if e.corrected then 0 else 1) 0 0)
  { r with grp := none, auto := some 6, info := r.info ||| (if e.corrected || active then 0 else 0x100) }

/-- Read one bad word: correct it, or set its poison bit. -/
def Group.bankRead (g : Group) (e : RegError) : Group :=
  let g := { g with flow := { g.flow with regErrors := g.flow.regErrors.erase e } }
  match e.reg with
  | .v n => if e.corrected then g else g.modLanes (oneBit e.thread) (fun _ t => { t with poison := setBit t.poison n true })
  | _ => g

/-- A re-injected entry without flag [2] reads neither a slot nor a register for its captured sources (02 R67). -/
def Issue.readsBank (is : Issue) : Bool := is.replay.all (·.reread)

/-- The reads of the register bank, and whether a word without a poison bit was uncorrectable (19 R451). -/
def bankReads (gi : Nat) (u : Use) (m : Mask) (s : State) : List RegError → State × Bool
  | [] => (s, false)
  | e :: es =>
    match s.group gi with
    | none => (s, false)
    | some g =>
      if errorRead g u m e then
        let s := (s.report (bankReport s gi g (errorActive g u m e) e)).modGroup gi (fun g => g.bankRead e)
        let fatal := !isVec e.reg && !e.corrected
        let r := bankReads gi u m s es
        (r.1, fatal || r.2)
      else bankReads gi u m s es

/-! ### Run-ons (18 R430, R431) -/

/-- Change the run-on of a bundle. -/
def Group.modRunOn (g : Group) (B : Mask) (f : RunOn → RunOn) : Group :=
  { g with flow := { g.flow with runOns := g.flow.runOns.map (fun r => if r.bundle &&& B != 0 then f r else r) } }

/-- The lane condition a run-on waits to report. -/
def RunOn.stop (r : RunOn) : Stop := { code := r.cause, mask := r.lanes, addr := r.addr, rep := r.rep }

/-- An outstanding instruction holds a thread of the bundle. -/
def Group.pendingOn (g : Group) (B : Mask) : Bool := g.flow.outstanding.any (fun o => o.entry.mask &&& B != 0)

/-- The convoy of a group, by the number of its lead. -/
def State.convoyOf (s : State) (gi : Nat) : Option (Nat × Convoy) := s.convoys.find? (fun e => e.2.lead == gi || e.2.rear == gi)

/-- An instruction of the bundle waits in a compare buffer, or at the gate after the buffer has matched it (02 R74, 05 R175). -/
def State.comparing (s : State) (gi : Nat) (B : Mask) : Bool :=
  (match s.convoyOf gi with
    | some (_, c) => (c.lead == gi && c.held.any (fun e => e.bundle &&& B != 0)) || (c.rear == gi && c.rearEntry.any (fun e => e.bundle &&& B != 0))
    | none => false)
    || s.cores.any (fun c => c.2.gate.any (fun h => h.bundle == 0 && h.g == gi && h.mask &&& B != 0))

/-- An instruction that the bundle has issued has not completed (18 R429): a write is outstanding, a store waits for ownership, or a compare buffer holds
it. A store to a peer is not waited for (20 R484). -/
def State.unfinished (s : State) (gi : Nat) (g : Group) (B : Mask) : Bool :=
  g.pendingOn B || s.stores.any (fun e => e.2.g == gi && e.2.mask &&& B != 0) || s.comparing gi B

/-- Every issued instruction of a run-on has completed or stopped (18 R430), and none of its threads waits inside an instruction. -/
def State.runOnDone (s : State) (gi : Nat) (g : Group) (r : RunOn) : Bool :=
  !s.unfinished gi g r.bundle && (g.which (fun t => !t.exited && t.wait != .none && !(t.wait == .gate && t.waitOn == 0))) &&& r.bundle == 0

/-- Take the trap of the oldest stopped instruction with the queue so far (18 R430, R431). When every thread of the bundle has executed `exit` in the
run-on, no thread is left to enter the handler, and the trap is over as 12 R347 ends one; a condition of a numbered route is still recorded. -/
def State.takeRunOn (s : State) (gi : Nat) (r : RunOn) : State :=
  if (s.group gi).any (fun g => r.bundle &&& g.live == 0) && !r.stop.holds then
    s.modGroup gi (fun g => { g with flow := { g.flow with runOns := g.flow.runOns.filter (fun x => x.bundle &&& r.bundle == 0) } })
  else s.takeStop gi r.bundle r.stop r.pc r.queue

/-- A run-on that has ended, and whose instructions have all completed or stopped, traps. -/
def State.settleEnded (s : State) (gi : Nat) : State :=
  match s.group gi with
  | none => s
  | some g =>
    match g.flow.runOns.find? (fun r => r.ended && s.runOnDone gi g r) with
    | none => s
    | some r => s.takeRunOn gi r

/-- End the run-on: nothing more of it issues, and its trap is taken once every issued instruction has completed or stopped. -/
def State.endRunOn (s : State) (gi : Nat) (B : Mask) : State :=
  (s.modGroup gi (fun g => g.modRunOn B (fun r => { r with bundle := r.bundle ||| B, ended := true }))).settleEnded gi

/-- Run-ons whose bundles have merged are one: the condition of the one that began first, and the entries of all of them (02 R32). -/
def joinRunOns : List RunOn → Option RunOn
  | [] => none
  | r :: rs => some (rs.foldl (fun a q => { a with bundle := a.bundle ||| q.bundle, queue := a.queue ++ q.queue, younger := a.younger + 1 + q.younger }) r)

/-- The bundle issues as one: its run-ons join. -/
def Group.mergeRunOns (g : Group) (B : Mask) : Group :=
  let l := g.flow.runOns.filter (fun r => r.bundle &&& B != 0)
  if l.length < 2 then g
  else { g with flow := { g.flow with runOns := (joinRunOns l).toList ++ g.flow.runOns.filter (fun r => r.bundle &&& B == 0) } }

/-- The bundle issues: the run-ons of its threads are one from here on. -/
def State.mergeRunOns (s : State) (gi : Nat) (B : Mask) : State :=
  if (s.group gi).any (fun g => (g.runOn B).isSome) then s.modGroup gi (fun g => g.mergeRunOns B) else s

/-- A younger instruction would change a register an entry re-reads (02 R68). -/
def breaksKeep (r : RunOn) (u : Use) : Bool := r.queue.any (fun e => e.done != e.mask && e.keep.any (fun k => u.writes.contains k))

/-! ### Closing an issue -/

/-- Enter the instruction's writes in the segment write set of its bundle; a marker empties the set (19 R440, R442). -/
def Group.closeSegment (g : Group) (u : Use) (sw : Bool) (B : Mask) : Group :=
  let seg := if sw then [] else addSeg u (g.segSet B).eraseDups
  g.modLanes B (fun _ t => { t with seg := seg })

/-- The threads of a bundle that stand with thread `L`: the bundle it is of once an instruction has split them (02 R32). -/
def Group.beside (g : Group) (B : Mask) (L : Nat) : Mask := maskOf ((maskList B).filter (fun K => (g.thread K).pc == (g.thread L).pc))

/-- Park a bundle at its marker while writes are outstanding, each of the bundles that a branch made of it for those of its own threads (02 R36, 08
R229). -/
def Group.parkAt (g : Group) (B : Mask) : Group :=
  g.modLanes B (fun L t => if g.pendingOn (g.beside B L) then { t with parked := true, parkedWith := g.beside B L } else t)

/-- Park the bundle of an issue. -/
def State.park (s : State) (gi : Nat) (B : Mask) : State := s.modGroup gi (fun g => g.parkAt B)

/-- The live threads of a bundle stand at different addresses. -/
def Group.split (g : Group) (B : Mask) : Bool :=
  match maskList (B &&& g.live) with
  | [] => false
  | L :: Ls => Ls.any (fun K => (g.thread K).pc != (g.thread L).pc)

/-- After an instruction issued in a run-on: it enters the queue as done on every lane but those of a lane condition, and the run-on
ends at the marker, after 23 younger instructions, or where its bundle splits (log 12), or has no live thread left. Threads that merged into the bundle belong to it. The queue of
a run-on that has joined another's ends it when it is full. -/
def State.stepRunOn (s : State) (gi : Nat) (B : Mask) (e : ReplayEntry) (sw : Bool) : State :=
  match s.group gi with
  | none => s
  | some g =>
    match g.runOn B with
    | none => s
    | some r =>
      let s := s.modGroup gi (fun g => g.modRunOn B (fun r => { r with bundle := r.bundle ||| B, queue := r.queue ++ [e], younger := r.younger + 1 }))
      if sw || r.younger + 1 ≥ Config.runOnLimit || r.queue.length + 1 ≥ 24 || g.split B || B &&& g.live == 0 then s.endRunOn gi B else s

/-- A lane condition that joins a run-on has no trap of its own; of a numbered route it is recorded (17 R419), and no disposition is waited for. -/
def State.reportYounger (s : State) (st : Stop) : State :=
  match st.rep with
  | some r => s.report { r with auto := some 6, grp := none }
  | none => s

/-- A lane condition (18 R430): it joins the run-on of an older one, else it starts one. At a re-injected or marked instruction, and while traps are
masked, the run-on ends with it. -/
def State.laneStop (s : State) (is : Issue) (sel : Sel) (e : ReplayEntry) (sw : Bool) (l : LaneStop) : State :=
  match s.group sel.g with
  | none => s
  | some g =>
    let e := { e with done := e.done ||| l.done }
    match g.runOn sel.bundle with
    | some _ => (s.reportYounger l.stop).stepRunOn sel.g sel.bundle e sw
    | none =>
      let r : RunOn := { bundle := sel.bundle, cause := l.stop.code, pc := is.pc, addr := l.stop.addr, lanes := l.stop.mask, rep := l.stop.rep
                         queue := e :: (if is.replay.isSome then g.pendingEntries sel.bundle else []), younger := 0
                         ended := is.replay.isSome || g.trap.tmasked || sw || g.split sel.bundle }
      (s.modGroup sel.g (fun g => { g with flow := { g.flow with runOns := g.flow.runOns ++ [r] } })).settleEnded sel.g

/-- The first marked instruction after a restore clears the restore flag (02 R34). -/
def Group.noteMarker (g : Group) (sw : Bool) : Group := if sw then { g with sched := { g.sched with restore := false } } else g

/-- What issue leaves behind: segment set, marker, run-on or lane condition. -/
def State.closeIssue (s : State) (op : Op) (is : Issue) (sel : Sel) (e : ReplayEntry) (l : Option LaneStop) : State :=
  let s := s.modGroup sel.g (fun g => (g.closeSegment op.use op.sw sel.bundle).noteMarker op.sw)
  let s := if op.sw then s.park sel.g sel.bundle else s
  match l with
  | some l => s.laneStop is sel e op.sw l
  | none => if is.replay.isSome then s else s.stepRunOn sel.g sel.bundle { e with done := e.mask } op.sw

/-- The entry of an instruction stopped at issue. `brk` and `trap` enter as completed on every lane (18 R429). -/
def stoppedEntry (st : Stop) (e : ReplayEntry) : ReplayEntry := if st.code = 0x1006 || st.code = 0x1007 then { e with done := e.mask } else e

/-- The leaf of a bundle that waits for outstanding writes: by the oldest of them (15 R394). -/
def Group.parkedLeaf (g : Group) (m : Mask) : Nat :=
  match g.flow.outstanding.find? (fun o => o.entry.mask &&& m != 0) with
  | some o => (match o.kind with
    | .load => 5
    | .matrix => 6
    | .vector => 8)
  | none => 8

/-- The leaf of a bundle that was turned away: the reason it was given, else that of its outstanding writes. -/
def Group.turnedLeaf (g : Group) (m : Mask) (leaf : Nat) : Nat := if leaf = 8 then g.parkedLeaf m else leaf

/-- A group's share of the issue did not issue: its clock is no issue (15 R394). -/
def State.noteUnissued (s : State) (gi : Nat) : State := { s with unissued := gi :: s.unissued }

/-- A re-injected entry goes back to the head of its queue. -/
def Group.putBack (g : Group) (B : Mask) (e : ReplayEntry) : Group :=
  if g.flow.inject.isEmpty || g.flow.injectMask &&& B != 0 then { g with flow := { g.flow with inject := e :: g.flow.inject, injectMask := B } }
  else { g with flow := { g.flow with reissue := (B, e) :: g.flow.reissue } }

/-- The bundle is turned away: it does not issue, and stays at the instruction until something of its group completes or room is made; a re-injected one
goes back to the head of its queue. `leaf` is what the clocks count in meanwhile. -/
def State.holdBack (s : State) (is : Issue) (sel : Sel) (leaf : Nat := 8) : State :=
  (s.noteUnissued sel.g).modGroup sel.g (fun g =>
    let g := g.modLanes sel.bundle (fun _ t => { t with wait := .gate, waitOn := 0, turnedLeaf := leaf })
    match is.replay with
    | some e => g.putBack sel.bundle e
    | none => g)

/-- An issue condition (18 R429): inside a run-on the run-on's trap is taken, else the instruction's own with the instruction at the
head of the queue, before the entries still to be re-injected. Every older instruction of the bundle completes first, and the instruction's
sources are those it then finds (19 R441). -/
def State.issueStop (s : State) (is : Issue) (sel : Sel) (e : ReplayEntry) (st : Stop) : State :=
  match s.group sel.g with
  | none => s
  | some g =>
    match g.runOn sel.bundle with
    | some _ => (s.noteUnissued sel.g).endRunOn sel.g sel.bundle
    | none =>
      if s.unfinished sel.g g sel.bundle then s.holdBack is sel
      else s.takeStop sel.g sel.bundle st is.pc (stoppedEntry st e :: g.pendingEntries sel.bundle)

/-- A condition found while a bundle waits inside an instruction: inside a run-on the run-on's trap is taken and the instruction leaves its queue, to be
issued again (18 R431); else the condition's own. -/
def State.stopWaiting (s : State) (gi : Nat) (B : Mask) (st : Stop) (pc : Word64) (queue : List ReplayEntry) : State :=
  match s.group gi with
  | none => s
  | some g =>
    match g.runOn B with
    | none => s.takeStop gi B st pc queue
    | some _ =>
      (s.modGroup gi (fun g => (g.modRunOn B (fun r =>
          { r with queue := if (r.queue.getLast?).any (fun e => e.pc == pc) then r.queue.dropLast else r.queue, ended := true })).modLanes B
        (fun _ t => { t with wait := .none, pc := pc }))).settleEnded gi

/-- The threads of an issuing bundle stand at the next instruction; a re-injected instruction does not move them (12 R346). -/
def Group.advance (g : Group) (is : Issue) (sel : Sel) : Group :=
  if is.replay.isSome then g else g.modLanes sel.bundle (fun _ t => { t with pc := is.next })

/-- The conditions that stop the instruction, in order. -/
def Op.stopOf (op : Op) (s : State) (is : Issue) (sel : Sel) (g : Group) : Option Stop := firstStop (op.checks s is sel g)

/-- The instruction is turned away inside a run-on: it ends run-ons, or would change a register an entry re-reads. -/
def Op.leavesRunOn (op : Op) (s : State) (sel : Sel) (g : Group) : Bool :=
  match g.runOn sel.bundle with
  | some r => op.endsRunOn s sel g || breaksKeep r op.use
  | none => false

/-- Where a thread goes on after the instruction: past it when it waits inside it. -/
def Thread.goesOn (t : Thread) (is : Issue) : Word64 := if t.wait != .none && t.pc == is.pc then is.next else t.pc

/-- The entry with the address its bundle goes on at, or the addresses of its threads when the instruction split it. -/
def State.withNext (s : State) (is : Issue) (sel : Sel) (e : ReplayEntry) : ReplayEntry :=
  match is.replay, s.group sel.g with
  | none, some g =>
    { e with next := (g.thread (lowestOf sel.bundle)).goesOn is
             nexts := if g.split sel.bundle then (maskList sel.bundle).map (fun L => (L, (g.thread L).goesOn is)) else [] }
  | _, _ => e

/-- A convoy has no room for the lead's next entry, or no lead's entry for the rear's next one (02 R74, 21 R511). -/
def State.convoyBusy (s : State) (gi : Nat) : Bool :=
  match s.convoyOf gi with
  | none => false
  | some (_, c) => if c.lead = gi then decide (c.slack ≤ c.held.length) else c.held.isEmpty || c.rearEntry.isSome

/-- Registers that an older instruction of the bundle still needs unchanged, because its entry would read them again (02 R68): one whose result is
outstanding (of the vector instructions those whose shadow is still to be compared, 21 R496), a store that waits for ownership, and what a compare
buffer holds or the gate after it. -/
def State.keptRegs (s : State) (gi : Nat) (B : Mask) (g : Group) : List RegRef :=
  (g.flow.outstanding.filter (fun o => o.bundle &&& B != 0 && (o.kind != .vector || o.shadowed))).flatMap (·.entry.keep)
    ++ (s.stores.filter (fun e => e.2.g == gi && e.2.mask &&& B != 0)).flatMap (·.2.keep)
    ++ (match s.convoyOf gi with
        | some (_, c) => ((c.held.filter (fun _ => c.lead == gi)) ++ (c.rearEntry.toList.filter (fun _ => c.rear == gi))).flatMap
            (fun e => if e.bundle &&& B != 0 then e.entry.keep else [])
        | none => [])
    ++ s.cores.flatMap (fun c => (c.2.gate.filter (fun h => h.bundle == 0 && h.g == gi && h.mask &&& B != 0)).flatMap (·.entry.keep))

/-- A younger instruction that would write one of them waits. -/
def Op.awaitsSources (op : Op) (s : State) (sel : Sel) (g : Group) : Bool :=
  let kept := s.keptRegs sel.g sel.bundle g
  op.use.writes.any (fun r => kept.contains r)

/-- The bundle waits for a peer's answer before it issues more than a run-on could (20 R484, 18 R430). -/
def Op.awaitsPeer (op : Op) (s : State) (sel : Sel) (g : Group) : Bool :=
  g.flow.watch.any (fun w => w.2.bundle &&& sel.bundle != 0
    && (op.endsRunOn s sel g || breaksKeep w.2 op.use || decide (Config.runOnLimit ≤ w.2.younger)))

/-- The comparisons that the coherence checker of a core's L1 waits for: its records that the home has not confirmed (05 R167). -/
def State.pendingComparisons (s : State) (core : Nat) : Nat :=
  (s.lines.map (fun e => (e.2.pending.filter (fun c => c.agent == core)).length)).sum

/-- The core's reorder checker, or its L1's coherence checker, is full (05 R179). -/
def State.checkerFull (s : State) (core : Nat) : Bool :=
  decide (512 ≤ (((Tab.get? core s.cores).map (·.events.length)).getD 0)) || decide (1024 ≤ s.pendingComparisons core)

/-- Why the instruction is turned away, as a leaf of 15 R394: a checker is full, the uniform pipeline is dividing (02 R34, 08 R245), an older instruction still needs a
register it writes, it would go past what a peer may still stop, or its convoy has no room. -/
def Op.turnsAway (op : Op) (s : State) (sel : Sel) (g : Group) : Option Nat :=
  if op.mem && s.checkerFull g.place.core then some 5
  else if (op.uniform && s.dividing sel.g g.partIndex) || op.awaitsSources s sel g || op.awaitsPeer s sel g || (op.compared && g.place.paired && s.convoyBusy sel.g) then some 8
  else none

/-- The instruction joins what the bundle issued after its earlier requests to peers, those of outstanding numbers below `n` (20 R484). -/
def Group.noteYounger (g : Group) (B : Mask) (n : Nat) (e : ReplayEntry) : Group :=
  { g with flow := { g.flow with watch := g.flow.watch.map (fun (w : Nat × RunOn) =>
    if w.1 < n && w.2.bundle &&& B != 0 then (w.1, { w.2 with queue := w.2.queue ++ [{ e with done := e.mask }], younger := w.2.younger + 1 }) else w) } }

/-- Run the instruction on one group's lanes once no condition stops it. -/
def State.perform (s : State) (op : Op) (is : Issue) (sel : Sel) (e : ReplayEntry) : State :=
  let n := ((s.group sel.g).map (·.flow.nextId)).getD 0
  let r := op.effect is sel e (s.modGroup sel.g (fun g => g.advance is sel))
  let e := r.1.withNext is sel e
  let s := if is.replay.isSome then r.1 else r.1.modGroup sel.g (fun g => g.noteYounger sel.bundle n e)
  s.closeIssue op is sel e r.2

/-- Issue for one group: bank reads, run-on, checks, effect (18 R428, R429). An entry that is done on every lane only carries its marker. -/
def State.issueOn (op : Op) (is : Issue) (s : State) (sel : Sel) : State :=
  let s := s.mergeRunOns sel.g sel.bundle
  match s.group sel.g with
  | none => s
  | some g =>
    if sel.mask = 0#64 then
      let s := s.modGroup sel.g (fun g => (g.closeSegment op.use op.sw sel.bundle).noteMarker op.sw)
      if op.sw then s.park sel.g sel.bundle else s
    else
      let e := capture is sel g op.use is.next
      let r := bankReads sel.g op.use sel.mask s (if is.readsBank then g.flow.regErrors else [])
      if r.2 then r.1.escalate sel.g sel.bundle 0x3002 is.pc sel.mask 0
      else
        match r.1.group sel.g with
        | none => r.1
        | some g =>
          if op.leavesRunOn r.1 sel g then (r.1.noteUnissued sel.g).endRunOn sel.g sel.bundle
          else
            match op.stopOf r.1 is sel g with
            | some st => r.1.issueStop is sel e st
            | none =>
              match op.turnsAway r.1 sel g with
              | some leaf => r.1.holdBack is sel leaf
              | none =>
                match op.instead r.1 is sel g with
                | some t => t.noteUnissued sel.g
                | none => r.1.perform op is sel e

/-- Issue of an encoded instruction by the issuing bundle: each of the groups of a packed bundle is judged on its own threads
(12 R347). -/
def issue (op : Op) (s : State) : Host.Outcome State Fault Refusal :=
  match s.issue with
  | none => .fault .noIssuingBundle
  | some is => .next { is.sels.foldl (State.issueOn op is) s with issue := none }

/-- Change one group as an effect without lane conditions. -/
def onGroup (f : Group → Group) (sel : Sel) (s : State) : State × Option LaneStop := (s.modGroup sel.g f, none)

/-- The checks shared by most families: operands, hazard, poison (18 R435). Captured sources of a re-injected entry are not read. -/
def stdChecks (u : Use) (is : Issue) (sel : Sel) (g : Group) : List (Option Stop) :=
  [operandStop g sel.mask u, hazardStop g sel.bundle u,
   match is.replay with
   | some e => if e.reread then poisonStop g sel.mask u else none
   | none => poisonStop g sel.mask u]

end Sys2Proof.Machine
end

