-- ==== Sys2Proof/Machine/Waits.lean ====
section
/-! DEFINITION. Waiting threads, threads that exit (08 R233), and extended registers (02 R50, R52, 08 R247). -/
namespace Sys2Proof.Machine

/-- Change one block. -/
def State.modBlk (s : State) (b : Nat) (f : Block → Block) : State := { s with blks := Tab.modify b f s.blks }

/-- End a wait: the thread goes on at `pc`. -/
def Thread.wake (t : Thread) (pc : Word64) : Thread := { t with wait := .none, pc := pc }

/-! ### Waiting threads -/

/-- Threads in a wait. -/
def Group.waiting (g : Group) (w : Wait) : Mask := g.which (fun t => t.wait == w && !t.exited)

/-- The groups of a block. -/
def State.blockGroups (s : State) (b : Nat) : List Nat := (s.groups.filter (fun e => e.2.place.blk == b)).map Prod.fst

/-- Every live thread of a group waits in `bsync`, and the group is on its core. -/
def Group.inBsync (g : Group) : Bool :=
  g.st == .ended || (g.st == .resident && g.waiting .bsync == g.live)

/-! ### exit -/

/-- Threads exit (08 R233): they keep their PC. Those that exit in the handler leave the trapping bundle. -/
def Group.exitThreads (g : Group) (m : Mask) : Group :=
  let g := g.modLanes m (fun _ t => { t with exited := true, wait := .none, parked := false })
  let g := if g.trap.inHandler then { g with trap := { g.trap with bundle := g.trap.bundle &&& ~~~m } } else g
  if g.trap.inHandler && g.trap.bundle &&& g.live == 0#64 then g.abandonTrap else g

/-! ### Extended registers -/

/-- A group that holds rows and registers of its partition (02 R42). -/
def Group.occupies (g : Group) : Bool :=
  match g.st with
  | .placing => true
  | .resident => true
  | .saving _ => true
  | .restoring => true
  | _ => false

/-- Threads of a group on a physical lane (02 R30). -/
def Group.onLane (g : Group) (l : Nat) : Nat :=
  if g.width = 8 then (if (l / 8 == 1) == g.place.upper then 1 else 0) else g.width / 16

/-- The groups that occupy a partition. -/
def State.onPartition (s : State) (k : Nat) : List Group :=
  (s.groups.map Prod.snd).filter (fun g => g.partIndex == k && g.occupies)

/-- Register words in use on a lane (08 R247). -/
def laneWordsUsed (gs : List Group) (l : Nat) : Nat := (gs.map (fun g => (g.place.base + g.regs.xheld) * g.onLane l)).sum

/-- A grant of `n` words per thread fits on every lane the group occupies (08 R247). -/
def State.xregFits (s : State) (g : Group) (n : Nat) : Bool :=
  let gs := s.onPartition g.partIndex
  (List.range 16).all (fun l => g.onLane l == 0 || laneWordsUsed gs l + n * g.onLane l ≤ Config.laneWords)

/-- Clear the registers from `lo` to `hi - 1` of every thread, with their taint and poison. -/
def Group.clearRegs (g : Group) (lo hi : Nat) : Group :=
  g.modLanes (BitVec.allOnes 64) (fun _ t => (wordsOf lo (hi - lo)).foldl (fun t n => t.setV n 0 false false) t)

/-- Grant `n` extended registers: they read as zero with clear taint and poison (08 R247). -/
def Group.grantX (g : Group) (n : Nat) : Group :=
  let h := g.vLimit
  let g := g.clearRegs h (h + n)
  { g with regs := { g.regs with xheld := g.regs.xheld + n } }

/-- Free the extended registers (08 R249). -/
def Group.freeX (g : Group) : Group :=
  let g := g.clearRegs g.place.base g.vLimit
  { g with regs := { g.regs with xheld := 0 } }

/-- Serve the request queue of a partition from its head while the head fits (02 R52, 08 R247). -/
def grantLoop (k : Nat) : Nat → State → State
  | 0, s => s
  | fuel + 1, s =>
    match (s.part k).xqueue with
    | [] => s
    | r :: rest =>
      match s.group r.g with
      | none => grantLoop k fuel (s.modPart k (fun p => { p with xqueue := rest }))
      | some g =>
        if s.xregFits g r.n then
          let s := s.modPart k (fun p => { p with xqueue := rest })
          let s := s.modGroup r.g (fun g => (g.grantX r.n).modLanes (r.bundle &&& g.waiting .xregAcq) (fun _ t => t.wake (t.pc + 4)))
          grantLoop k fuel s
        else s

/-- Serve the request queue of a partition. -/
def State.grantX (s : State) (k : Nat) : State := grantLoop k ((s.part k).xqueue.length) s

end Sys2Proof.Machine
end

