-- ==== Sys2Proof/Machine/Translate.lean ====
section
/-! DEFINITION. Physical memory, the page tables and translation (03 R91, R94-R101, R110-R112, 13 R381). -/
namespace Sys2Proof.Machine

/-! ### Bytes of physical memory -/

/-- The canonical form of memory: addresses strictly rising and no byte listed that equals what an unlisted address reads as. -/
abbrev Memory.wf (m : Assoc 8) : Bool := Assoc.wf m

/-- One byte of physical memory. An unlisted byte reads zero (log 3). -/
def State.byteAt (s : State) (pa : Nat) : Byte := Assoc.get pa s.mem

/-- `n` bytes from `pa`, little-endian (00 R3). -/
def bytesFrom (m : Assoc 8) (pa : Nat) : Nat → Nat
  | 0 => 0
  | n + 1 => (Assoc.get pa m).toNat + 256 * bytesFrom m (pa + 1) n

/-- `m` with `n` bytes of a value stored from `pa`, little-endian. -/
def storeBytes (m : Assoc 8) (pa : Nat) : Nat → Nat → Assoc 8
  | 0, _ => m
  | n + 1, x => storeBytes (Assoc.set pa (BitVec.ofNat 8 x) m) (pa + 1) n (x / 256)

/-- Read `n` bytes of physical memory. -/
def State.readPhys (s : State) (pa n : Nat) : Nat := bytesFrom s.mem pa n

/-- What is kept about the sectors outside `n` bytes from `pa`. -/
def outsideOf {α : Type} (pa n : Nat) (t : Tab α) : Tab α := t.filter (fun e => decide (64 * e.1 + 64 ≤ pa) || decide (pa + n ≤ 64 * e.1))

/-- Write `n` bytes of physical memory. What the checkers kept of the sectors' earlier bytes goes (05 R167). -/
def State.writePhys (s : State) (pa n x : Nat) : State :=
  { s with mem := storeBytes s.mem pa n x, ends := outsideOf pa n s.ends, dramEnds := outsideOf pa n s.dramEnds }

/-- A store is about to write `n` bytes: instruction fetch keeps the bytes before it (04 R146). -/
def State.hideCode (s : State) (pa n : Nat) : State :=
  let l := (List.range n).filterMap (fun i =>
    if s.oldCode.any (fun o => o.epoch == s.epoch && o.pa == pa + i) then none else some { epoch := s.epoch, pa := pa + i, byte := s.byteAt (pa + i) : OldByte })
  { s with oldCode := s.oldCode ++ l }

/-- A write that is no store of a thread is about to reach memory: instruction fetch sees it (log 87). -/
def State.showCode (s : State) (pa n : Nat) : State :=
  { s with oldCode := s.oldCode.filter (fun o => decide (o.pa < pa) || decide (pa + n ≤ o.pa)) }

/-- A byte as the fetches of a group see it, by its `cache.inv` epochs (04 R146). -/
def State.codeByte (s : State) (code : Tab Nat) (pa : Nat) : Byte :=
  match s.oldCode.find? (fun o => o.pa == pa && decide ((Tab.get? (pa / 64) code).getD 0 ≤ o.epoch)) with
  | some o => o.byte
  | none => s.byteAt pa

/-- Every byte of a range reads zero again. -/
def State.clearPhys (s : State) (pa n : Nat) : State :=
  { s with mem := s.mem.filter (fun e => e.1 < pa || pa + n ≤ e.1), ends := outsideOf pa n s.ends, dramEnds := outsideOf pa n s.dramEnds }

/-! ### Pointers (03 R91) -/

/-- The address-form condition holds: bits [62:60] equal bit 63. -/
def pointerForm (p : Word64) : Bool := field 60 3 p == (if bit p 63 then 7#3 else 0#3)

/-- The 57-bit virtual address of a pointer. -/
def virtOf (p : Word64) : Nat := (if bit p 63 then 2 ^ 56 else 0) + (field 0 56 p).toNat

/-- The allocation tag of a pointer. -/
def tagOf (p : Word64) : BitVec 4 := field 56 4 p

/-- The effective pointer of an offset (07 R216): bits [63:56] are kept, the rest wraps modulo 2^56. -/
def effective (p : Word64) (off : BitVec n) (size : Nat) : Word64 :=
  field 56 8 p ++ (field 0 56 p + sext 56 off * BitVec.ofNat 56 size)

/-! ### Page-table entries (03 R97, R98) -/

/-- Valid. -/
def pteValid (e : Word64) : Bool := bit e 0
/-- A leaf: READ, WRITE or EXEC is set. -/
def pteLeaf (e : Word64) : Bool := bit e 1 || bit e 2 || bit e 3
/-- Physical base of the page or next table. -/
def ptePA (e : Word64) : Nat := (field 12 40 e).toNat * 4096
/-- HOME. -/
def pteHome (e : Word64) : BitVec 2 := field 4 2 e
/-- PINCORE. -/
def ptePin (e : Word64) : Nat := (field 56 8 e).toNat
/-- Part of a 64 KiB page. -/
def pteC64 (e : Word64) : Bool := bit e 11

/-- log2 of the page size of a leaf at a level (03 R96, R99). -/
def pageBits (level : Nat) (e : Word64) : Nat :=
  if level = 1 then 30 else if level = 2 then 21 else if pteC64 e then 16 else 12

/-- A physical page that a leaf may name (03 R98, R101): device DRAM; host memory with HOME 0 or 3; a peer window with HOME 3 that does
not name this device (13 R381). -/
def leafTarget (e : Word64) : Bool :=
  let pa := ptePA e
  if regionOf pa = 0 then inDram pa
  else if regionOf pa = 1 then pteHome e == 0 || pteHome e == 3
  else if regionOf pa = 2 then pteHome e == 3 && BitVec.ofNat 8 (pa / 2 ^ 40) != Config.deviceNumber
  else false

/-- A leaf is malformed (03 R98). -/
def leafMalformed (level : Nat) (e : Word64) : Bool :=
  level == 0 || ptePA e % 2 ^ pageBits level e != 0 || (bit e 2 && !bit e 1) || (ptePin e != 0 && pteHome e != 1)
    || (pteC64 e && level != 3) || (decide (192 ≤ ptePin e) && pteHome e == 1) || !leafTarget e

/-- A table pointer is malformed (03 R98). -/
def pointerMalformed (level : Nat) (e : Word64) : Bool :=
  level == 3 || !inDram (ptePA e) || pteC64 e || (ptePin e != 0 && pteHome e != 1) || (decide (192 ≤ ptePin e) && pteHome e == 1)

/-- Kinds of translation fault: the low digit of 0x2001-0x2004 (17 R418). -/
inductive TFault where
  | notMapped | permission | malformed | revoked
deriving DecidableEq, Repr

/-- The code of a translation fault of a thread. -/
def TFault.code : TFault → BitVec 16
  | .notMapped => 0x2001
  | .permission => 0x2002
  | .malformed => 0x2003
  | .revoked => 0x2004

/-- Index bits of a level (03 R96). -/
def levelIndex (level V : Nat) : Nat :=
  if level = 0 then V / 2 ^ 39 % 2 ^ 18 else if level = 1 then V / 2 ^ 30 % 512 else if level = 2 then V / 2 ^ 21 % 512 else V / 2 ^ 12 % 512

/-- The walk from a table of a level (03 R96-R98). -/
def walkFrom (m : Assoc 8) (V : Nat) : Nat → Nat → Nat → Except TFault Leaf
  | 0, _, _ => .error .malformed
  | fuel + 1, level, table =>
    let a := table + 8 * levelIndex level V
    let e := BitVec.ofNat 64 (bytesFrom m a 8)
    if !pteValid e then .error .notMapped
    else if pteLeaf e then (if leafMalformed level e then .error .malformed else .ok { entry := e, level := level, at_ := a })
    else if pointerMalformed level e then .error .malformed
    else walkFrom m V fuel (level + 1) (ptePA e)

/-- The walk of a virtual address in a context. -/
def State.walk (s : State) (ctx V : Nat) : Except TFault Leaf :=
  match s.context ctx with
  | none => .error .notMapped
  | some c => if c.table = 0 then .error .notMapped else walkFrom s.mem V 4 0 c.table

/-- The physical address of a virtual one through a leaf. -/
def Leaf.phys (l : Leaf) (V : Nat) : Nat := ptePA l.entry + V % 2 ^ pageBits l.level l.entry

/-- What an access needs (03 R100). -/
structure Need where
  read : Bool := false
  write : Bool := false
  exec : Bool := false
deriving DecidableEq, Repr

/-- The permission condition of a leaf: REVOKED is reported in preference (03 R100). -/
def Leaf.check (l : Leaf) (n : Need) : Option TFault :=
  if bit l.entry 9 then some .revoked
  else if (n.read && !bit l.entry 1) || (n.write && !bit l.entry 2) || (n.exec && !bit l.entry 3) then some .permission
  else none

/-! ### TLBs (03 R99, R110-R112) -/

/-- The key of a page in a TLB. -/
def tlbKey (ctx V : Nat) : Nat := ctx * 2 ^ 45 + V / 4096

/-- log2 of what a TLB entry of the leaf covers: one of the 16 parts of a 64 KiB page that are not alike stands for itself (03 R99). -/
def Leaf.bits (l : Leaf) : Nat := if l.level = 3 && !l.merged then 12 else pageBits l.level l.entry

/-- The key under which the leaf of a virtual address stands. -/
def Leaf.key (l : Leaf) (ctx V : Nat) : Nat := tlbKey ctx (V / 2 ^ l.bits * 2 ^ l.bits)

/-- The entry of a TLB that covers a virtual address. -/
def tlbFind (t : List (Nat × Leaf)) (ctx V : Nat) : Option Leaf := (t.find? (fun e => e.1 == e.2.key ctx V)).map Prod.snd

/-- An entry but for ACCESSED and DIRTY. -/
def plainEntry (e : Word64) : Word64 := setBit (setBit e 6 false) 7 false

/-- The 16 entries of a 64 KiB page are alike but for ACCESSED and DIRTY: they form one TLB entry (03 R99). -/
def Leaf.widen (l : Leaf) (m : Assoc 8) : Leaf :=
  if l.level = 3 && pteC64 l.entry then
    { l with merged := (List.range 16).all (fun i => plainEntry (BitVec.ofNat 64 (bytesFrom m (l.at_ / 128 * 128 + 8 * i) 8)) == plainEntry l.entry) }
  else l

/-- Where the entry of a virtual address under the leaf stands. -/
def Leaf.place (l : Leaf) (V : Nat) : Nat := if l.merged then l.at_ / 128 * 128 + 8 * (V / 4096 % 16) else l.at_

/-- A die. -/
def State.die (s : State) (d : Nat) : Die := (Tab.get? d s.dies).getD {}

/-- Change one die. -/
def State.modDie (s : State) (d : Nat) (f : Die → Die) : State := { s with dies := Tab.put d (f (s.die d)) s.dies }

/-- A core. -/
def State.coreAt (s : State) (c : Nat) : Core := (Tab.get? c s.cores).getD {}

/-- Change one core. -/
def State.modCore (s : State) (c : Nat) (f : Core → Core) : State := { s with cores := Tab.put c (f (s.coreAt c)) s.cores }

/-- The bits the walker sets in an entry it fills or writes through: ACCESSED, and DIRTY on a write (03 R100). -/
def Leaf.touched (l : Leaf) (write : Bool) : Leaf :=
  { l with entry := setBit (if write then setBit l.entry 7 true else l.entry) 6 true }

/-- ACCESSED and DIRTY in the entry of a virtual address, where it stands in memory (03 R100). -/
def State.touchEntry (s : State) (V : Nat) (l : Leaf) (write : Bool) : State :=
  let stored := BitVec.ofNat 64 (s.readPhys (l.place V) 8)
  let now := setBit (if write then setBit stored 7 true else stored) 6 true
  if now = stored then s else s.writePhys (l.place V) 8 now.toNat

/-- Put an entry at the head of a TLB part of a capacity: of the entries of its slice the oldest goes when there is no room (03 R110). The slice of an entry
is its page number modulo 16 (DESIGN CHOICE, log 33). -/
def sharedPut (key : Nat) (l : Leaf) (t : List (Nat × Leaf)) : List (Nat × Leaf) :=
  let t := (key, l) :: t.filter (fun e => e.1 != key)
  match (t.filter (fun e => e.1 % 16 == key % 16)).drop 1024 with
  | [] => t
  | v :: _ => t.filter (fun e => e.1 != v.1)

/-- Put a leaf into a die's TLB, and its bits into memory (03 R100). -/
def State.fillTlb (s : State) (die ctx V : Nat) (l : Leaf) (write : Bool) : State :=
  (s.modDie die (fun d => { d with tlb := sharedPut (l.key ctx V) (l.touched write) d.tlb })).touchEntry V l write

/-- The L1 TLB holds the 256 pages, of any size, that its core used last (03 R110). -/
def Core.useTlb (c : Core) (ctx V : Nat) (l : Leaf) : Core :=
  { c with l1tlb := ((l.key ctx V, l) :: c.l1tlb.filter (fun e => e.1 != l.key ctx V)).take 256 }

/-- The leaf an access of a die uses: from its TLB, else by a walk (03 R110, R111). -/
def State.leafFor (s : State) (die ctx V : Nat) : Except TFault Leaf :=
  match tlbFind (s.die die).tlb ctx V with
  | some l => .ok l
  | none => (s.walk ctx V).map (fun l => l.widen s.mem)

/-- The leaf an access of a core uses: from its L1 TLB, else as its die has it. -/
def State.leafVia (s : State) (core ctx V : Nat) : Except TFault Leaf :=
  match tlbFind (s.coreAt core).l1tlb ctx V with
  | some l => .ok l
  | none => s.leafFor (dieOfCore core) ctx V

/-- Translate a virtual address for an access from a core (03 R96-R100, R110-R112). -/
def State.translate (s : State) (core ctx V : Nat) (n : Need) : State × Except TFault (Nat × Leaf) :=
  match s.leafVia core ctx V with
  | .error f => (s, .error f)
  | .ok l =>
    match l.check n with
    | some f => (s, .error f)
    | none =>
      let s := if (tlbFind (s.coreAt core).l1tlb ctx V).isSome then s.touchEntry V l n.write else s.fillTlb (dieOfCore core) ctx V l n.write
      (s.modCore core (fun c => c.useTlb ctx V (l.touched n.write)), .ok (l.phys V, l))

end Sys2Proof.Machine
end

