-- ==== Sys2Proof/Machine/Lines.lean ====
section
/-! DEFINITION. Lines at their homes: logical clocks (05 R159-R162), interval records and their signatures (05 R163-R167), and the containment of a line
by a finding of its home (20 R464-R472). Caches hold states only: the bytes of a line stand once, in memory. -/
namespace Sys2Proof.Machine

/-! ### Logical clocks (05 R159, R160) -/

/-- The agents that hold a logical clock. The coherence checkers of the L1s are agents 0-191; those of the slices, the CXL agent, the mailbox engine, the
checkers of the memory controllers, the reduction units, the reorder checkers, the copy channels and the matrix pipelines follow. -/
def sliceAgent (k : Nat) : Nat := 256 + k
def cxlAgent : Nat := 320
def mailboxAgent : Nat := 321
def memoryAgent (k : Nat) : Nat := 384 + k
def reductionAgent (k : Nat) : Nat := 448 + k
def reorderAgent (core : Nat) : Nat := 512 + core
def channelAgent (core ch : Nat) : Nat := 1024 + 8 * core + ch
def matrixAgent (core part : Nat) : Nat := 4096 + 16 * core + part
/-- A peer device, as the agent of its accesses to this module. -/
def peerAgent (dev : Nat) : Nat := 8192 + dev

/-- `a` is later than `b` in serial-number arithmetic (05 R160). -/
def laterTime (a b : BitVec 48) : Bool := (a - b) != 0 && !(bit (a - b) 47)

/-- The logical time of an agent. -/
def State.timeOf (s : State) (a : Nat) : BitVec 48 := Assoc.get a s.logical

/-- Set the logical time of an agent. -/
def State.setTime (s : State) (a : Nat) (t : BitVec 48) : State := { s with logical := Assoc.set a t s.logical }

/-- An agent's own tick. -/
def State.tick (s : State) (a : Nat) : State := s.setTime a (s.timeOf a + 1)

/-- An agent receives a message that carries a time (05 R159). -/
def State.receive (s : State) (b : Nat) (v : BitVec 48) : State :=
  s.setTime b ((if laterTime v (s.timeOf b) then v else s.timeOf b) + 1)

/-- A coherence message from one agent to another (05 R159). -/
def State.message (s : State) (a b : Nat) : State :=
  let s := s.tick a
  s.receive b (s.timeOf a)

/-! ### Lines -/

/-- The line of a physical address (03 R106). -/
def lineOf (pa : Nat) : Nat := pa / 256
/-- The sector, which is also the L1 line (03 R105, R106). -/
def sectorOf (pa : Nat) : Nat := pa / 64
/-- The bit of a sector in its line. -/
def sectorBit (k : Nat) : BitVec 4 := BitVec.ofNat 4 (2 ^ (k % 4))

/-- A line at its home. -/
def State.line (s : State) (ln : Nat) : Line := (Tab.get? ln s.lines).getD {}

/-- Change a line at its home. -/
def State.modLine (s : State) (ln : Nat) (f : Line → Line) : State := { s with lines := Tab.put ln (f (s.line ln)) s.lines }

/-- A sector. -/
def State.sector (s : State) (k : Nat) : Sector := (Tab.get? k s.sectors).getD {}

/-- Change a sector. -/
def State.modSector (s : State) (k : Nat) (f : Sector → Sector) : State := { s with sectors := Tab.put k (f (s.sector k)) s.sectors }

/-- The line's containment (20 R467). -/
def State.containedAt (s : State) (pa : Nat) : Option Containment := (s.line (lineOf pa)).contained

/-- A read of the sector returns poisoned data (17 R423, 20 R468). -/
def State.poisonedAt (s : State) (pa : Nat) : Bool := (s.sector (sectorOf pa)).poison || (s.containedAt pa).isSome

/-- The agent that holds write ownership of a sector (05 R163). -/
def State.sectorOwner (s : State) (k : Nat) : Option Nat := Tab.get? (k % 4) (s.line (k / 4)).owners

/-! ### Interval records (05 R164, R166) -/

/-- One bit of CRC-32C, reflected. -/
def crc32Bits : Nat → BitVec 32 → BitVec 32
  | 0, c => c
  | n + 1, c => crc32Bits n (if bit c 0 then (c >>> 1) ^^^ 0x82F63B78#32 else c >>> 1)

/-- CRC-32C of the `n` bytes from an address. -/
def crc32From (m : Assoc 8) : Nat → Nat → BitVec 32 → BitVec 32
  | 0, _, c => c
  | n + 1, pa, c => crc32From m n (pa + 1) (crc32Bits 8 (c ^^^ zext 32 (Assoc.get pa m)))

/-- CRC-32C of a sector's 64 bytes in address order (05 R164). The start from all ones, the reflected bits and the final inversion are those in which the
Castagnoli polynomial is used elsewhere (PRESUMED, log 84). -/
def sectorHash (m : Assoc 8) (k : Nat) : BitVec 32 := ~~~(crc32From m 64 (64 * k) (BitVec.allOnes 32))

/-- CRC-64 (ECMA-182) of the `n` highest bits still to come. -/
def crc64Bits (x : BitVec 128) : Nat → BitVec 64 → BitVec 64
  | 0, c => c
  | n + 1, c => crc64Bits x n (if bit c 63 != bit x n then (c <<< 1) ^^^ 0x42F0E1EBA9EA3693#64 else c <<< 1)

/-- A record as its 16 bytes (05 R164). -/
def IntervalRecord.image (r : IntervalRecord) : BitVec 128 :=
  r.hash ++ r.interval ++ 0#12 ++ ofBool 1 r.edge ++ r.role ++ r.sect ++ r.line

/-- The bytes of a 128-bit value in address order, the first in the highest place. -/
def byteOrder (x : BitVec 128) : BitVec 128 :=
  (List.range 16).foldl (fun a i => (a <<< 8) ||| zext 128 (field (8 * i) 8 x)) 0

/-- The digest of a record (05 R166): from zero, the record's bytes in address order, each byte's most significant bit first, with no final inversion
(PRESUMED, log 84). -/
def IntervalRecord.digest (r : IntervalRecord) : BitVec 64 := crc64Bits (byteOrder r.image) 128 0

/-- The signature of an agent's records for a home. -/
def signatureKey (agent home : Nat) : Nat := 64 * agent + home

/-- A record enters the signature of its checker (05 R166). -/
def sign (t : Assoc 64) (agent home : Nat) (r : IntervalRecord) : Assoc 64 :=
  Assoc.set (signatureKey agent home) (Assoc.get (signatureKey agent home) t + r.digest) t

/-- The home's signature of an agent's records agrees with the agent's own (05 R166). -/
def State.signatureAgrees (s : State) (agent home : Nat) : Bool :=
  Assoc.get (signatureKey agent home) s.signatures == Assoc.get (signatureKey agent home) s.expected

/-- Emit a record of a sector from an agent's checker, and the home's matching record of the data it handed out or took back; the comparison is pending
until the home confirms it (05 R164-R167). The home keeps two signatures: of its own records, with ROLE 0, and of those it expects of the agent, with the
agent's ROLE (DESIGN CHOICE, log 96). `whole`: the record travels itself, with a recall response or a write-back; any other travels in a signature. -/
def State.emit (s : State) (agent : Nat) (role : BitVec 3) (edge : Bool) (k : Nat) (whole : Bool := false) : State :=
  let ln := k / 4
  let h := homeSliceOf (64 * k)
  let r : IntervalRecord :=
    { hash := sectorHash s.mem k, interval := (s.line ln).interval, edge := edge, role := role, sect := sectorBit k, line := BitVec.ofNat 44 ln }
  let prev := if edge then none else Tab.get? k s.ends
  let s := { s with signatures := sign (sign s.signatures agent h r) (sliceAgent h) h { r with role := 0 }
                    expected := sign s.expected agent h r
                    ends := if edge then Tab.put k r.hash s.ends else s.ends }
  let c : Comparison := { agent := agent, rec_ := r, home := { r with role := 0 }, prev := prev, whole := whole, since := s.clocks }
  let s := s.modLine ln (fun l => { l with pending := l.pending ++ [c] })
  if whole then s else s.push [.intervalRecordArrival ln]

/-- The record of a memory controller's checker (05 R165): a residence of a sector in DRAM begins with the write-back and ends with the next fill. -/
def State.emitDram (s : State) (edge : Bool) (k : Nat) : State :=
  let ln := k / 4
  let h := homeSliceOf (64 * k)
  let r : IntervalRecord :=
    { hash := sectorHash s.mem k, interval := (s.line ln).interval, edge := edge, role := 4, sect := sectorBit k, line := BitVec.ofNat 44 ln }
  let prev := if edge then Tab.get? k s.dramEnds else none
  let s := { s with signatures := sign (sign s.signatures (memoryAgent h) h r) (sliceAgent h) h { r with role := 0 }
                    expected := sign s.expected (memoryAgent h) h r
                    dramEnds := if edge then Tab.del k s.dramEnds else Tab.put k r.hash s.dramEnds }
  let c : Comparison := { agent := memoryAgent h, rec_ := r, home := { r with role := 0 }, prev := prev, whole := false, since := s.clocks }
  let s := if edge then (s.message (sliceAgent h) (memoryAgent h)).message (memoryAgent h) (sliceAgent h) else s
  (s.modLine ln (fun l => { l with pending := l.pending ++ [c] })).push [.intervalRecordArrival ln]

/-- Write ownership of a sector passes to an agent, or is taken back: the interval number advances (05 R163). -/
def State.passOwnership (s : State) (k : Nat) (w : Option Nat) : State :=
  s.modLine (k / 4) (fun l => { l with interval := l.interval + 1, owners := match w with
    | some a => Tab.put (k % 4) a l.owners
    | none => Tab.del (k % 4) l.owners })

/-! ### Containment (20 R464-R472) -/

/-- The 32 detail bytes of a containment record (17 R421). -/
def containmentDetail (ln : Nat) (c : Containment) (role : BitVec 8) (x y : Nat) (time : BitVec 48) (want got : BitVec 32) : BitVec 256 :=
  detail4 (BitVec.ofNat 64 (256 * ln)) (0#6 ++ BitVec.ofNat 5 y ++ BitVec.ofNat 5 x ++ role ++ c.scope ++ c.interval) (zext 64 time) (got ++ want)

/-- The home contains a line (20 R467): copies are recalled, each sector is poisoned, the interval number advances once. The CXL agent holds a contained line of
host memory (20 R473). -/
def State.contain (s : State) (ln : Nat) (code : BitVec 16) (scope : BitVec 8) (kindY : Nat) (injected : Bool) : State :=
  let l := s.line ln
  if l.contained.isSome then s
  else
    let prior := BitVec.ofNat 4 ((List.range 4).foldl (fun a i => a + if (s.sector (4 * ln + i)).poison then 2 ^ i else 0) 0)
    let c : Containment := { code := code, interval := l.interval, scope := scope, prior := prior, kindY := kindY, injected := injected }
    let dram := regionOf (256 * ln) = 0
    let home := if dram then sliceAgent (homeSliceOf (256 * ln)) else cxlAgent
    let holders := (s.cores.filter (fun e => e.2.l1.any (fun x => x.line / 4 == ln))).map Prod.fst
    let s := (holders ++ (l.owners.map Prod.snd).filter (fun a => 192 ≤ a)).foldl (fun s a => (s.message home a).message a home) s
    let s := { s with cores := s.cores.map (fun (e : Nat × Core) => (e.1, { e.2 with l1 := e.2.l1.filter (fun x => x.line / 4 != ln) })) }
    let s := (List.range 4).foldl (fun s i => s.modSector (4 * ln + i) (fun t => { t with poison := true })) s
    let s := if dram then s.modSlice (homeSliceOf (256 * ln)) (fun x => { x with l2 := ln :: x.l2.filter (fun y => y != ln) }) else s
    s.modLine ln (fun l => { l with interval := l.interval + 1, owners := [], pending := [], contained := some c, valid := if dram then 0xF else 0, pinned := false })

/-- Remove a line from the three written-line sets of a core (20 R472). -/
def Core.forget (c : Core) (ln : Nat) : Core :=
  { c with written0 := c.written0.filter (fun x => x.line != ln), written1 := c.written1.filter (fun x => x.line != ln),
           written2 := c.written2.filter (fun x => x.line != ln) }

/-- The group is away from its core (02 R42). -/
def Group.away (g : Group) : Bool := g.st == .saved || g.st == .offCore || g.st == .escalated || g.st == .restoring

/-- The threads of a performed release go on. -/
def State.passGate (s : State) (h : Held) : State :=
  s.modGroup h.g (fun g => g.modLanes (g.which (fun t => (t.wait == .gate || t.wait == .copy) && t.waitOn == h.id)) (fun _ t => { t with wait := .none }))

/-- What a thread waits for; one that was turned away waits for nothing. -/
def Thread.waitsFor (t : Thread) : Wait × Nat := if t.wait == .none || (t.wait == .gate && t.waitOn == 0) then (.none, 0) else (t.wait, t.waitOn)

/-- The bundle of the threads at fault: those that stand where the lowest live one of them does; when none is live, the threads themselves (DEDUCED, log 111). -/
def Group.faultBundle (g : Group) (m : Mask) : Mask :=
  match maskList (m &&& g.live) with
  | [] => m
  | L :: _ => g.which (fun u => !u.exited && u.pc == (g.thread L).pc && u.parked == (g.thread L).parked && u.waitsFor == (g.thread L).waitsFor)

/-- The address of the first instruction of a bundle not yet issued (20 R469); of one that waits in `gbar` that of the `gbar`, which is issued again (DEDUCED,
log 111). -/
def Group.nextPc (g : Group) (B : Mask) : Word64 :=
  let t := g.thread (lowestOf B)
  if t.wait == .gbar then t.pc - 4 else t.pc

/-- The releases of a bundle that wait at the gate of its core. -/
def State.gateOfBundle (s : State) (gi : Nat) (g : Group) (B : Mask) : List Held :=
  (s.coreAt g.place.core).gate.filter (fun h => h.g == gi && h.bundle &&& B != 0)

/-- The bundle goes on at an address after the youngest of the entries (12 R346, log 68). -/
def resumeAt (pc : Word64) (l : List ReplayEntry) : List ReplayEntry :=
  match l.getLast? with
  | none => []
  | some e => l.dropLast ++ [{ e with next := pc, nexts := [] }]

/-- The issued, unfinished instructions of a bundle (20 R469), as a save captures them (19 R452): the queue of its run-on, outstanding instructions, whose accesses
have performed, releases at the gate, and what it has still to issue again. Entries that are done on all their lanes are left out where the queue has no
room (DEDUCED, log 111). -/
def State.unfinishedOf (s : State) (gi : Nat) (g : Group) (B : Mask) : List ReplayEntry :=
  let held := s.gateOfBundle gi g B
  let run := held.foldl (fun q h => unfinish h.entry h.mask q) (((g.runOn B).map (·.queue)).getD [])
  let out := (g.flow.outstanding.filter (fun o => o.bundle &&& B != 0)).map (fun o => { o.entry with done := o.entry.mask })
  let more := (out ++ held.map (fun (h : Held) => { h.entry with done := h.entry.mask &&& ~~~h.mask })).filter (fun e => !run.any (sameIssue e))
  let l := run ++ more ++ g.pendingEntries B
  resumeAt (g.nextPc B) (if l.length ≤ 24 then l else l.filter (fun e => e.done != e.mask))

/-- The bundle leaves what it waits in: its releases leave the gate, its rendezvous and its request end, and its threads stand at the instruction that is to be
issued again. -/
def State.leaveBundle (s : State) (gi : Nat) (g : Group) (B : Mask) : State :=
  let waits := g.which (fun t => t.wait == .gbar || t.wait == .barWait || t.wait == .bsync || t.wait == .uirqWait || t.wait == .xregAcq || t.wait == .mx
    || (t.wait == .gate && t.waitOn != convoyWait))
  let s := (s.modCore g.place.core (fun c => { c with gate := c.gate.filter (fun h => !(h.g == gi && h.bundle &&& B != 0)) })).withdrawArrivals gi B
  let s := s.modPart g.partIndex (fun p => { p with xqueue := p.xqueue.filter (fun r => !(r.g == gi && r.bundle &&& B != 0)) })
  (s.modGroup gi (fun g => g.modLanes (B &&& waits) (fun _ t => { t with wait := .none, pc := if t.wait == .gbar then t.pc - 4 else t.pc }))).grantX g.partIndex

/-- Threads of a mask that have executed `exit` are live again at their own `exit` (20 R469). -/
def State.revive (s : State) (gi : Nat) (g : Group) (m : Mask) : State :=
  s.modGroup gi (fun x => x.modLanes (m &&& ~~~g.live) (fun _ t => { t with exited := false }))

/-- The record of a finding for a group. -/
def Group.findingReport (g : Group) (gi : Nat) (r : Report) : Report := { r with grp := some gi, auto := none, ctx := BitVec.ofNat 16 g.place.ctx }

/-- A finding stops the group of its later event (20 R469): the bundle of the threads at fault leaves what it does, and the group is held. For a group that is away
it waits for the restore (20 R473); a group that is held already stays so under its first condition, and the finding
is only recorded (DESIGN CHOICE, log 113). -/
def State.findingStop (s : State) (gi : Nat) (m : Mask) (code : BitVec 16) (ptr : Word64) (r : Report) : State :=
  match s.group gi with
  | none => s
  | some g =>
    if g.st == .ended then s
    else if g.away then s.modGroup gi (fun g => { g with flow := { g.flow with late := g.flow.late ++ [{ mask := m, code := code, ptr := ptr, rep := r }] } })
    else if g.trap.held then s.report { g.findingReport gi r with grp := none }
    else
      let B := g.faultBundle m
      let st : Stop := { code := code, mask := m &&& (B ||| ~~~g.live), addr := ptr, rep := some (g.findingReport gi r) }
      let s := s.revive gi g m
      if g.trap.tmasked then s.takeStop gi B st (g.nextPc B) []
      else (s.leaveBundle gi g B).takeStop gi B st (g.nextPc B) (s.unfinishedOf gi g B)

/-- The lowest pointer of what a release writes. -/
def Act.pointer : Act → Word64
  | .store l => (l.head?.map (·.ptr)).getD 0
  | .atomic _ _ l => (l.head?.map (·.ptr)).getD 0
  | _ => 0

/-- A release that cannot perform: its group is stopped with the release at the head of the queue (20 R472, R485). In a group that is held already, or away, it is
issued again when that is over (DESIGN CHOICE, log 113). -/
def State.failHeld (s : State) (core : Nat) (h : Held) (code : BitVec 16) (ptr pc : Word64) (r : Report) : State :=
  match s.group h.g with
  | none => s
  | some g =>
    let s := (s.modCore core (fun c => { c with gate := c.gate.filter (fun x => x.id != h.id) })).passGate h
    if g.st == .ended then s
    else if g.away || g.trap.held then
      s.modGroup h.g (fun g => { g with flow := { g.flow with reissue := (h.bundle, { h.entry with done := h.entry.mask &&& ~~~h.mask }) :: g.flow.reissue } })
    else
      let B := if h.bundle = 0 then g.faultBundle h.mask else h.bundle
      (s.revive h.g g h.mask).takeStop h.g B { code := code, mask := h.mask, addr := ptr, rep := some (g.findingReport h.g r) } pc
        (h.entry :: g.pendingEntries B)

/-- The virtual pointer of a release's own access to a line that it closes: that of its lowest thread's event there (20 R469), else what the release writes. -/
def State.closePointer (s : State) (core : Nat) (h : Held) (ln : Nat) : Word64 :=
  let c := s.coreAt core
  let own := (c.events ++ c.verified).filter (fun e => e.line == some ln && e.g == h.g && e.mask &&& h.mask != 0)
  (own.head?.map (·.ptr)).getD h.act.pointer

/-- The close of a contained line fails: the release that waits for it is stopped under R469 (20 R472). For a finding of another context the release only leaves
the line and goes on (20 R473: it stops no group of another context; DEDUCED, log 111). -/
def State.failClose (s : State) (core : Nat) (h : Held) (ln : Nat) (c : Containment) : State :=
  match s.group h.g with
  | none => s
  | some g =>
    if c.ctx.any (fun k => k != g.place.ctx) then
      s.modCore core (fun c => { c with gate := c.gate.map (fun x => if x.id = h.id then { x with lines := x.lines.filter (fun y => y != ln) } else x) })
    else
      let B := if h.bundle = 0 then g.faultBundle h.mask else h.bundle
      s.failHeld core h c.code (s.closePointer core h ln) (g.nextPc B)
        { code := c.code, path := corePath core 8 0, slice := s.homeSlice g.place.ctx, info := BitVec.ofNat 16 g.place.gidx ||| (if c.injected then 0x200 else 0),
          detail := containmentDetail ln c 0xFF 0 (if c.ctx.isSome then h.kind else 0) 0 0 0 }

/-- The releases of a core whose close of a contained line fails (20 R464, R472). -/
def State.failCloses (s : State) (core ln : Nat) (c : Containment) : State :=
  (s.coreAt core).gate.foldl (fun s h => if h.lines.contains ln then s.failClose core h ln c else s) s

/-- Every release that closes the line is stopped (20 R464, R472). -/
def State.stopClosers (s : State) (ln : Nat) (c : Containment) : State :=
  s.cores.foldl (fun s e => s.failCloses e.1 ln c) s

/-- A finding of the home's coherence checker (20 R464): the line is contained, and every release that closes it is stopped. -/
def State.coherenceFinding (s : State) (ln : Nat) (code : BitVec 16) (role : BitVec 8) (want got : BitVec 32) : State :=
  let sl := homeSliceOf (256 * ln)
  let iv := (s.line ln).interval
  let cont : Containment := { code := code, interval := iv, scope := 0, prior := 0, kindY := 0, injected := false }
  let r : Report := { code := code, path := diePath (sl / 16) 9 (sl % 16), slice := sl,
                      detail := containmentDetail ln cont role 0 0 (s.timeOf (sliceAgent sl)) want got }
  (((s.report r).contain ln code 0 0 false).modLine ln (fun l => { l with pending := [] })).stopClosers ln cont

/-- A record of an agent that writes (05 R167). -/
def Comparison.writes (c : Comparison) : Bool := c.rec_.role == 1 || c.rec_.role == 3 || c.rec_.role == 5 || c.rec_.role == 6

/-- A writer of the interval that has been confirmed already, of a sector of the record (05 R167). -/
def Line.secondWriter (l : Line) (a : Comparison) : Bool :=
  l.writers.any (fun w => w.1 != a.agent && w.2.1 == a.rec_.interval && w.2.2 &&& a.rec_.sect != 0)

/-- What is wrong with a line's pending comparisons, first of all: two writers of a sector in one interval; a record that differs from the home's, seen in the record
itself or in the signature it travels in; a start of an interval that differs from the end of the one before (05 R167). -/
def Line.disagreement (l : Line) (agrees : Nat → Bool) : Option (BitVec 16 × Comparison) :=
  match l.pending.find? (fun a => a.writes && (l.secondWriter a || l.pending.any (fun b => b.writes && a.rec_.interval == b.rec_.interval
      && a.agent != b.agent && a.rec_.sect &&& b.rec_.sect != 0))) with
  | some c => some (0x4901, c)
  | none =>
    (l.pending.find? (fun c => ((c.whole || !agrees c.agent) && c.rec_.hash != c.home.hash) || c.prev.any (fun h => h != c.rec_.hash))).map
      (fun c => (0x4902, c))

/-- The line's comparisons are confirmed; the writers of its interval stay known. -/
def Line.confirm (l : Line) : Line :=
  { l with pending := []
           writers := ((l.writers ++ (l.pending.filter Comparison.writes).map (fun c => (c.agent, c.rec_.interval, c.rec_.sect))).filter
             (fun w => w.2.1 == l.interval)).eraseDups }

/-- The home takes the records that have reached it: it confirms the interval, or finds a violation (05 R167, 20 R464). -/
def State.confirmLine (s : State) (ln : Nat) : State :=
  if (s.line ln).pending.isEmpty then s
  else
    match (s.line ln).disagreement (fun a => s.signatureAgrees a (homeSliceOf (256 * ln))) with
    | some (code, c) => s.coherenceFinding ln code (zext 8 c.rec_.role) (c.prev.getD c.home.hash) c.rec_.hash
    | none => s.modLine ln Line.confirm

/-- Each agent sends the signature of its records of a line (05 R166). -/
def State.sendSignatures (s : State) (ln : Nat) : State :=
  ((((s.line ln).pending.filter (fun c => !c.whole)).map (·.agent)).eraseDups).foldl (fun s a => s.message a (sliceAgent (homeSliceOf (256 * ln)))) s

/-- The L1s whose records of a line are pending. -/
def State.waitingCores (s : State) (ln : Nat) : List Nat := (((s.line ln).pending.map (·.agent)).filter (fun a => a < 192)).eraseDups

/-- Threads turned away for want of room issue again. -/
def State.retryCore (s : State) (core : Nat) : State :=
  { s with groups := s.groups.map (fun e =>
      if e.2.place.core = core then
        (e.1, e.2.modLanes (e.2.which (fun t => t.wait == .gate && t.waitOn == 0)) (fun _ t => { t with wait := .none }))
      else e) }

/-- A record or a signature reaches the home (05 R167); the checkers of the cores whose comparisons end have room again (05 R179). -/
def execIntervalRecordArrival (line : Nat) (s : State) : Host.Outcome State Fault Refusal :=
  .next ((s.waitingCores line).foldl State.retryCore ((s.sendSignatures line).confirmLine line))

/-- Arithmetic clocks in the 1,000,000 fabric clocks of a coherence checker's timeout (01 R16, 20 R464). -/
def checkerTimeout : Nat := 850000

/-- A comparison that has been pending for 1 ms (20 R464). -/
def State.overdue (s : State) (ln : Nat) : Option Comparison := (s.line ln).pending.find? (fun c => decide (c.since + checkerTimeout ≤ s.clocks))

/-- A comparison still pending 1 ms after its record was emitted (20 R464). -/
def execCoherenceCheckerTimeout (line : Nat) (s : State) : Host.Outcome State Fault Refusal :=
  match s.overdue line with
  | none => .next s
  | some c => .next (s.coherenceFinding line 0x4903 (zext 8 c.rec_.role) c.home.hash c.rec_.hash)

end Sys2Proof.Machine
end

