-- ==== Sys2Proof/Machine/Coherence.lean ====
section
/-! DEFINITION. The caches and the directory: L1 lines and L2 banks (03 R101-R109), agents that write without an L1 (R108), where an access performs and its
stamp (05 R161, R162). Caches hold states only: the bytes of a line stand once, in memory. -/
namespace Sys2Proof.Machine

/-! ### L1 lines (03 R105) -/

/-- An L1 line of a core. -/
def Core.l1Line (c : Core) (k : Nat) : Option L1Line := c.l1.find? (fun l => l.line == k)

/-- The core's L1 holds the sector with write permission (03 R105). -/
def State.ownsSector (s : State) (core k : Nat) : Bool :=
  match (s.coreAt core).l1Line k with
  | some l => l.st == .m || l.st == .e
  | none => false

/-- The core's L1 holds the sector. -/
def State.holdsSector (s : State) (core k : Nat) : Bool := ((s.coreAt core).l1Line k).isSome

/-- The cores whose L1 holds a sector. -/
def State.holders (s : State) (k : Nat) : List Nat := (s.cores.filter (fun e => (e.2.l1Line k).isSome)).map Prod.fst

/-- The core whose L1 holds the sector pinned (03 R102). -/
def State.pinHolder (s : State) (k : Nat) : Option Nat :=
  (s.cores.find? (fun e => ((e.2.l1Line k).map (·.pinned)).getD false)).map Prod.fst

/-- A line is held pinned by some L1. -/
def State.linePinned (s : State) (ln : Nat) : Bool := s.cores.any (fun e => e.2.l1.any (fun l => l.pinned && l.line / 4 == ln))

/-- The home's agent of a sector. -/
def homeAgent (k : Nat) : Nat := sliceAgent (homeSliceOf (64 * k))

/-- An agent's write ownership of a sector ends with its end record, which the home compares (05 R163, R164, R167). -/
def State.endOwnership (s : State) (agent : Nat) (role : BitVec 3) (k : Nat) : State :=
  if s.sectorOwner k = some agent then ((s.emit agent role true k true).passOwnership k none).confirmLine (k / 4) else s

/-- The L2's copy of a sector takes dirty data. -/
def State.dirtyL2 (s : State) (k : Nat) : State := s.modLine (k / 4) (fun x => { x with valid := x.valid ||| sectorBit k, dirty := x.dirty ||| sectorBit k })

/-- Remove a sector from an L1 (03 R107). A dirty copy is written back, and the writer's end record goes with the response (05 R166). -/
def State.dropL1 (s : State) (core k : Nat) : State :=
  match (s.coreAt core).l1Line k with
  | none => s
  | some l =>
    let s := s.modCore core (fun c => { c with l1 := c.l1.filter (fun x => x.line != k) })
    let s := s.message core (homeAgent k)
    let s := if l.st == .m || l.st == .o then s.dirtyL2 k else s
    s.endOwnership core 1 k

/-- Downgrade one holder to a shared state: M to O, E to S; its write ownership ends, and it begins the new interval as a reader (05 R164). -/
def State.downgradeL1 (s : State) (core k : Nat) : State :=
  let s := s.message core (homeAgent k)
  let owned := s.sectorOwner k = some core
  let s := s.modCore core (fun x => { x with l1 := x.l1.map (fun l =>
    if l.line = k then { l with st := if l.st == .m || l.st == .o then .o else .s } else l) })
  let s := s.endOwnership core 1 k
  if owned && (s.containedAt (64 * k)).isNone then s.emit core 2 false k else s

/-! ### The directory (03 R106) -/

/-- The role of an agent's records (05 R164). -/
def recordRole (agent : Nat) : BitVec 3 := if agent < 192 then 1 else if agent = cxlAgent then 5 else if 8192 ≤ agent then 6 else 3

/-- The L1s to which the directory sends a recall of a sector: its holders, or every L1 of the clusters it has marked. -/
def State.recallTargets (s : State) (k : Nat) : List Nat :=
  match Tab.get? (k % 4) (s.line (k / 4)).marks with
  | none => s.holders k
  | some m => ((List.range 48).filter (fun q => m.getLsbD q)).flatMap (fun q => (List.range 4).map (fun i => 4 * q + i))

/-- An agent that is no core gives its write ownership back. -/
def State.takeBack (s : State) (k : Nat) : State :=
  match s.sectorOwner k with
  | some a => if a < 192 then s else ((s.message (homeAgent k) a).message a (homeAgent k)).endOwnership a (recordRole a) k
  | none => s

/-- The home recalls a sector from every L1 but one, and from any other agent (03 R106). -/
def State.recall (s : State) (k : Nat) (keep : Option Nat) : State :=
  let s := (s.recallTargets k).foldl (fun s c =>
    if keep = some c then s
    else
      let s := s.message (homeAgent k) c
      if s.holdsSector c k then s.dropL1 c k else s.message c (homeAgent k)) s
  (s.modLine (k / 4) (fun l => { l with marks := Tab.del (k % 4) l.marks })).takeBack k

/-- The home takes write ownership of a sector back and leaves shared copies. -/
def State.shareOut (s : State) (core k : Nat) : State :=
  ((s.holders k).foldl (fun s c => if c = core then s else (s.message (homeAgent k) c).downgradeL1 c k) s).takeBack k

/-- More than eight holders are tracked as the clusters they lie in; the marks stand until the sector is recalled. -/
def State.markHolders (s : State) (k : Nat) : State :=
  let hs := s.holders k
  let old := Tab.get? (k % 4) (s.line (k / 4)).marks
  if old.isNone && hs.length ≤ 8 then s
  else
    let m := hs.foldl (fun (m : BitVec 48) c => m ||| BitVec.ofNat 48 (2 ^ (c / 4))) (old.getD 0)
    s.modLine (k / 4) (fun l => { l with marks := Tab.put (k % 4) m l.marks })

/-! ### The L2 banks (01 R14, 03 R103, R107) -/

/-- The set of a line in its bank of 1,024 sets: its low bits (DESIGN CHOICE, log 33). -/
def l2Set (ln : Nat) : Nat := ln % 1024

/-- The lines of a set, most recently used first. -/
def Slice.ways (x : Slice) (ln : Nat) : List Nat := x.l2.filter (fun y => l2Set y == l2Set ln)

/-- The bank of a line. -/
def State.bank (s : State) (ln : Nat) : Slice := (Tab.get? (homeSliceOf (256 * ln)) s.slices).getD {}

/-- An engine owns the sector until it has finished writing it: other accesses wait (03 R108). -/
def isEngine (a : Nat) : Bool := (decide (448 ≤ a) && decide (a < 512)) || (decide (1024 ≤ a) && decide (a < 8192))

/-- A sector that an engine owns. -/
def State.engineOwns (s : State) (k : Nat) : Bool := (s.sectorOwner k).any isEngine

/-- A line that the L2 does not evict: contained (20 R467), L2-pinned, held pinned by an L1 (03 R101), or owned by an engine (R108). -/
def State.keepsLine (s : State) (ln : Nat) : Bool :=
  (s.line ln).contained.isSome || (s.line ln).pinned || s.linePinned ln || (List.range 4).any (fun i => s.engineOwns (4 * ln + i))

/-- Write a dirty sector of the L2 back to DRAM with a fresh check word (20 R474), under the memory controller's record (05 R165). -/
def State.writeBackL2 (s : State) (k : Nat) : State :=
  if (s.line (k / 4)).dirty &&& sectorBit k != 0 then
    ((s.message (homeAgent k) (memoryAgent (homeSliceOf (64 * k)))).emitDram false k).modLine (k / 4) (fun x => { x with dirty := x.dirty &&& ~~~(sectorBit k) })
      |>.modSector k (fun t => { t with ecc := none })
  else s

/-- The L2 evicts a line: every L1 copy is invalidated, and the dirty sectors go to DRAM (03 R107). -/
def State.evictL2 (s : State) (ln : Nat) : State :=
  if s.keepsLine ln then s
  else
    let s := (List.range 4).foldl (fun s i => s.recall (4 * ln + i) none) s
    let s := (List.range 4).foldl (fun s i => s.writeBackL2 (4 * ln + i)) s
    (s.modLine ln (fun l => { l with valid := 0, dirty := 0, l2err := [] })).modSlice (homeSliceOf (256 * ln)) (fun x => { x with l2 := x.l2.filter (fun y => y != ln) })

/-- Room for a line in its set: the least recently used line that may go is evicted. None when every way is kept. -/
def State.roomInL2 (s : State) (ln : Nat) : Option State :=
  let sl := s.bank ln
  if sl.l2.contains ln || (sl.ways ln).length < 16 then some s
  else ((sl.ways ln).reverse.find? (fun y => !s.keepsLine y)).map s.evictL2

/-- Count an access to a line that could not be pinned in its bank (03 R103). -/
def State.countOverflow (s : State) (ln : Nat) : State := s.modSlice (homeSliceOf (256 * ln)) (fun x => { x with pinOverflow := x.pinOverflow + 1 })

/-- At most eight ways of a set hold L2-pinned lines; a contained line does not count (03 R103, 20 R467). -/
def State.pinFits (s : State) (ln : Nat) : Bool :=
  (s.line ln).pinned || decide ((((s.bank ln).ways ln).filter (fun y => (s.line y).pinned)).length < 8)

/-- The home's L2 holds the sector, as its most recently used line; a miss reads DRAM, which ends the sector's residence there (05 R165). The answer is false
when the line could not be allocated or pinned: the access performs as never cached (03 R103). -/
def State.allocL2 (s : State) (k : Nat) (pin : Bool) : State × Bool :=
  let ln := k / 4
  if pin && !s.pinFits ln then (s.countOverflow ln, false)
  else
    match s.roomInL2 ln with
    | none => (if pin then s.countOverflow ln else s, false)
    | some s =>
      let s := if (s.line ln).valid &&& sectorBit k = 0 && (Tab.get? k s.dramEnds).isSome then s.emitDram true k else s
      ((s.modSlice (homeSliceOf (256 * ln)) (fun x => { x with l2 := ln :: x.l2.filter (fun y => y != ln) })).modLine ln (fun l =>
        { l with valid := l.valid ||| sectorBit k, pinned := l.pinned || pin }), true)

/-! ### Filling an L1 (03 R102, R103, R105) -/

/-- The set of an L1 line (03 R105): 256 sets. -/
def l1Set (k : Nat) : Nat := k % 256

/-- The line a full set evicts: the least recently used one that is not pinned (03 R105). -/
def Core.victim (c : Core) (k : Nat) : Option Nat :=
  let set := c.l1.filter (fun l => l1Set l.line == l1Set k)
  if set.length < 8 then none else (set.reverse.find? (fun l => !l.pinned)).map (·.line)

/-- Put a sector into an L1 as its most recently used line, after making room. -/
def State.fillL1 (s : State) (core k : Nat) (st : LineState) (pinned : Bool) : State :=
  let old := ((s.coreAt core).l1Line k).isSome
  let s := if old then s else
    match (s.coreAt core).victim k with
    | some v => s.dropL1 core v
    | none => s
  (s.modCore core (fun c => { c with l1 := { line := k, st := st, pinned := pinned } :: c.l1.filter (fun l => l.line != k) })).markHolders k

/-- The core takes write ownership of a sector: other copies are recalled, the interval advances, and the start record is emitted. False when the sector
cannot be held, or a recalled record showed the line wrong: the access performs at the home. -/
def State.ownSector (s : State) (core k : Nat) (pinned : Bool) (l2pin : Bool := false) : State × Bool :=
  match s.allocL2 k l2pin with
  | (s, false) => (s, false)
  | (s, true) =>
    let s := (s.message core (homeAgent k)).recall k (some core)
    if (s.line (k / 4)).contained.isSome then (s, false)
    else
      let old := s.sectorOwner k = some core
      let s := if old then s else s.passOwnership k (some core)
      let s := (s.fillL1 core k .m pinned).message (homeAgent k) core
      (if old then s else s.emit core 1 false k, true)

/-- The core takes a copy of a sector: E when no other L1 holds it, else S (03 R105). A copy in E carries write ownership. -/
def State.shareSector (s : State) (core k : Nat) (l2pin : Bool := false) : State × Bool :=
  match s.allocL2 k l2pin with
  | (s, false) => (s, false)
  | (s, true) =>
    let s := (s.message core (homeAgent k)).shareOut core k
    if (s.line (k / 4)).contained.isSome then (s, false)
    else
      let alone := (s.holders k).isEmpty
      let s := if alone then s.passOwnership k (some core) else s
      (((s.fillL1 core k (if alone then .e else .s) false).message (homeAgent k) core).emit core (if alone then 1 else 2) false k, true)

/-- Pinned L1 lines of a set (03 R102): at most four. -/
def Core.pinnedIn (c : Core) (k : Nat) : Nat := (c.l1.filter (fun l => l.pinned && l1Set l.line == l1Set k)).length

/-- The L1 of core PINCORE holds a pinned sector; an access to one that cannot be pinned is counted and performs as never cached (03 R103). -/
def State.pinSector (s : State) (pin k : Nat) : State × Bool :=
  if (((s.coreAt pin).l1Line k).map (·.pinned)).getD false then (s, true)
  else
    let r := if (s.coreAt pin).pinnedIn k < 4 then s.ownSector pin k true else (s, false)
    if r.2 then r else (r.1.modCore pin (fun c => { c with pinOverflow := c.pinOverflow + 1 }), false)

/-! ### Agents without an L1 (03 R102, R108, 01 R22) -/

/-- The home gives an agent the exclusive ownership of a sector that it is about to write (03 R108). A contained line is given to nobody (20 R468). -/
def State.grantAgent (s : State) (agent k : Nat) : State :=
  let s := (s.recall k none).message agent (homeAgent k)
  let s := s.message (homeAgent k) agent
  if (s.line (k / 4)).contained.isSome then s else (s.passOwnership k (some agent)).emit agent (recordRole agent) false k

/-! ### Where an access performs (05 R162, 03 R102-R104, 04 R147) -/

/-- The place an access performs at. -/
inductive Site where
  | own                 -- the L1 of the issuing core
  | home                -- the home slice
  | pinned (c : Nat)    -- the L1 of core PINCORE
  | cxl
  | peer
deriving DecidableEq, Repr

/-- A perform stamp (05 R161). -/
def stampOf (level home : Nat) (interval : BitVec 32) (time : BitVec 48) : BitVec 96 :=
  0#8 ++ BitVec.ofNat 2 level ++ BitVec.ofNat 6 home ++ interval ++ time

/-- The LEVEL of a stamp. -/
def stampLevel (x : BitVec 96) : Nat := (field 86 2 x).toNat
/-- The INTERVAL of a stamp. -/
def stampInterval (x : BitVec 96) : BitVec 32 := field 48 32 x
/-- The TIME of a stamp. -/
def stampTime (x : BitVec 96) : BitVec 48 := field 0 48 x

/-- The place of an access that no L1 serves: the home slice, or for host memory the CXL agent (13 R354). -/
def homeSite (pa : Nat) : Site := if regionOf pa = 1 then .cxl else .home

/-- The stamp of an access, with the messages it sends. What a peer reports of its line and of its time is free, but for their order: each of its answers is
later than what it was asked with (05 R159). -/
def State.stampAt (s : State) (core pa : Nat) (site : Site) : State × BitVec 96 :=
  let iv := (s.line (lineOf pa)).interval
  let h := homeSliceOf pa
  match site with
  | .own =>
    let s := s.tick core
    (s, stampOf 0 (core % 64) iv (s.timeOf core))
  | .home =>
    let s := s.message core (sliceAgent h)
    (s.message (sliceAgent h) core, stampOf 1 h iv (s.timeOf (sliceAgent h)))
  | .pinned c =>
    if c = core then
      let s := s.tick core
      (s, stampOf 0 (core % 64) iv (s.timeOf core))
    else
      let s := (s.message core (sliceAgent h)).message (sliceAgent h) c
      (s.message c core, stampOf 1 h iv (s.timeOf c))
  | .cxl =>
    let s := s.message core cxlAgent
    (s.message cxlAgent core, stampOf 2 h iv (s.timeOf cxlAgent))
  | .peer =>
    let a := peerAgent (pa / 2 ^ 40 % 256)
    let s := s.message core a
    let s := { s with free := s.free + 1 }
    let s := s.setTime a (s.timeOf a + zext 48 (field 0 16 (Config.freeWord (s.free - 1))))
    let s := s.modLine (lineOf pa) (fun l => { l with interval := l.interval + zext 32 (field 16 16 (Config.freeWord (s.free - 1))) })
    (s.message a core, stampOf 3 h (s.line (lineOf pa)).interval (s.timeOf a))

/-! ### The accesses of those agents -/

/-- The agent has finished writing the sector: the home takes it back, dirty in its L2 when that holds the sector, else in memory. -/
def State.returnAgent (s : State) (agent k : Nat) : State :=
  let s := (s.message agent (homeAgent k)).endOwnership agent (recordRole agent) k
  if (s.line (k / 4)).valid &&& sectorBit k = 0 then s else s.dirtyL2 k

/-- The home's L2 takes a sector that an agent is about to access, but for a never-cached page, a line that could not be pinned and a contained one
(03 R101, R103). -/
def State.agentFill (s : State) (pa : Nat) (home : BitVec 2) : State :=
  if (home = 0 || home = 2) && (s.containedAt pa).isNone then (s.allocL2 (sectorOf pa) (home == 2)).1 else s

/-- The site of an agent's access: the L1 that pins the sector, to which the home forwards it (03 R102), the CXL agent for host memory that is never cached
(R104), else the home. -/
def State.agentSite (s : State) (pa : Nat) (home : BitVec 2) (pin : Nat) : State × Site :=
  let s := if home = 1 && (s.containedAt pa).isNone then (s.pinSector pin (sectorOf pa)).1 else s
  match s.pinHolder (sectorOf pa) with
  | some c => (s, .pinned c)
  | none => (s.agentFill pa home, if home = 3 then homeSite pa else .home)

/-- An agent's access performs and its stamp returns (05 R161, R162). -/
def State.agentStamp (s : State) (agent pa : Nat) (site : Site) : State :=
  let r := s.stampAt agent pa site
  { r.1 with agentStamps := Assoc.set agent r.2 r.1.agentStamps }

/-- The agent holds the sector to write it. -/
def State.agentTakes (s : State) (agent pa : Nat) (home : BitVec 2) (pin : Nat) : State × Site :=
  let r := s.agentSite pa home pin
  match r.2 with
  | .pinned _ => r
  | _ => (if r.1.sectorOwner (sectorOf pa) = some agent then r.1 else r.1.grantAgent agent (sectorOf pa), r.2)

/-- A write of an agent without an L1 performs: in the L1 that pins the sector, else at the home, of which the agent owns the sector meanwhile (03 R108). -/
def State.agentWrite (s : State) (agent pa : Nat) (home : BitVec 2) (pin : Nat) (write : State → State) : State :=
  let r := s.agentTakes agent pa home pin
  let s := (write r.1).agentStamp agent pa r.2
  match r.2 with
  | .pinned _ => s
  | _ => s.returnAgent agent (sectorOf pa)

/-- A write for which the agent keeps the sector until it gives it back. -/
def State.agentKeeps (s : State) (agent pa : Nat) (home : BitVec 2) (pin : Nat) (write : State → State) : State :=
  let r := s.agentTakes agent pa home pin
  (write r.1).agentStamp agent pa r.2

/-- A read of an agent without an L1: another holder's write ownership ends, and the agent's checker records the read (05 R164). -/
def State.agentRead (s : State) (agent pa : Nat) (home : BitVec 2) (pin : Nat) : State :=
  let k := sectorOf pa
  let r := s.agentSite pa home pin
  match r.2 with
  | .pinned _ => r.1.agentStamp agent pa r.2
  | _ =>
    let s := (r.1.shareOut 192 k).agentStamp agent pa r.2
    if (s.line (k / 4)).contained.isSome then s else s.emit agent 2 false k

/-- An L1 line becomes the most recently used. -/
def Core.useLine (c : Core) (k : Nat) (f : L1Line → L1Line) : Core :=
  match c.l1Line k with
  | some l => { c with l1 := f l :: c.l1.filter (fun x => x.line != k) }
  | none => c

/-- The site of a load: contained lines and never-cached pages at the home. A missed line is fetched from the home first. -/
def State.loadSite (s : State) (core pa : Nat) (home : BitVec 2) (pin : Nat) : State × Site :=
  let k := sectorOf pa
  if regionOf pa = 2 then (s, .peer)
  else if (s.containedAt pa).isSome || home == 3 then (s, homeSite pa)
  else if home == 1 then
    let r := s.pinSector pin k
    (r.1, if r.2 then .pinned pin else .home)
  else if s.holdsSector core k then (s.modCore core (fun c => c.useLine k (fun l => l)), .own)
  else ((s.shareSector core k (home == 2)).1, homeSite pa)

/-- The site of a store, and whether it waits for write ownership first (10 R280). -/
def State.storeSite (s : State) (core pa : Nat) (home : BitVec 2) (pin : Nat) : State × Site × Bool :=
  let k := sectorOf pa
  if regionOf pa = 2 then (s, .peer, false)
  else if (s.containedAt pa).isSome || home == 3 then (s, homeSite pa, false)
  else if home == 1 then
    let r := s.pinSector pin k
    (r.1, if r.2 then .pinned pin else .home, false)
  else if s.ownsSector core k then (s.modCore core (fun c => c.useLine k (fun l => { l with st := .m })), .own, false)
  else (s, homeSite pa, true)

/-- The site of an atomic (04 R147): the home, the L1 of core PINCORE, the CXL agent, which takes the line for itself, or the peer. Other copies are
recalled. -/
def State.atomicSite (s : State) (pa : Nat) (home : BitVec 2) (pin : Nat) : State × Site :=
  let k := sectorOf pa
  if regionOf pa = 2 then (s, .peer)
  else if regionOf pa = 1 then (if s.sectorOwner k = some cxlAgent then s else s.grantAgent cxlAgent k, .cxl)
  else if home == 1 && !(s.containedAt pa).isSome then
    let r := s.pinSector pin k
    if r.2 then (r.1, .pinned pin) else (r.1.recall k none, .home)
  else
    let s := (s.recall k none).agentFill pa home
    (if (s.line (k / 4)).valid &&& sectorBit k = 0 then s else s.dirtyL2 k, .home)

/-! ### The directory's own events -/

/-- The home recalls a line from its holders (03 R106, R108); pinned copies stay (R101), and so does an engine's ownership until it has finished. -/
def State.recallLine (s : State) (line : Nat) : State :=
  (List.range 4).foldl (fun s i => if s.engineOwns (4 * line + i) || (s.pinHolder (4 * line + i)).isSome then s else s.recall (4 * line + i) none) s

/-- A recall (03 R106, R108). -/
def execDirectoryRecall (line : Nat) (s : State) : Host.Outcome State Fault Refusal := .next (s.recallLine line)

/-- An L2 line is evicted (03 R107). -/
def execL2LineEviction (line : Nat) (s : State) : Host.Outcome State Fault Refusal := .next (s.evictL2 line)

/-- A host snoop of a host line the device caches is answered by a recall (13 R354). -/
def execHostSnoop (line : Nat) (s : State) : Host.Outcome State Fault Refusal := .next (s.recallLine line)

/-! ### Reads and writes of a sector's bytes -/

/-- The stored error that a read of the sector meets: the memory controller decodes what it reads of DRAM (20 R474); while the L2 holds the sector, it reads
nothing. -/
def State.storedError (s : State) (pa : Nat) : Option EccKind :=
  if regionOf pa = 0 ∧ (s.line (lineOf pa)).valid &&& sectorBit (sectorOf pa) = 0 then (s.sector (sectorOf pa)).ecc else none

/-- A write performs: its bytes, and the poison it clears. A write of all 64 bytes of a sector clears its poison, except in a contained line
(17 R423, 20 R468). -/
def State.writeMem (s : State) (pa n x : Nat) : State :=
  let s := s.writePhys pa n x
  if n = 64 && (s.containedAt pa).isNone then s.modSector (sectorOf pa) (fun t => { t with poison := false, ecc := none }) else s

end Sys2Proof.Machine
end

