-- ==== Sys2Proof/Machine/Scale.lean ====
section
/-! DEFINITION. Format windows and the scale cache (06 R200-R204, 21 R502-R504). -/
namespace Sys2Proof.Machine

/-! ### Format windows (06 R200, R201) -/

/-- The physical address a window register holds. -/
def windowAddr (x : Word64) : Nat := (field 8 44 x).toNat * 256

/-- Bytes of a block of the window's format: 32 for bx8, 16 for bx4, none for a disabling value. -/
def Window.blockBytes (w : Window) : Option Nat :=
  if field 1 3 w.ctl = 4 then some 32 else if field 1 3 w.ctl = 5 then some 16 else none

/-- Blocks the window covers: at most 2^20. -/
def Window.blocks (w : Window) (B : Nat) : Nat := min (2 ^ 20) ((windowAddr w.limit - windowAddr w.base) / B)

/-- A range of device DRAM of one die. -/
def dramRange (lo hi : Nat) : Bool := lo < hi && inDram lo && inDram (hi - 1) && dieOf lo == dieOf (hi - 1)

/-- The window serves lookups of a context's tensor. -/
def Window.serves (w : Window) (ctx : Nat) (tensor : BitVec 8) : Bool :=
  bit w.ctl 0 && (field 16 16 w.ctl).toNat == ctx && field 8 8 w.ctl == tensor &&
    (match w.blockBytes with
     | none => false
     | some B => dramRange (windowAddr w.base) (windowAddr w.limit) && dramRange (windowAddr w.scale) (windowAddr w.scale + 2 * w.blocks B))

/-- The window of a lookup: the lowest-numbered that serves it. -/
def State.windowFor (s : State) (ctx : Nat) (tensor : BitVec 8) : Option Window := (s.windows.find? (fun e => e.2.serves ctx tensor)).map Prod.snd

/-- The address of a block's scale; none where the lookup fails (06 R204). -/
def State.scaleAddr (s : State) (ctx : Nat) (tensor : BitVec 8) (b : Nat) : Option Nat :=
  match s.windowFor ctx tensor with
  | none => none
  | some w =>
    match w.blockBytes with
    | none => none
    | some B => if b < w.blocks B then some (windowAddr w.scale + 2 * b) else none

/-- The reserved bits of the window registers read as zero. -/
def windowMask (x : Word64) : Word64 := x &&& 0x000FFFFFFFFFFF00#64
def windowCtlMask (x : Word64) : Word64 := x &&& 0xFFFFFF0F#64

/-- A write of a window's four registers through the management block: every entry of every scale cache goes (06 R200, R202). -/
def execFormatWindowWrite (n : Nat) (x : List (BitVec 64)) (s : State) : Host.Outcome State Fault Refusal :=
  if 16 ≤ n then .next s
  else
    let w : Window := { base := windowMask (x.getD 0 0), limit := windowMask (x.getD 1 0), scale := windowMask (x.getD 2 0), ctl := windowCtlMask (x.getD 3 0) }
    .next { s with windows := Tab.put n w s.windows, cores := s.cores.map (fun e => (e.1, { e.2 with scales := [] })) }

/-! ### The scale cache (06 R202) -/

/-- The entry of a scale. -/
def Core.scaleEntry (c : Core) (ctx : Nat) (tensor : BitVec 8) (b : Nat) : Option ScaleEntry :=
  c.scales.find? (fun e => e.ctx == ctx && e.tensor == tensor && e.block == b)

/-- The cache without the entry of a scale. -/
def Core.dropScale (c : Core) (ctx : Nat) (tensor : BitVec 8) (b : Nat) : Core :=
  { c with scales := c.scales.filter (fun e => !(e.ctx == ctx && e.tensor == tensor && e.block == b)) }

/-- The set of an entry: 512 sets of eight ways. The set a block number falls in is the model's choice (log 31). -/
def scaleSet (e : ScaleEntry) : Nat := e.block % 512

/-- Put an entry, in place of the oldest of its set when eight are held. -/
def Core.putScale (c : Core) (e : ScaleEntry) : Core :=
  let c := c.dropScale e.ctx e.tensor e.block
  let set := c.scales.filter (fun x => scaleSet x == scaleSet e)
  let old := if set.length < 8 then c.scales else match set.getLast? with
    | some v => c.scales.filter (fun x => x != v)
    | none => c.scales
  { c with scales := e :: old }

/-- The record of a scale error: the scale's physical address (21 R503). -/
def scaleReport (ctx : Nat) (code : BitVec 16) (pa : Nat) (injected : Bool) : Report :=
  let k := homeSliceOf pa
  { code := code, path := diePath (k / 16) 6 (k % 16), ctx := BitVec.ofNat 16 ctx, info := if injected then 0x200 else 0,
    detail := detail4 (BitVec.ofNat 64 pa) (if code = 0x3101 then 0 else 1) 0 0, slice := k }

/-- An agent reads a scale through the L2 at its home slice and fills it into a core's cache: a corrected error is recorded, an uncorrected one poisons the entry; a sector
already poisoned poisons it without a further record (21 R502-R504). -/
def State.fillScale (s : State) (agent core ctx : Nat) (tensor : BitVec 8) (b : Nat) : State :=
  match s.scaleAddr ctx tensor b with
  | none => s
  | some pa =>
    let found := s.storedError pa
    let s := s.agentRead agent pa 0 0
    let cor := found == some .corrected
    let bad := found == some .uncorrected || found == some .misdirected
    let s := if cor || bad then
        (s.modSector (sectorOf pa) (fun t => { t with ecc := none, poison := t.poison || bad })).report (scaleReport ctx (if cor then 0x3101 else 0x3102) pa false)
      else s
    let e : ScaleEntry :=
      { ctx := ctx, tensor := tensor, block := b, scale := BitVec.ofNat 16 (s.readPhys pa 2), poison := bad || s.poisonedAt pa, cor := cor }
    s.modCore core (fun c => c.putScale e)

/-- A missed scale arrives (06 R202), read by the scale path of the core's first partition. `line` is the context's number times 2^20 plus the block number. -/
def execScaleFill (core : Nat) (tensor : BitVec 8) (line : Nat) (s : State) : Host.Outcome State Fault Refusal :=
  .next (s.fillScale (matrixAgent core 0) core (line / 2 ^ 20) tensor (line % 2 ^ 20))

/-- Entries whose scale bytes lie in a 64-byte sector are discarded. -/
def State.dropScalesAt (s : State) (core k : Nat) : State :=
  s.modCore core (fun c => { c with scales := c.scales.filter (fun e => (s.scaleAddr e.ctx e.tensor e.block).map sectorOf != some k) })

/-- Every entry of a context is discarded on a core (06 R202). -/
def State.dropScalesOf (s : State) (core ctx : Nat) : State :=
  s.modCore core (fun c => { c with scales := c.scales.filter (fun e => e.ctx != ctx) })

/-- What a lookup gives: not found, or the two exponent bytes, and whether the entry was poisoned or corrected. -/
structure ScaleRead where
  found : Bool
  scale : BitVec 16 := 0xFFFF
  poison : Bool := false
  cor : Bool := false
deriving DecidableEq, Repr

/-- Look a scale up, filling it first when it misses (06 R202, R204). -/
def State.lookScale (s : State) (agent core ctx : Nat) (tensor : BitVec 8) (b : Nat) : State × ScaleRead :=
  let s := if ((s.coreAt core).scaleEntry ctx tensor b).isSome then s else s.fillScale agent core ctx tensor b
  match (s.coreAt core).scaleEntry ctx tensor b with
  | some e =>
    if (s.scaleAddr ctx tensor b).isSome then (s, { found := true, scale := e.scale, poison := e.poison, cor := e.cor })
    else (s, { found := false })
  | none => (s, { found := false })

end Sys2Proof.Machine
end

