-- ==== Sys2Proof/Machine/Float.lean ====
section
/-! DEFINITION. Number formats and arithmetic (06 R181-R194): exact dyadic values, one rounding, and the conversions of R188. -/
namespace Sys2Proof.Machine

/-- A floating-point format (06 R181): exponent and mantissa widths, bias, whether it has infinities, and its largest finite code. -/
structure Fmt where
  eb : Nat
  mb : Nat
  bias : Nat
  hasInf : Bool
  maxCode : Nat
  nan : Nat
deriving DecidableEq, Repr

def f64 : Fmt := { eb := 11, mb := 52, bias := 1023, hasInf := true, maxCode := 0x7FEFFFFFFFFFFFFF, nan := 0x7FF8000000000000 }
def f32 : Fmt := { eb := 8, mb := 23, bias := 127, hasInf := true, maxCode := 0x7F7FFFFF, nan := 0x7FC00000 }
def f16 : Fmt := { eb := 5, mb := 10, bias := 15, hasInf := true, maxCode := 0x7BFF, nan := 0x7E00 }
def bf16 : Fmt := { eb := 8, mb := 7, bias := 127, hasInf := true, maxCode := 0x7F7F, nan := 0x7FC0 }
def e4m3 : Fmt := { eb := 4, mb := 3, bias := 7, hasInf := false, maxCode := 0x7E, nan := 0x7F }
def e5m2 : Fmt := { eb := 5, mb := 2, bias := 15, hasInf := true, maxCode := 0x7B, nan := 0x7E }

/-- An exact value: NaN, an infinity, or (-1)^s * m * 2^e. -/
inductive FVal where
  | nan
  | inf (s : Bool)
  | fin (s : Bool) (m : Nat) (e : Int)
deriving DecidableEq, Repr

/-- Rounding modes (06 R187). -/
inductive Mode where
  | rn | rz | rd | ru
deriving DecidableEq, Repr

/-- The mode of a code (06 R187). -/
def modeOf (c : BitVec 2) : Mode := if c = 0 then .rn else if c = 1 then .rz else if c = 2 then .rd else .ru

/-- The sign bit place of a format. -/
def Fmt.top (f : Fmt) : Nat := f.eb + f.mb

/-- The exponent of the least subnormal. -/
def Fmt.qmin (f : Fmt) : Int := 1 - (f.bias : Int) - (f.mb : Int)

/-- The value of a code (06 R181). -/
def Fmt.decode (f : Fmt) (x : Nat) : FVal :=
  let s := x.testBit f.top
  let ex := (x >>> f.mb) % 2 ^ f.eb
  let m := x % 2 ^ f.mb
  if ex = 2 ^ f.eb - 1 ∧ f.hasInf then (if m = 0 then .inf s else .nan)
  else if x % 2 ^ f.top = f.nan ∧ !f.hasInf then .nan
  else if ex = 0 then .fin s m f.qmin
  else .fin s (2 ^ f.mb + m) (f.qmin + (ex : Int) - 1)

/-- The integer multiple of 2^q that a magnitude m * 2^e rounds to (06 R187). -/
def roundMag (mode : Mode) (s : Bool) (m : Nat) (e q : Int) : Nat :=
  if q ≤ e then m <<< (e - q).toNat
  else
    let k := (q - e).toNat
    let a := m >>> k
    let r := m % 2 ^ k
    let up := match mode with
      | .rn => decide (2 ^ (k - 1) < r) || (r == 2 ^ (k - 1) && a % 2 == 1)
      | .rz => false
      | .rd => s && r != 0
      | .ru => !s && r != 0
    if up then a + 1 else a

/-- Bits of a number. -/
def bitLen (m : Nat) : Nat := if m = 0 then 0 else Nat.log2 m + 1

/-- The sign bit of a code. -/
def Fmt.signCode (f : Fmt) (s : Bool) : Nat := if s then 2 ^ f.top else 0

/-- The code of the infinity of a format (of its largest finite value where it has none or saturates). -/
def Fmt.infCode (f : Fmt) : Nat := (2 ^ f.eb - 1) * 2 ^ f.mb

/-- What a magnitude past the largest finite value becomes: IEEE overflow, or the largest finite value in a saturating format
(06 R188). -/
def Fmt.overflow (f : Fmt) (mode : Mode) (s sat : Bool) : Nat :=
  if sat then f.maxCode
  else match mode with
    | .rn => f.infCode
    | .rz => f.maxCode
    | .rd => if s then f.infCode else f.maxCode
    | .ru => if s then f.maxCode else f.infCode

/-- The 8-bit formats saturate (06 R188). -/
def Fmt.saturates (f : Fmt) : Bool := f.top == 7

/-- Round a value to a format (06 R181, R185, R188). -/
def Fmt.round (f : Fmt) (mode : Mode) : FVal → Nat
  | .nan => f.nan
  | .inf s => f.signCode s + (if f.saturates then f.maxCode else f.infCode)
  | .fin s m e =>
    if m = 0 then f.signCode s
    else
      let q := max f.qmin (e + (bitLen m : Int) - 1 - (f.mb : Int))
      let c := (q - f.qmin).toNat * 2 ^ f.mb + roundMag mode s m e q
      f.signCode s + (if f.maxCode < c then f.overflow mode s f.saturates else c)

/-- A finite value from a signed multiple of 2^e; an exact zero takes the sign `zs`. -/
def finOfInt (z : Int) (e : Int) (zs : Bool) : FVal := if z = 0 then .fin zs 0 e else .fin (z < 0) z.natAbs e

/-- A signed mantissa. -/
def signed (s : Bool) (m : Nat) : Int := if s then -(m : Int) else (m : Int)

/-- The exact sum; an exact zero from operands of opposite sign is +0 (06 R186). -/
def FVal.add : FVal → FVal → FVal
  | .nan, _ => .nan
  | _, .nan => .nan
  | .inf s, .inf t => if s = t then .inf s else .nan
  | .inf s, .fin _ _ _ => .inf s
  | .fin _ _ _, .inf t => .inf t
  | .fin s m e, .fin t n d =>
    let q := min e d
    finOfInt (signed s (m <<< (e - q).toNat) + signed t (n <<< (d - q).toNat)) q (s && t)

/-- The negated value. -/
def FVal.neg : FVal → FVal
  | .nan => .nan
  | .inf s => .inf !s
  | .fin s m e => .fin (!s) m e

/-- The exact product. -/
def FVal.mul : FVal → FVal → FVal
  | .nan, _ => .nan
  | _, .nan => .nan
  | .inf s, .inf t => .inf (s != t)
  | .inf s, .fin t m _ => if m = 0 then .nan else .inf (s != t)
  | .fin s m _, .inf t => if m = 0 then .nan else .inf (s != t)
  | .fin s m e, .fin t n d => .fin (s != t) (m * n) (e + d)

/-- Strictly less; NaN compares false. -/
def FVal.lt : FVal → FVal → Bool
  | .nan, _ => false
  | _, .nan => false
  | .inf s, .inf t => s && !t
  | .inf s, .fin _ _ _ => s
  | .fin _ _ _, .inf t => !t
  | .fin s m e, .fin t n d =>
    let q := min e d
    decide (signed s (m <<< (e - q).toNat) < signed t (n <<< (d - q).toNat))

/-- A NaN. -/
def FVal.isNan : FVal → Bool
  | .nan => true
  | _ => false

/-- Equal as numbers: -0 equals +0, NaN equals nothing. -/
def FVal.eq (x y : FVal) : Bool := !x.isNan && !y.isNan && !x.lt y && !y.lt x

/-- The sign. -/
def FVal.sign : FVal → Bool
  | .nan => false
  | .inf s => s
  | .fin s _ _ => s

/-- `x` orders below `y` with -0 below +0 (06 R185). -/
def FVal.below (x y : FVal) : Bool := x.lt y || (x.eq y && x.sign && !y.sign)

/-- Minimum of two codes: the non-NaN operand when exactly one is a NaN (06 R185). -/
def Fmt.minCode (f : Fmt) (x y : Nat) : Nat :=
  match (f.decode x).isNan, (f.decode y).isNan with
  | true, true => f.nan
  | true, false => y
  | false, true => x
  | false, false => if (f.decode y).below (f.decode x) then y else x

/-- Maximum of two codes (06 R185). -/
def Fmt.maxOf (f : Fmt) (x y : Nat) : Nat :=
  match (f.decode x).isNan, (f.decode y).isNan with
  | true, true => f.nan
  | true, false => y
  | false, true => x
  | false, false => if (f.decode x).below (f.decode y) then y else x

/-- rne(a + b). -/
def Fmt.addCode (f : Fmt) (x y : Nat) : Nat := f.round .rn ((f.decode x).add (f.decode y))

/-- rne(a - b). -/
def Fmt.subCode (f : Fmt) (x y : Nat) : Nat := f.round .rn ((f.decode x).add (f.decode y).neg)

/-- rne(a * b). -/
def Fmt.mulCode (f : Fmt) (x y : Nat) : Nat := f.round .rn ((f.decode x).mul (f.decode y))

/-- rne(a * b + c), fused (06 R186). -/
def Fmt.fmaCode (f : Fmt) (x y z : Nat) : Nat := f.round .rn (((f.decode x).mul (f.decode y)).add (f.decode z))

/-! ### Words -/

/-- A binary32 operation on words. -/
def w32 (n : Nat) : Word32 := BitVec.ofNat 32 n

/-- The exact values of the operations (06 R186). -/
def faddV (a b : Word32) : FVal := (f32.decode a.toNat).add (f32.decode b.toNat)
def fsubV (a b : Word32) : FVal := (f32.decode a.toNat).add (f32.decode b.toNat).neg
def fmulV (a b : Word32) : FVal := (f32.decode a.toNat).mul (f32.decode b.toNat)
def ffmaV (a b c : Word32) : FVal := ((f32.decode a.toNat).mul (f32.decode b.toNat)).add (f32.decode c.toNat)
/-- The exact value of `faddmin`: the minimum of d and the sum (09 R261). -/
def faddminV (a b d : Word32) : FVal :=
  let x := faddV a b
  let y := f32.decode d.toNat
  match x.isNan, y.isNan with
  | true, true => .nan
  | true, false => y
  | false, true => x
  | false, false => if x.below y then x else y
def fadd (a b : Word32) : Word32 := w32 (f32.addCode a.toNat b.toNat)
def fsub (a b : Word32) : Word32 := w32 (f32.subCode a.toNat b.toNat)
def fmul (a b : Word32) : Word32 := w32 (f32.mulCode a.toNat b.toNat)
def ffma (a b c : Word32) : Word32 := w32 (f32.fmaCode a.toNat b.toNat c.toNat)
def fminW (a b : Word32) : Word32 := w32 (f32.minCode a.toNat b.toNat)
def fmaxW (a b : Word32) : Word32 := w32 (f32.maxOf a.toNat b.toNat)

/-- Multiply by a power of two, exactly. -/
def FVal.scale (x : FVal) (k : Int) : FVal :=
  match x with
  | .fin s m e => .fin s m (e + k)
  | y => y

/-- `fscale` (09 R261): the count is clamped to -300 ... 300. -/
def fscaleV (a b : Word32) : FVal := (f32.decode a.toNat).scale (max (-300) (min 300 b.toInt))
def fscaleW (a b : Word32) : Word32 := w32 (f32.round .rn (fscaleV a b))

/-! ### Integers -/

/-- Round a value to an integer in a mode; infinities and NaN are handled by the caller. -/
def roundInt (mode : Mode) (s : Bool) (m : Nat) (e : Int) : Int := signed s (roundMag mode s m e 0)

/-- Clamp to a range. -/
def clampInt (lo hi x : Int) : Int := max lo (min hi x)

/-- Float to integer: rounded in the mode, then clamped (06 R188). -/
def FVal.toIntClamp (mode : Mode) (lo hi : Int) : FVal → Int
  | .nan => 0
  | .inf s => if s then lo else hi
  | .fin s m e => clampInt lo hi (roundInt mode s m e)

/-- An integer as an exact value. -/
def valOfInt (z : Int) : FVal := finOfInt z 0 false

/-! ### cvt (06 R188, 07 R219) -/

/-- The types of cvt. -/
inductive CvtTy where
  | int (lo hi : Int) (bits : Nat) (sg : Bool)
  | flt (f : Fmt)
deriving DecidableEq, Repr

/-- The type of a cvt type code (07 R219); codes 12-15 are reserved encodings. -/
def cvtTy (c : BitVec 4) : CvtTy :=
  match c.toNat with
  | 0 => .int (-2147483648) 2147483647 32 true
  | 1 => .int 0 4294967295 32 false
  | 2 => .flt f32
  | 3 => .flt f16
  | 4 => .flt bf16
  | 5 => .flt e4m3
  | 6 => .flt e5m2
  | 7 => .int (-128) 127 8 true
  | 8 => .int 0 255 8 false
  | 9 => .int (-32768) 32767 16 true
  | 10 => .int 0 65535 16 false
  | _ => .flt f64

/-- A source read from the low bits of its word or pair (06 R183). -/
def cvtSource (t : CvtTy) (x : Word64) : FVal ⊕ Int :=
  match t with
  | .int _ _ bits sg => .inr (if sg then (x.setWidth bits).toInt else ((x.setWidth bits).toNat : Int))
  | .flt f => .inl (f.decode (x.toNat % 2 ^ (f.top + 1)))

/-- A conversion (06 R188). Narrow integers are extended and narrow floats zero-extended (06 R183). -/
def cvtWord (src dst : BitVec 4) (mode : Mode) (x : Word64) : Word64 :=
  match cvtSource (cvtTy src) x, cvtTy dst with
  | .inl v, .flt f => BitVec.ofNat 64 (f.round mode v)
  | .inl v, .int lo hi _ _ => zext 64 (BitVec.ofInt 32 (v.toIntClamp mode lo hi))
  | .inr z, .flt f => BitVec.ofNat 64 (f.round mode (valOfInt z))
  | .inr z, .int lo hi _ _ => zext 64 (BitVec.ofInt 32 (clampInt lo hi z))

/-! ### The unary functions (09 R264) -/

/-- A subnormal read as a zero of its sign (06 R184). -/
def daz : FVal → FVal
  | .fin s m e => if m < 2 ^ 23 then .fin s 0 e else .fin s m e
  | v => v

/-- A subnormal result becomes a zero of its sign (06 R184). -/
def ftz (x : Word32) : Word32 := if field 23 8 x = 0 then x &&& 0x80000000#32 else x

/-- A value that lies strictly between m * 2^e and (m + 1) * 2^e when `sticky`, for one later rounding. -/
def stickyVal (s : Bool) (m : Nat) (e : Int) (sticky : Bool) : FVal := .fin s (2 * m + (if sticky then 1 else 0)) (e - 1)

/-- rne to binary32. -/
def round32 (v : FVal) : Word32 := w32 (f32.round .rn v)

/-- The shadow's sign and M of a binary32 result (21 R494): the exact value rounded to 8 significant bits in the exponent range of
binary32, which is its bf16 rounding. -/
def shadow32 (v : FVal) : BitVec 16 := BitVec.ofNat 16 (bf16.round .rn v)

/-- A shadow whose subnormal results are zeros (06 R184). -/
def ftzShadow (x : BitVec 16) : BitVec 16 := if field 7 8 x = 0 then x &&& 0x8000#16 else x

/-- The canonical NaN of binary32 (06 R181). -/
def nan32 : Word32 := 0x7FC00000#32

/-- The value of `frcp`. -/
def frcpV (a : Word32) : FVal :=
  match daz (f32.decode a.toNat) with
  | .nan => .nan
  | .inf s => .fin s 0 0
  | .fin s m e =>
    if m = 0 then .inf s
    else stickyVal s (2 ^ 80 / m) (-80 - e) (2 ^ 80 % m != 0)

/-- `frcp`. -/
def frcpW (a : Word32) : Word32 := ftz (round32 (frcpV a))

/-- The integer square root, bit by bit from bit `k`. -/
def isqrtFrom (n : Nat) : Nat → Nat → Nat
  | 0, r => if (r + 1) * (r + 1) ≤ n then r + 1 else r
  | k + 1, r => isqrtFrom n k (if (r + 2 ^ (k + 1)) * (r + 2 ^ (k + 1)) ≤ n then r + 2 ^ (k + 1) else r)

/-- The integer square root. -/
def isqrt (n : Nat) : Nat := isqrtFrom n (bitLen n / 2) 0

/-- m * 2^e with an even exponent. -/
def evenExp (m : Nat) (e : Int) : Nat × Int := if e % 2 = 0 then (m, e) else (2 * m, e - 1)

/-- The value of `fsqrt`. -/
def fsqrtV (a : Word32) : FVal :=
  match f32.decode a.toNat with
  | .nan => .nan
  | .inf s => if s then .nan else .inf false
  | .fin s m e =>
    if m = 0 then .fin s 0 0
    else if s then .nan
    else
      let (n, d) := evenExp m e
      let x := n * 2 ^ 80
      let r := isqrt x
      stickyVal false r (d / 2 - 40) (r * r != x)

/-- `fsqrt`. -/
def fsqrtW (a : Word32) : Word32 := round32 (fsqrtV a)

/-- The value of `frsq`. -/
def frsqV (a : Word32) : FVal :=
  match daz (f32.decode a.toNat) with
  | .nan => .nan
  | .inf s => if s then .nan else .fin false 0 0
  | .fin s m e =>
    if m = 0 then .inf s
    else if s then .nan
    else
      let (n, d) := evenExp m e
      let r := isqrt (2 ^ 160 / n)
      stickyVal false r (-(d / 2) - 80) (r * r * n != 2 ^ 160)

/-- `frsq`. -/
def frsqW (a : Word32) : Word32 := ftz (round32 (frsqV a))

/-- ln 2 in units of 2^-256. -/
def ln2Fix : Nat := 80260960185991308862233904206310070533990667611589946606122867505419956976171
/-- pi in units of 2^-320. -/
def piFix : Nat := 6710401180212168915155840974220003240804194089427148950727106424351713218671805380099500388914039

/-- The sum of y^n / n! from term `n` on, in units of 2^-256. -/
def expTerms (y : Nat) : Nat → Nat → Nat → Nat
  | 0, _, _ => 0
  | k + 1, n, t => t + expTerms y k (n + 1) (t * y / (2 ^ 256 * (n + 1)))

/-- 2^f for f in units of 2^-256, 0 ≤ f < 1, in units of 2^-256: the exponential series to 80 terms. -/
def exp2Fix (f : Nat) : Nat := expTerms (f * ln2Fix / 2 ^ 256) 80 0 (2 ^ 256)

/-- The value of `fexp2`. -/
def fexp2V (a : Word32) : FVal :=
  match daz (f32.decode a.toNat) with
  | .nan => .nan
  | .inf s => if s then .fin false 0 0 else .inf false
  | .fin s m e =>
    if m = 0 then .fin false 1 0
    else if 8 ≤ e + (bitLen m : Int) - 1 then (if s then .fin false 0 0 else .inf false)
    else
      let x := signed s (m * 2 ^ (e + 256).toNat)
      let n := x / 2 ^ 256
      let f := (x % 2 ^ 256).toNat
      stickyVal false (exp2Fix f) (n - 256) (f != 0)

/-- `fexp2`. -/
def fexp2W (a : Word32) : Word32 := ftz (round32 (fexp2V a))

/-- The sum of z^(2n+1) / (2n+1), from term `n` on, in units of 2^-256; `t` is z^(2n+1) and `zz` is z squared. -/
def atanhTerms (zz : Nat) : Nat → Nat → Nat → Nat
  | 0, _, _ => 0
  | k + 1, n, t => t / (2 * n + 1) + atanhTerms zz k (n + 1) (t * zz / 2 ^ 256)

/-- log2 of m / 2^23 for 2^23 ≤ m < 2^24, in units of 2^-256. -/
def log2Fix (m : Nat) : Nat :=
  let z := (m - 2 ^ 23) * 2 ^ 256 / (m + 2 ^ 23)
  2 * atanhTerms (z * z / 2 ^ 256) 90 0 z * 2 ^ 256 / ln2Fix

/-- The value of `flog2`. -/
def flog2V (a : Word32) : FVal :=
  match daz (f32.decode a.toNat) with
  | .nan => .nan
  | .inf s => if s then .nan else .inf false
  | .fin s m e =>
    if m = 0 then .inf true
    else if s then .nan
    else
      let x : Int := (e + 23) * 2 ^ 256 + (log2Fix m : Int)
      if x = 0 then .fin false 0 0 else stickyVal (x < 0) x.natAbs (-256) (m != 2 ^ 23)

/-- `flog2`. -/
def flog2W (a : Word32) : Word32 := ftz (round32 (flog2V a))

/-- The sine series from term `n` on, signs alternating: `t` is x^(2n+1) / (2n+1)! in units of 2^-320. -/
def sinTerms (xx : Nat) : Nat → Nat → Nat → Int
  | 0, _, _ => 0
  | k + 1, n, t => (t : Int) - sinTerms xx k (n + 1) (t * xx / (2 ^ 320 * ((2 * n + 2) * (2 * n + 3))))

/-- sin(pi * r) for r in units of 2^-320, 0 ≤ r ≤ 1/2. -/
def sinPiFix (r : Nat) : Nat :=
  let x := r * piFix / 2 ^ 320
  (sinTerms (x * x / 2 ^ 320) 60 0 x).toNat

/-- sin(pi * x) for x in units of 2^-320, reduced to the first quarter turn; a half gives exactly one. -/
def sinPiVal (x : Int) (zs : Bool) : FVal :=
  let one : Int := 2 ^ 320
  let t := (x % (2 * one)).toNat
  let neg := decide (one ≤ (t : Int))
  let u := if neg then t - 2 ^ 320 else t
  let r := if 2 ^ 319 < u then 2 ^ 320 - u else u
  if r = 0 then .fin zs 0 0
  else if r = 2 ^ 319 then .fin neg 1 0
  else stickyVal neg (sinPiFix r) (-320) true

/-- A dyadic value in units of 2^-320. -/
def fix320 (s : Bool) (m : Nat) (e : Int) : Int := signed s (m * 2 ^ (e + 320).toNat)

/-- The value of `fsin`: the argument counts half-turns. -/
def fsinV (a : Word32) : FVal :=
  match daz (f32.decode a.toNat) with
  | .nan => .nan
  | .inf _ => .nan
  | .fin s m e => sinPiVal (fix320 s m e) s

/-- `fsin`. -/
def fsinW (a : Word32) : Word32 := ftz (round32 (fsinV a))

/-- The value of `fcos`. -/
def fcosV (a : Word32) : FVal :=
  match daz (f32.decode a.toNat) with
  | .nan => .nan
  | .inf _ => .nan
  | .fin s m e => sinPiVal (fix320 s m e + 2 ^ 319) false

/-- `fcos`. -/
def fcosW (a : Word32) : Word32 := ftz (round32 (fcosV a))

/-- The value of `fround`. -/
def froundV (mode : Mode) (a : Word32) : FVal :=
  match f32.decode a.toNat with
  | .nan => .nan
  | .inf s => .inf s
  | .fin s m e => .fin s (roundMag mode s m e 0) 0

/-- `fround`. -/
def froundW (mode : Mode) (a : Word32) : Word32 := round32 (froundV mode a)

/-- The value of `ffract`: a - floor(a). -/
def ffractV (a : Word32) : FVal :=
  match f32.decode a.toNat with
  | .nan => .nan
  | .inf _ => .nan
  | .fin s m e =>
    match (FVal.fin s m e).add (finOfInt (-(roundInt .rd s m e)) 0 false) with
    | .fin t n d => .fin (t && n != 0) n d
    | _ => .nan

/-- `ffract`, rounded towards zero. -/
def ffractW (a : Word32) : Word32 := w32 (f32.round .rz (ffractV a))

/-- `fclass`. -/
def fclassW (a : Word32) : Word32 :=
  let s := a.getLsbD 31
  let ex := field 23 8 a
  let m := field 0 23 a
  if ex = 0xFF then
    if m = 0 then (if s then 1 else 0x80)
    else if a.getLsbD 22 then 0x200 else 0x100
  else if ex = 0 then
    if m = 0 then (if s then 8 else 0x10)
    else (if s then 4 else 0x20)
  else (if s then 2 else 0x40)

/-- The conditions of fcmp (07 R217). -/
def fcmpW (cc : BitVec 3) (a b : Word32) : Bool :=
  let x := f32.decode a.toNat
  let y := f32.decode b.toNat
  let un := x.isNan || y.isNan
  match cc.toNat with
  | 0 => x.eq y
  | 1 => un || !x.eq y
  | 2 => x.lt y
  | 3 => x.lt y || x.eq y
  | 4 => y.lt x
  | 5 => y.lt x || x.eq y
  | 6 => un
  | _ => !un

/-- The conditions of icmp (07 R217). -/
def icmpW (cc : BitVec 3) (uns : Bool) (a b : Word32) : Bool :=
  let lt := fun (x y : Word32) => if uns then x.ult y else x.slt y
  match cc.toNat with
  | 0 => a == b
  | 1 => a != b
  | 2 => lt a b
  | 3 => !lt b a
  | 4 => lt b a
  | _ => !lt a b

/-! ### Block formats (06 R189-R194) -/

/-- The constants of a block format: mantissa bits, EMAX, FMAX in units of the subnormal step, and the step's exponent. -/
structure BxFmt where
  mb : Nat
  step : Int
  emax : Int
  fmax : Nat
deriving DecidableEq, Repr

/-- BX8: 3 mantissa bits, step 2^-5, FMAX 30 = 960 steps. -/
def bx8 : BxFmt := { mb := 3, step := -5, emax := 4, fmax := 960 }
/-- BX4: 1 mantissa bit, step 2^-1, FMAX 1.5 = 3 steps. -/
def bx4 : BxFmt := { mb := 1, step := -1, emax := 0, fmax := 3 }

/-- grid(q) in steps: nearest-even on the element's unbounded grid (06 R193). -/
def BxFmt.grid (f : BxFmt) (m : Nat) (e : Int) : Nat :=
  if m = 0 then 0
  else
    let q := max f.step (e + (bitLen m : Int) - 1 - (f.mb : Int))
    roundMag .rn false m e q <<< (q - f.step).toNat

/-- The magnitude bits of an element of `n` steps: exponent field above the mantissa (06 R190, R191). -/
def BxFmt.magBits (f : BxFmt) (n : Nat) : Nat :=
  if n < 2 ^ f.mb then n
  else
    let k := bitLen n - 1 - f.mb
    (k + 1) * 2 ^ f.mb + (n >>> k - 2 ^ f.mb)

/-- Bits of an element below its sign. -/
def BxFmt.magWidth (f : BxFmt) : Nat := if f.mb = 3 then 6 else 2

/-- The exponent of the leading bit. -/
def topExp (m : Nat) (e : Int) : Int := e + (bitLen m : Int) - 1

/-- The larger of two magnitudes. -/
def largerMag (x y : Nat × Int) : Nat × Int :=
  if (FVal.fin false x.1 x.2).lt (.fin false y.1 y.2) then y else x

/-- The magnitude of a value that is finite. -/
def FVal.mag : FVal → Nat × Int
  | .fin _ m e => (m, e)
  | _ => (0, 0)

/-- Finite. -/
def FVal.isFin : FVal → Bool
  | .fin _ _ _ => true
  | _ => false

/-- The scale X0 of a block of finite values (06 R193). -/
def bxX0 (f : BxFmt) (M : Nat × Int) : Nat :=
  if M.1 = 0 then 0 else (max 0 (min 254 (topExp M.1 M.2 - f.emax + 127))).toNat

/-- One element under the scales (06 R193). -/
def bxElement (f : BxFmt) (x0 x1 : Nat) (v : FVal) : Nat :=
  let (m, e) := v.mag
  let q1 := f.grid m (e - ((x1 : Int) - 127))
  let sel := decide (q1 ≤ f.fmax)
  let q := if sel then q1 else min (f.grid m (e - ((x0 : Int) - 127))) f.fmax
  (if sel then 2 * 2 ^ f.magWidth else 0) + (if v.sign then 2 ^ f.magWidth else 0) + f.magBits q

/-- A block encoded (06 R193): X0, X1 and the elements. -/
def bxEncode (f : BxFmt) (d : Nat) (xs : List Word32) : Nat × Nat × List Nat :=
  let vs := xs.map (fun x => f32.decode x.toNat)
  if vs.all FVal.isFin then
    let x0 := bxX0 f ((vs.map FVal.mag).foldl largerMag (0, 0))
    let x1 := x0 - d
    (x0, x1, vs.map (bxElement f x0 x1))
  else (0xFF, 0xFF, vs.map (fun _ => 0))

/-- The value of an element under its scales (06 R192). -/
def bxValue (f : BxFmt) (x0 x1 el : Nat) : FVal :=
  if x0 = 0xFF ∨ x1 = 0xFF then .nan
  else
    let X := if el.testBit (f.magWidth + 1) then x1 else x0
    let s := el.testBit f.magWidth
    let ex := el % 2 ^ f.magWidth / 2 ^ f.mb
    let m := el % 2 ^ f.mb
    let sh : Int := (X : Int) - 127
    if ex = 0 then .fin s m (f.step + sh) else .fin s (2 ^ f.mb + m) (f.step + (ex : Int) - 1 + sh)

/-- An element decoded to binary32 (09 R275): a magnitude of 2^128 or more gives an infinity. -/
def bxDecode (f : BxFmt) (x0 x1 el : Nat) : Word32 := w32 (f32.round .rn (bxValue f x0 x1 el))

end Sys2Proof.Machine
end

