-- ==== Sys2Proof/Machine/Lanes.lean ====
section
/-! DEFINITION. The shared shape of the vector instructions (09 R252-R256): operand forms, the operation on each active lane, and the
deferred write of its results (02 R38, 09 R255). -/
namespace Sys2Proof.Machine

/-- A vector instruction: what it names, the writes it computes from the operands of its active lanes, whether it is shadowed
(21 R493) and the shadow of a thread's binary32 result (21 R494). -/
structure VecOp where
  use : Use
  sw : Bool
  writes : Group → Sel → List LaneIn → List RegWrite
  shadowed : Bool := false
  shadow : Option (Nat → List LaneIn → BitVec 16) := none
  /-- The latency of an instruction that is not of the fixed class (08 R245, 09 R255). -/
  bound : Nat := 16
  /-- An instruction of the uniform pipeline (08 R245). -/
  uniform : Bool := false

/-- EINJ is armed with a kind (17 R424). -/
def Group.armed (g : Group) (kind : Nat) : Bool := bit g.regs.einj 63 && (field 52 4 g.regs.einj).toNat == kind

/-- Clear EINJ.ARMED (17 R424). -/
def Group.disarm (g : Group) : Group := { g with regs := { g.regs with einj := setBit g.regs.einj 63 false } }

/-- The shadow disagreement an armed EINJ of kind 7 injects: the named thread's shadow with its sign inverted (17 R424). -/
def injectedShadow (o : VecOp) (g : Group) (mask : Mask) (ins : List LaneIn) : Option (Nat × BitVec 16) :=
  match o.shadow with
  | some f =>
    let L := (field 0 6 g.regs.einj).toNat
    if g.armed 7 && mask.getLsbD L then some (L, f L ins ^^^ 0x8000#16) else none
  | none => none

/-- The operands of the active lanes, in ascending thread index. -/
def lanesIn (o : VecOp) (is : Issue) (sel : Sel) (g : Group) : List LaneIn :=
  (maskList sel.mask).map (g.gather o.use is.replay)

/-- The outstanding instruction a vector issue leaves. -/
def vectorEntry (o : VecOp) (is : Issue) (sel : Sel) (e : ReplayEntry) (g : Group) : Outstanding :=
  let ins := lanesIn o is sel g
  { id := g.flow.nextId, kind := .vector, entry := e, bundle := sel.bundle, writes := o.writes g sel ins, shadowed := o.shadowed,
    sw := o.sw, replay := is.replay.isSome,
    injected := injectedShadow o g sel.mask ins }

/-- Put an outstanding instruction on the scoreboard (02 R38). -/
def Group.putOutstanding (g : Group) (o : Outstanding) : Group :=
  { g with flow := { g.flow with outstanding := g.flow.outstanding ++ [o], nextId := g.flow.nextId + 1 } }

/-- The group after a vector issue: the results are outstanding; a uniform destination of a partial bundle sets USPLIT (02 R40, 09
R256); an injection that acted is disarmed. -/
def vectorIssued (o : VecOp) (is : Issue) (sel : Sel) (e : ReplayEntry) (g : Group) : Group :=
  let out := vectorEntry o is sel e g
  let g := g.putOutstanding out
  let g := if o.use.sdst.isEmpty then g else g.noteSplit sel.bundle
  if out.injected.isSome then g.disarm else g

/-- Clocks from a vector or uniform instruction's last pass to its results (08 R245, 09 R255): 4 of the fixed class, and of the others the bound the spec gives; every
instruction is taken to have one pass (log 7). -/
def VecOp.latency (o : VecOp) : Nat := if o.use.fixed then 4 else o.bound

/-- The effect of a vector instruction. -/
def vectorEffect (o : VecOp) (is : Issue) (sel : Sel) (e : ReplayEntry) (s : State) : State × Option LaneStop :=
  match s.group sel.g with
  | none => (s, none)
  | some g => ((s.modGroup sel.g (vectorIssued o is sel e)).later o.latency (.vectorWriteback sel.g g.flow.nextId 0), none)

/-- A vector instruction as an issue. -/
def VecOp.op (o : VecOp) : Op :=
  { use := o.use, sw := o.sw, checks := fun _ is sel g => stdChecks o.use is sel g, uniform := o.uniform, effect := vectorEffect o }

/-- Issue a vector instruction. -/
def issueVector (o : VecOp) (s : State) : Host.Outcome State Fault Refusal := issue o.op s

/-! ### Lane operations -/

/-- Any operand is tainted (03 R89). -/
def anyTaint (i : LaneIn) : Bool := i.tv.any id

/-- The writes of one lane's result words. -/
def laneWrite (u : Use) (f : LaneIn → List Word32) (taint : LaneIn → Bool) (i : LaneIn) : List RegWrite :=
  List.zipWith (fun r x => RegWrite.v i.L r x (taint i) false) u.dstWords (f i)

/-- An operation on each active lane by itself. -/
def laneOp (u : Use) (sw : Bool) (f : LaneIn → List Word32) : VecOp :=
  { use := u, sw := sw, writes := fun _ _ ins => ins.flatMap (laneWrite u f anyTaint) }

/-- A shadow from one lane's exact value. -/
def laneShadow (v : LaneIn → BitVec 16) : Option (Nat → List LaneIn → BitVec 16) :=
  some (fun L ins => match ins.find? (fun i => i.L == L) with
    | some i => v i
    | none => 0)

/-- The first operand, the second and the third. -/
def LaneIn.a (i : LaneIn) : Word32 := i.v.getD 0 0
def LaneIn.b (i : LaneIn) : Word32 := i.v.getD 1 0
def LaneIn.c (i : LaneIn) : Word32 := i.v.getD 2 0
/-- The uniform operand's low word (09 R252). -/
def LaneIn.u (i : LaneIn) : Word32 := lowWord (i.s.getD 0 0)
/-- The pair that starts at operand word `j`. -/
def LaneIn.d (i : LaneIn) (j : Nat) : Word64 := pair (i.v.getD j 0) (i.v.getD (j + 1) 0)

/-! ### Operand forms (07 R210, R211) -/

/-- VV: two vector sources through their selectors. -/
def useVV (d a : BitVec 6) (p : BitVec 2) (b : BitVec 6) (q : BitVec 2) : Use :=
  { vsrc := [{ reg := a.toNat, sel := p.toNat }, { reg := b.toNat, sel := q.toNat }], vdst := [(d.toNat, 1)], fixed := true }

/-- VV that reads its destination too. -/
def useVVd (d a : BitVec 6) (p : BitVec 2) (b : BitVec 6) (q : BitVec 2) : Use :=
  { vsrc := [{ reg := a.toNat, sel := p.toNat }, { reg := b.toNat, sel := q.toNat }, { reg := d.toNat }],
    vdst := [(d.toNat, 1)], fixed := true }

/-- `iaddmin` on vectors (09 R257). -/
def useAddMin (d a : BitVec 6) (p : BitVec 2) (b : BitVec 6) (q : BitVec 2) : Use := { useVVd d a p b q with mayReread := true }

/-- VV on pairs (09 R262). -/
def useDD (d a : BitVec 6) (p : BitVec 2) (b : BitVec 6) (q : BitVec 2) : Use :=
  { vsrc := [{ reg := a.toNat, sel := p.toNat, cnt := 2 }, { reg := b.toNat, sel := q.toNat, cnt := 2 }], vdst := [(d.toNat, 2)] }

/-- VV on pairs that reads its destination too. -/
def useDDd (d a : BitVec 6) (p : BitVec 2) (b : BitVec 6) (q : BitVec 2) : Use :=
  { vsrc := [{ reg := a.toNat, sel := p.toNat, cnt := 2 }, { reg := b.toNat, sel := q.toNat, cnt := 2 }, { reg := d.toNat, cnt := 2 }],
    vdst := [(d.toNat, 2)] }

/-- VS: a vector source and a uniform one. -/
def useVS (d a : BitVec 6) (p : BitVec 2) (u : BitVec 8) : Use :=
  { vsrc := [{ reg := a.toNat, sel := p.toNat }], ssrc := [u.toNat], vdst := [(d.toNat, 1)], fixed := true }

/-- VS that reads its destination too. -/
def useVSd (d a : BitVec 6) (p : BitVec 2) (u : BitVec 8) : Use :=
  { vsrc := [{ reg := a.toNat, sel := p.toNat }, { reg := d.toNat }], ssrc := [u.toNat], vdst := [(d.toNat, 1)], fixed := true }

/-- `iaddmin` with a uniform operand (09 R257). -/
def useAddMinVs (d a : BitVec 6) (p : BitVec 2) (u : BitVec 8) : Use := { useVSd d a p u with mayReread := true }

/-- VI and VU: one vector source. -/
def useVU (d a : BitVec 6) (p : BitVec 2) : Use :=
  { vsrc := [{ reg := a.toNat, sel := p.toNat }], vdst := [(d.toNat, 1)], fixed := true }

/-- VU of the variable-latency class. -/
def useVUslow (d a : BitVec 6) (p : BitVec 2) : Use :=
  { vsrc := [{ reg := a.toNat, sel := p.toNat }], vdst := [(d.toNat, 1)] }

/-- V4: three sources, no selector. -/
def useV4 (d a b c : BitVec 6) : Use :=
  { vsrc := [{ reg := a.toNat }, { reg := b.toNat }, { reg := c.toNat }], vdst := [(d.toNat, 1)], fixed := true }

/-- VL: no source. -/
def useVL (d : BitVec 6) : Use := { vdst := [(d.toNat, 1)], fixed := true }

/-- The 16-bit forms 1 to 15: VV with va = vd (07 R208). -/
def use16 (d b : BitVec 5) : Use := useVV (zext 6 d) (zext 6 d) 0 (zext 6 b) 0

/-- A two-source operation on words. -/
def vvOp (u : Use) (sw : Bool) (f : Word32 → Word32 → Word32) : VecOp := laneOp u sw (fun i => [f i.a i.b])

/-- A two-source operation that reads its destination. -/
def vvdOp (u : Use) (sw : Bool) (f : Word32 → Word32 → Word32 → Word32) : VecOp := laneOp u sw (fun i => [f i.a i.b i.c])

/-- A word and a uniform operand. -/
def vsOp (u : Use) (sw : Bool) (f : Word32 → Word32 → Word32) : VecOp := laneOp u sw (fun i => [f i.a i.u])

/-- A word, a uniform operand and the destination. -/
def vsdOp (u : Use) (sw : Bool) (f : Word32 → Word32 → Word32 → Word32) : VecOp := laneOp u sw (fun i => [f i.a i.u i.b])

/-- A one-source operation. -/
def vuOp (u : Use) (sw : Bool) (f : Word32 → Word32) : VecOp := laneOp u sw (fun i => [f i.a])

/-- A shadowed binary32 operation: its exact value rounded once, and its shadow (06 R186, 21 R494). -/
def fpOp (u : Use) (sw : Bool) (v : LaneIn → FVal) (w : LaneIn → Word32) : VecOp :=
  { laneOp u sw (fun i => [w i]) with shadowed := true, shadow := laneShadow (fun i => shadow32 (v i)) }

/-- A shadowed transcendental: subnormal results become zeros (06 R184). -/
def transOp (u : Use) (sw : Bool) (v : Word32 → FVal) (w : Word32 → Word32) : VecOp :=
  { laneOp u sw (fun i => [w i.a]) with shadowed := true, shadow := laneShadow (fun i => ftzShadow (shadow32 (v i.a))), bound := 24 }

/-- A pair result. -/
def pairOp (u : Use) (sw : Bool) (f : LaneIn → Word64) : VecOp := laneOp u sw (fun i => [lowWord (f i), highWord (f i)])

/-! ### Integer results (09 R257-R260) -/

/-- The s32 range. -/
def clampS32 (x : Int) : Word32 := BitVec.ofInt 32 (max (-2147483648) (min 2147483647 x))

def imulhW (a b : Word32) : Word32 := BitVec.extractLsb' 32 32 (sext 64 a * sext 64 b)
def imulhnW (a b : Word32) : Word32 := BitVec.extractLsb' 32 32 (zext 64 a * zext 64 b)
def iaddsatW (a b : Word32) : Word32 := clampS32 (a.toInt + b.toInt)
def isubsatW (a b : Word32) : Word32 := clampS32 (a.toInt - b.toInt)
def iminW (a b : Word32) : Word32 := if b.slt a then b else a
def imaxW (a b : Word32) : Word32 := if a.slt b then b else a
def nminW (a b : Word32) : Word32 := if b.ult a then b else a
def nmaxW (a b : Word32) : Word32 := if a.ult b then b else a
def iaddminW (a b d : Word32) : Word32 := iminW d (iaddsatW a b)
def shlW (a b : Word32) : Word32 := a <<< (field 0 5 b).toNat
def shrW (a b : Word32) : Word32 := a >>> (field 0 5 b).toNat
def sarW (a b : Word32) : Word32 := a.sshiftRight (field 0 5 b).toNat
def rotlW (a b : Word32) : Word32 := (a <<< (field 0 5 b).toNat) ||| (a >>> (32 - (field 0 5 b).toNat))
def iabsW (a : Word32) : Word32 := if a.slt 0 then -a else a

/-- Leading zero bits, from bit `n - 1` down. -/
def clzFrom (a : BitVec w) : Nat → Nat
  | 0 => 0
  | n + 1 => if a.getLsbD n then 0 else 1 + clzFrom a n

/-- Trailing zero bits among the `n` bits from bit `i` up. -/
def ctzFrom (a : BitVec w) : Nat → Nat → Nat
  | 0, _ => 0
  | n + 1, i => if a.getLsbD i then 0 else 1 + ctzFrom a n (i + 1)

/-- One bits among the lowest `n`. -/
def popFrom (a : BitVec w) : Nat → Nat
  | 0 => 0
  | n + 1 => (if a.getLsbD n then 1 else 0) + popFrom a n

/-- Bit `i` moved to bit `31 - i`, for the lowest `n` bits. -/
def revFrom (a : Word32) : Nat → Word32
  | 0 => 0#32
  | n + 1 => (if a.getLsbD n then BitVec.ofNat 32 (2 ^ (31 - n)) else 0#32) ||| revFrom a n

/-- One byte of `bperm` (09 R260). -/
def bpermByte (a b : Word32) (i : Nat) : Byte :=
  if b.getLsbD (8 * i + 7) then 0#8 else a.extractLsb' (8 * (field (8 * i) 2 b).toNat) 8

/-- `bperm`. -/
def bpermW (a b : Word32) : Word32 := bpermByte a b 3 ++ bpermByte a b 2 ++ bpermByte a b 1 ++ bpermByte a b 0

/-- `fcopysign`. -/
def copysignW (a b : Word32) : Word32 := (a &&& 0x7FFFFFFF#32) ||| (b &&& 0x80000000#32)

/-- `nabsdiff`. -/
def nabsdiffW (a b : Word32) : Word32 := if a.ult b then b - a else a - b

/-- The bit field of bfe and bfi: position and length (09 R260). -/
def bfPos (b : Word32) : Nat := (field 0 5 b).toNat
def bfLen (b c : Word32) : Nat := min (field 0 6 c).toNat (32 - bfPos b)
/-- The mask of the lowest `n` bits of a word. -/
def ones32 (n : Nat) : Word32 := BitVec.ofNat 32 (2 ^ n - 1)

/-- `bfe`. -/
def bfeW (a b c : Word32) : Word32 := (a >>> bfPos b) &&& ones32 (bfLen b c)

/-- `bfi`. -/
def bfiW (a b c d : Word32) : Word32 :=
  (d &&& ~~~(ones32 (bfLen b c) <<< bfPos b)) ||| ((a &&& ones32 (bfLen b c)) <<< bfPos b)

/-! ### Packed halves (09 R263) -/

/-- The two elements of a word, each computed on its own. -/
def halves (f : Nat → Nat → Nat) (a b : Word32) : Word32 :=
  BitVec.ofNat 16 (f (field 16 16 a).toNat (field 16 16 b).toNat) ++ BitVec.ofNat 16 (f (field 0 16 a).toNat (field 0 16 b).toNat)

/-- The two elements of a word with a third operand. -/
def halves3 (f : Nat → Nat → Nat → Nat) (a b d : Word32) : Word32 :=
  BitVec.ofNat 16 (f (field 16 16 a).toNat (field 16 16 b).toNat (field 16 16 d).toNat)
    ++ BitVec.ofNat 16 (f (field 0 16 a).toNat (field 0 16 b).toNat (field 0 16 d).toNat)

/-- A binary64 operation on pairs. -/
def w64 (n : Nat) : Word64 := BitVec.ofNat 64 n

end Sys2Proof.Machine
end

