-- ==== Sys2Proof/Machine/Control.lean ====
section
/-! DEFINITION. Branches, the link register, yield and extended registers (08 R228-R232, R235, R246-R251). -/
namespace Sys2Proof.Machine

/-- The target of a branch (07 R213, 08 R228). -/
def branchTarget (pc : Word64) (off : BitVec n) : Word64 := pc + 2 * sext 64 off

/-- The checks of the branch unit (18 R435). -/
def ctChecks (u : Use) : State → Issue → Sel → Group → List (Option Stop) := fun _ is sel g => stdChecks u is sel g

/-- A branch that sends thread L of the active threads to `f g L`. -/
def branchOp (u : Use) (sw : Bool) (f : Issue → ReplayEntry → Group → Nat → Word64) : Op :=
  { use := u, sw := sw, checks := ctChecks u
    effect := fun is sel e => onGroup (fun g => g.modLanes sel.mask (fun L t => { t with pc := f is e g L })) sel }

/-- `bra` (08 R228). -/
def execBra (o : BitVec 18) (sw : Bool) (s : State) : Host.Outcome State Fault Refusal :=
  issue (branchOp {} sw (fun is _ _ _ => branchTarget is.pc o)) s

/-- `brp` (08 R228): a thread whose predicate, inverted by n, is true goes to the target, the others on. -/
def execBrp (p : BitVec 3) (n : BitVec 1) (o : BitVec 18) (sw : Bool) (s : State) : Host.Outcome State Fault Refusal :=
  issue (branchOp { psrc := [p.toNat] } sw
    (fun is _ g L => if (g.thread L).pget p.toNat != (n == 1) then branchTarget is.pc o else is.next)) s

/-- `call` (08 R228): LNK takes the address after the call, 2 clocks after its issue (08 R245). -/
def execCall (o : BitVec 18) (sw : Bool) (s : State) : Host.Outcome State Fault Refusal :=
  issue { use := { lnkW := true }, sw := sw, checks := ctChecks { lnkW := true }
          effect := fun is sel e s =>
            let x := vectorEffect { use := { lnkW := true }, sw := sw, bound := 2, writes := fun _ _ ins => ins.map (fun i => .lnk i.L is.next) } is sel e s
            (x.1.modGroup sel.g (fun g => g.modLanes sel.mask (fun _ t => { t with pc := branchTarget is.pc o })), x.2) } s

/-- A uniform branch: one test for the bundle (08 R239). -/
def uniformBranch (u : Use) (o : BitVec 14) (sw : Bool) (take : Word64 → Bool) : Op :=
  branchOp u sw (fun is e _ _ => if take (e.uni.getD 0 0) then branchTarget is.pc o else is.next)

/-- `s.bra` (08 R239). -/
def execSBra (o : BitVec 14) (sw : Bool) (s : State) : Host.Outcome State Fault Refusal :=
  issue (uniformBranch {} o sw (fun _ => true)) s

/-- `s.brz` (08 R239). -/
def execSBrz (u : BitVec 8) (o : BitVec 14) (sw : Bool) (s : State) : Host.Outcome State Fault Refusal :=
  issue (uniformBranch { ssrc := [u.toNat] } o sw (fun x => x == 0)) s

/-- `s.brnz` (08 R239). -/
def execSBrnz (u : BitVec 8) (o : BitVec 14) (sw : Bool) (s : State) : Host.Outcome State Fault Refusal :=
  issue (uniformBranch { ssrc := [u.toNat] } o sw (fun x => x != 0)) s

/-- `s.brlt` (08 R239). -/
def execSBrlt (u : BitVec 8) (o : BitVec 14) (sw : Bool) (s : State) : Host.Outcome State Fault Refusal :=
  issue (uniformBranch { ssrc := [u.toNat] } o sw (fun x => bit x 63)) s

/-- `nop` (08 R238). -/
def execNop (sw : Bool) (s : State) : Host.Outcome State Fault Refusal :=
  issue { use := {}, sw := sw, checks := ctChecks {}, effect := fun _ sel _ => onGroup (fun g => g) sel } s

/-- `ret` (08 R232). -/
def execRet (sw : Bool) (s : State) : Host.Outcome State Fault Refusal :=
  issue (branchOp { lnkR := true } sw (fun _ _ g L => (g.thread L).lnk &&& ~~~(1#64))) s

/-- The pair operand of `jmp` and `wrlnk`. -/
def usePair (a : BitVec 6) : Use := { vsrc := [{ reg := a.toNat, cnt := 2 }] }

/-- `jmp` (08 R232). -/
def execJmp (a : BitVec 6) (sw : Bool) (s : State) : Host.Outcome State Fault Refusal :=
  issue (branchOp (usePair a) sw
    (fun is _ g L => (g.gather (usePair a) is.replay L).d 0 &&& ~~~(1#64))) s

/-- `rdlnk` (08 R232): taint and poison of both words cleared. -/
def execRdlnk (a : BitVec 6) (sw : Bool) (s : State) : Host.Outcome State Fault Refusal :=
  issueVector { use := { vdst := [(a.toNat, 2)], lnkR := true }, sw := sw, bound := 2
                writes := fun g _ ins => ins.flatMap (fun i =>
                  [.v i.L a.toNat (lowWord (g.thread i.L).lnk) false false, .v i.L (a.toNat + 1) (highWord (g.thread i.L).lnk) false false]) } s

/-- `wrlnk` (08 R232). -/
def execWrlnk (a : BitVec 6) (sw : Bool) (s : State) : Host.Outcome State Fault Refusal :=
  issueVector { use := { usePair a with lnkW := true }, sw := sw, bound := 1, writes := fun _ _ ins => ins.map (fun i => .lnk i.L (i.d 0)) } s

/-- `yield` (08 R235): the effect of the marker, and the bundle is not chosen by lowest PC until another has issued. -/
def execYield (_sw : Bool) (s : State) : Host.Outcome State Fault Refusal :=
  issue { use := {}, sw := true, checks := ctChecks {}
          effect := fun _ sel _ => onGroup (fun g => g.modLanes sel.bundle (fun _ t => { t with yielded := true })) sel } s

/-! ### Extended registers (08 R246-R251) -/

/-- An amount that passes the role's largest extended count is an illegal operand of kind 7 (08 R247). -/
def xregStop (x : BitVec 3) (sel : Sel) (g : Group) : Option Stop :=
  if g.place.xmax < g.regs.xheld + 8 * x.toNat then some (illegal sel.mask 7 (8 * x.toNat)) else none

/-- The effect of `xreg.acq`: the request joins the tail of its partition's queue and the bundle waits at the instruction. -/
def xregAcqEffect (x : BitVec 3) (is : Issue) (sel : Sel) (e : ReplayEntry) (s : State) : State × Option LaneStop :=
  match s.group sel.g with
  | none => (s, none)
  | some g =>
    let s := s.modGroup sel.g (fun g => g.modLanes sel.bundle (fun _ t => { t with wait := .xregAcq, pc := is.pc }))
    let s := s.modPart g.partIndex (fun p => { p with xqueue := p.xqueue ++ [{ g := sel.g, bundle := sel.bundle, n := 8 * x.toNat, entry := e }] })
    (s.grantX g.partIndex, none)

/-- `xreg.acq` (08 R247). -/
def execXregAcq (x : BitVec 3) (sw : Bool) (s : State) : Host.Outcome State Fault Refusal :=
  issue { use := {}, sw := sw, checks := fun _ _ sel g => [xregStop x sel g], effect := xregAcqEffect x } s

/-- A write of the group to one of its extended registers is outstanding; what an instruction still waiting for its values will write is not known, so
it counts, and so does an atomic that waits at the gate. -/
def State.xregPending (s : State) (gi : Nat) (g : Group) : Bool :=
  g.flow.outstanding.any (fun o => o.writes.isEmpty || o.writes.any (fun w => match w with
    | .v _ n _ _ _ => decide (g.place.base ≤ n)
    | _ => false))
  || s.cores.any (fun c => c.2.gate.any (fun h => h.g == gi && (match h.act with
    | .atomic _ (some d) _ => decide (g.place.base ≤ d + 1)
    | _ => false)))

/-- `xreg.rel` (08 R249): it waits for the outstanding writes; the head of the queue may be granted on the same clock. -/
def execXregRel (sw : Bool) (s : State) : Host.Outcome State Fault Refusal :=
  issue { use := {}, sw := sw, checks := fun _ _ _ _ => []
          instead := fun s is sel g => if g.regs.xheld ≠ 0 && s.xregPending sel.g g then some (s.holdBack is sel) else none
          effect := fun _ sel _ s =>
            match s.group sel.g with
            | none => (s, none)
            | some g => ((s.modGroup sel.g Group.freeX).grantX g.partIndex, none) } s

/-- The effect of `xreg.try` (08 R248): it grants at once when the queue is empty and the lanes have room, else writes 0. -/
def xregTryEffect (d : BitVec 8) (x : BitVec 3) (_ : Issue) (sel : Sel) (_ : ReplayEntry) (s : State) : State × Option LaneStop :=
  match s.group sel.g with
  | none => (s, none)
  | some g =>
    let ok := (s.part g.partIndex).xqueue.isEmpty && s.xregFits g (8 * x.toNat)
    (s.modGroup sel.g (fun g =>
      let g := if ok then g.grantX (8 * x.toNat) else g
      (g.setS d.toNat (if ok then 1 else 0)).noteSplit sel.bundle), none)

/-- `xreg.try` (08 R248). -/
def execXregTry (d : BitVec 8) (x : BitVec 3) (sw : Bool) (s : State) : Host.Outcome State Fault Refusal :=
  issue { use := { sdst := [d.toNat] }, sw := sw
          checks := fun _ _ sel g => [operandStop g sel.mask { sdst := [d.toNat] }, xregStop x sel g]
          effect := xregTryEffect d x } s

end Sys2Proof.Machine
end

