-- ==== Sys2Proof/Machine/Checker.lean ====
section
/-! DEFINITION. Run-time checking: scopes (04 R127-R132), the allowed-reordering table (05 R169-R174), the reorder checker's events and
stamps (05 R171, R173), findings and containment (20 R464-R473), and the release gate (05 R175-R178). -/
namespace Sys2Proof.Machine

/-! ### Scopes (04 R127-R132) -/

/-- Cores of a block. -/
def State.blockCores (s : State) (b : Nat) : List Nat := ((Tab.get? b s.blks).map (fun x => x.parts.map (·.core))).getD []

/-- A programmable entry of the context's scope table is valid (04 R128); entries 0 to 7 are the fixed ones. -/
def State.scopeValid (s : State) (ctx : Nat) (e : BitVec 5) : Bool :=
  e.toNat < 8 || ((s.context ctx).bind (fun c => Tab.get? e.toNat c.scopes)).isSome

/-- The cores of a programmable entry's resolved set (04 R127). -/
def State.scopeCores (s : State) (ctx core : Nat) (e : BitVec 5) : List Nat :=
  match (s.context ctx).bind (fun c => Tab.get? e.toNat c.scopes) with
  | some m => (List.range 192).filter (fun c => m.getLsbD c || c == core)
  | none => [core]

/-- The resolved set of a scope entry (04 R127): the threads of a group or of a block, the threads and engines of cores, or the whole device, alone or with
the host's agents or the peers of the context's fabric domain. -/
inductive ScopeSet where
  | group (g : Nat)
  | block (b : Nat)
  | cores (l : List Nat)
  | device
  | host
  | fabric
deriving DecidableEq, Repr

/-- The cores of a die, a cluster or a core by the number of its first core. -/
def coresFrom (c n : Nat) : List Nat := (List.range n).map (fun i => c + i)

/-- The resolved set of an entry for an event of a thread (04 R127), from the placement of its group as it is now (R129). -/
def State.resolve (s : State) (ctx gi blk core : Nat) (e : BitVec 5) : ScopeSet :=
  if e = 0 then .group gi
  else if e = 1 then .block blk
  else if e = 2 then .cores [core]
  else if e = 3 then .cores (coresFrom (core / 4 * 4) 4)
  else if e = 4 then .cores (coresFrom (core / 48 * 48) 48)
  else if e = 5 then .device
  else if e = 6 then .host
  else if e = 7 then .fabric
  else .cores (s.scopeCores ctx core e)

/-- Whose event it is (04 R130): a thread's, that of an engine which a group started on a core, another agent's of the device, the host's or a peer's. -/
inductive Party where
  | thread (g : Nat)
  | engine (g core : Nat)
  | device
  | host
  | peer
deriving DecidableEq, Repr

/-- The resolved set includes a party (04 R127, R130). -/
def State.inScope (s : State) (x : ScopeSet) (p : Party) : Bool :=
  match x, p with
  | .group g, .thread h => h == g
  | .group g, .engine h _ => h == g
  | .block b, .thread h => (s.group h).any (fun y => y.place.blk == b)
  | .block b, .engine h _ => (s.group h).any (fun y => y.place.blk == b)
  | .cores l, .thread h => (s.group h).any (fun y => l.contains y.place.core)
  | .cores l, .engine _ c => l.contains c
  | .device, .host => false
  | .device, .peer => false
  | .device, _ => true
  | .host, .peer => false
  | .host, _ => true
  | .fabric, .host => false
  | .fabric, _ => true
  | _, _ => false

/-- Two events have matching scopes when each one's scope includes the other (04 R130). -/
def State.matching (s : State) (x y : ScopeSet) (px py : Party) : Bool := s.inScope x py && s.inScope y px

/-- The class of a scope entry (04 R132) for a thread of a core. -/
def State.scopeClass (s : State) (ctx core : Nat) (e : BitVec 5) : Nat :=
  let n := e.toNat
  if n < 3 then 0
  else if n < 5 then 1
  else if n < 8 then 2
  else if (s.scopeCores ctx core e).all (fun c => dieOfCore c == dieOfCore core) then 1 else 2

/-- The block of a group is spread over several cores (05 R170). -/
def State.spread (s : State) (gi : Nat) : Bool := ((s.group gi).map (fun g => decide (1 < (s.blockCores g.place.blk).length))).getD false

/-! ### The allowed-reordering table (05 R172, R174) -/

/-- Columns with an entry in the row of a kind. -/
def artColumns (x : Nat) : List Nat :=
  if [2, 6, 8, 9, 11, 12, 14, 16].contains x then List.range 17
  else if [0, 3, 5, 7].contains x then [4, 7, 8, 9, 10, 11, 12, 13, 15]
  else if x = 10 then [1, 4, 5, 6, 7, 8, 10, 11, 12, 13, 15]
  else [4, 7, 8, 10, 11, 12, 13, 15]

/-- The entry of a class, an earlier kind and a later kind. -/
def artEntry (cls x y : Nat) : Nat :=
  if x = 12 ∧ y = 12 then 3 else if (artColumns x).contains y then (if cls = 0 then 1 else 2) else 0

/-- The entry of an index (05 R174); past 866 it is 0. -/
def artAt (e : Nat) : Nat := if e ≤ 866 then artEntry (e / 289) (e % 289 / 17) (e % 17) else 0

/-- An ART register: `n` counts from 0x070 (05 R174). -/
def artRegister (n : Nat) : Word64 :=
  if 28 ≤ n then 0#64
  else BitVec.ofNat 64 ((List.range 32).foldl (fun a j => a + artAt (32 * n + j) * 4 ^ j) 0)

/-! ### Kinds (05 R169) -/

/-- Kinds that write. -/
def kindWrites (k : Nat) : Bool := [1, 4, 5, 6, 7, 8, 13, 15].contains k
/-- Kinds that release at the gate. -/
def kindReleases (k : Nat) : Bool := [4, 7, 8, 10, 11, 12, 13, 15].contains k
/-- Kinds that acquire. -/
def kindAcquires (k : Nat) : Bool := [2, 3, 6, 8].contains k

/-! ### Findings (20 R465-R473) -/

/-- The event writes memory or scratchpad. -/
def MemEvent.writes (e : MemEvent) : Bool := kindWrites e.kind && (e.line.isSome || !e.locs.isEmpty)

/-- The first write that follows an event in the program order of its threads. -/
def firstWrite (l : List MemEvent) (y : MemEvent) : Option MemEvent :=
  l.foldl (fun a e =>
    if y.id < e.id && e.g == y.g && e.mask &&& y.mask != 0 && e.writes && a.all (fun b => e.id < b.id) then some e else a) none

/-- The event whose line a reorder finding contains (20 R465): of a fence that releases, the first write that follows it, none while none has performed; else
the later event if it has an access, or the earlier one. -/
def findingEvent (l : List MemEvent) (x y : MemEvent) : Option MemEvent :=
  if [10, 11, 12].contains y.kind then firstWrite l y else some (if y.line.isSome || !y.locs.isEmpty then y else x)

/-- The line a reorder finding contains (20 R465); scratchpad has none. -/
def findingLine (l : List MemEvent) (x y : MemEvent) : Option Nat := (findingEvent l x y).bind (·.line)

/-- A reorder finding of the pair (20 R469, R472, R473), with the event whose line it contains. One in scratchpad stops every group of the block; its record has
line 0 (DESIGN CHOICE, log 112). -/
def State.findingAt (s : State) (core : Nat) (code : BitVec 16) (x y e : MemEvent) (injected : Bool) (g : Group) : State :=
  let scope : BitVec 8 := 0#1 ++ BitVec.ofNat 2 y.cls ++ y.scope
  let iv := (e.stamp.map stampInterval).getD ((e.line.map (fun ln => (s.line ln).interval)).getD 0)
  let cont : Containment := { code := code, interval := iv, scope := scope, prior := 0, kindY := y.kind, injected := injected }
  let rep : Report :=
    { code := code, path := corePath core 8 0, info := BitVec.ofNat 16 g.place.gidx ||| (if injected then 0x200 else 0), slice := s.homeSlice g.place.ctx,
      detail := containmentDetail (e.line.getD 0) cont 0xFF x.kind y.kind ((y.stamp.map stampTime).getD 0) 0 0 }
  match e.line with
  | some ln =>
    let old := (s.line ln).contained
    let s := (s.contain ln code scope y.kind injected).modCore core (fun c => c.forget ln)
    let s := if old.isSome then s else s.modLine ln (fun l => { l with contained := l.contained.map (fun k => { k with interval := iv, ctx := some g.place.ctx }) })
    s.findingStop y.g y.mask code e.ptr rep
  | none =>
    if e.locs.isEmpty then s.findingStop y.g y.mask code e.ptr rep
    else (s.groups.filter (fun k => k.2.place.blk == g.place.blk)).foldl (fun s k =>
      s.findingStop k.1 (if k.1 = y.g then y.mask else k.2.live) code e.ptr rep) s

/-- A reorder finding (20 R465). That of a fence waits for the write whose line it contains. -/
def State.finding (s : State) (core : Nat) (code : BitVec 16) (x y : MemEvent) (injected : Bool) : State :=
  match s.group y.g with
  | none => s
  | some g =>
    match findingEvent ((s.coreAt core).events ++ (s.coreAt core).verified) x y with
    | none => s.modCore core (fun c => { c with deferred := c.deferred ++ [{ code := code, x := x, y := y, injected := injected }] })
    | some e => s.findingAt core code x y e injected g

/-- The write that findings of earlier fences waited for has performed (20 R465). -/
def State.settleDeferred (s : State) (core : Nat) (e : MemEvent) : State :=
  let due := fun (d : DeferredFinding) => e.writes && d.y.g == e.g && d.y.mask &&& e.mask != 0
  let l := (s.coreAt core).deferred.filter due
  if l.isEmpty then s
  else l.foldl (fun s d => s.finding core d.code d.x d.y d.injected) (s.modCore core (fun c => { c with deferred := c.deferred.filter (fun d => !due d) }))

/-! ### Events and stamps (05 R161, R171, R173) -/

/-- Two events touch a common location. -/
def commonLocation (x y : MemEvent) : Bool :=
  x.locs.any (fun a => y.locs.any (fun b => a.1 < b.1 + b.2 && b.1 < a.1 + a.2))

/-- INTERVAL first, TIME second (05 R173). -/
def stampBefore (a b : BitVec 96) : Bool :=
  if stampInterval a = stampInterval b then laterTime (stampTime b) (stampTime a)
  else !bit (stampInterval b - stampInterval a) 31

/-- The class of a pair (05 R170): the wider of its scoped members' classes; local pairs of a spread block that touch global memory or another core's scratchpad
are treated as regional. -/
def pairClass (spread : Bool) (x y : MemEvent) : Nat :=
  let c := max x.cls y.cls
  if c = 0 && spread && (x.outside || y.outside) then 1 else c

/-- The ART entry of a pair, earlier event first (05 R172). -/
def pairEntry (spread : Bool) (x y : MemEvent) : Nat := artEntry (pairClass spread x y) x.kind y.kind

/-- A write that performed in the issuing core's L1 and whose line's close the home has not confirmed: it has no stamp of LEVEL 1 (05 R175). -/
def MemEvent.unconfirmed (x : MemEvent) : Bool := kindWrites x.kind && x.line.isSome && (x.stamp.map stampLevel) == some 0

/-- The stamps of an earlier and a later event break their ART entry (05 R171). A read that performed at LEVEL 0 meets an entry of 2 by its TIME (DEDUCED,
log 20); a write does only by the close of its line (R175). -/
def breaksEntry (n : Nat) (x y : MemEvent) (a b : BitVec 96) : Bool :=
  n != 0 && (!laterTime (stampTime b) (stampTime a) || (decide (2 ≤ n) && x.unconfirmed && kindReleases y.kind)
    || (n == 3 && (!y.after.any (fun t => laterTime t (stampTime a)) || match x.seq, y.seq with
        | some p, some q => p.1 == q.1 && decide (q.2.toNat ≤ p.2.toNat)
        | _, _ => true)))

/-- The stamps of an earlier and a later event of one thread break their ART entry, or the order of a common location (05 R171, R173). -/
def breaksOrder (spread : Bool) (x y : MemEvent) : Bool :=
  match x.stamp, y.stamp with
  | some a, some b =>
    x.g == y.g && x.mask &&& y.mask != 0 && (breaksEntry (pairEntry spread x y) x y a b || (commonLocation x y && !stampBefore a b))
  | _, _ => false

/-- A pair, earlier event first, that the arrived stamp of `e` shows broken. -/
def brokenPair (spread : Bool) (l : List MemEvent) (e : MemEvent) : Option (MemEvent × MemEvent) :=
  match l.find? (fun x => x.id < e.id && breaksOrder spread x e) with
  | some x => some (x, e)
  | none => (l.find? (fun y => e.id < y.id && breaksOrder spread e y)).map (fun y => (e, y))

/-- The event alone shows an order broken: a wait is not later than the flip it observed, or a fence than its number (05 R178). -/
def MemEvent.early (e : MemEvent) : Bool :=
  match e.after, e.stamp with
  | some t, some b => !laterTime (stampTime b) t
  | _, _ => false

/-- Of two `fence.sc` served by one sequencer the one with the higher number carries the later TIME (05 R178). -/
def fencesAgree (x y : MemEvent) : Bool :=
  match x.seq, y.seq, x.stamp, y.stamp with
  | some p, some q, some a, some b =>
    p.1 != q.1 || x.id == y.id || (if p.2.toNat < q.2.toNat then laterTime (stampTime b) (stampTime a) else laterTime (stampTime a) (stampTime b))
  | _, _, _, _ => true

/-- A fence of the device that disagrees with one that has just performed. -/
def State.fenceConflict (s : State) (e : MemEvent) : Option MemEvent :=
  s.cores.findSome? (fun c => (c.2.events ++ c.2.verified).find? (fun x => !fencesAgree x e))

/-- Move a stamped event to the verified ones, in place of the same threads' latest of its kind and line. -/
def Core.verify (c : Core) (e : MemEvent) : Core :=
  { c with events := c.events.filter (fun x => x.id != e.id)
           verified := c.verified.filter (fun x => !(x.g == e.g && x.kind == e.kind && x.mask == e.mask && x.line == e.line && x.locs == e.locs)) ++ [e] }

/-- A fresh number for a request, an event or a held release. -/
def State.bumpId (s : State) : State := { s with nextId := s.nextId + 1 }

/-- A write of some sectors of a line enters a written-line set. -/
def writeLine (ln : Nat) (sectors : BitVec 4) (iv : BitVec 32) (id : Nat) (l : List WrittenLine) : List WrittenLine :=
  let old := l.find? (fun x => x.line == ln)
  l.filter (fun x => x.line != ln)
    ++ [{ line := ln, sectors := sectors ||| (old.map (·.sectors)).getD 0, interval := (old.map (·.interval)).getD iv, last := id }]

/-- A written line enters the three written-line sets (05 R176). -/
def Core.wrote (c : Core) (ln : Nat) (sectors : BitVec 4) (iv : BitVec 32) (id : Nat) : Core :=
  { c with written0 := writeLine ln sectors iv id c.written0, written1 := writeLine ln sectors iv id c.written1,
           written2 := writeLine ln sectors iv id c.written2 }

/-- A destination write of an engine that the core started enters its written-line sets (05 R176). -/
def State.engineWrote (s : State) (core pa : Nat) : State :=
  s.bumpId.modCore core (fun c => c.wrote (lineOf pa) (sectorBit (sectorOf pa)) (s.line (lineOf pa)).interval s.nextId)

/-- Put an event into a core's reorder checker and its stamp on its way; a write enters the three written-line sets (05 R176). -/
def State.addEvent (s : State) (core : Nat) (e : MemEvent) (stamp : BitVec 96) : State :=
  let id := s.nextId
  let iv := stampInterval stamp
  let s := s.bumpId.modCore core (fun c =>
    let c := { c with events := c.events ++ [{ e with id := id, stamp := none, issued := s.timeOf (reorderAgent core) }] }
    match e.line.or (e.locs.head?.map (fun p => lineOf p.1)) with
    | some ln =>
      if kindWrites e.kind then c.wrote ln (e.locs.foldl (fun m p => m ||| sectorBit (sectorOf p.1)) 0) iv id else c
    | none => c)
  (s.push [.stampArrival core id stamp]).settleDeferred core e

/-- Record the event of a fence or of a wait that has no location: its stamp has LEVEL 1, HOME 0, INTERVAL 0 and the TIME of the core's L1 (DESIGN CHOICE,
log 101). -/
def State.plainEvent (s : State) (gi : Nat) (core : Nat) (m : Mask) (kind : Nat) (scope : BitVec 5) (cls : Nat)
    (seq : Option (Nat × BitVec 64) := none) (after : Option (BitVec 48) := none) : State :=
  let s := s.tick core
  s.addEvent core { id := 0, g := gi, mask := m, kind := kind, scope := scope, cls := cls, seq := seq, after := after } (stampOf 1 0 0 (s.timeOf core))

/-! ### The release gate (05 R175-R178) -/

/-- The written-line set of a class. -/
def Core.written (c : Core) (cls : Nat) : List WrittenLine := if cls = 0 then c.written0 else if cls = 1 then c.written1 else c.written2

/-- The event that a held release is. -/
def Held.event (h : Held) : MemEvent := { id := h.id, g := h.g, mask := h.mask, kind := h.kind, scope := h.scope, cls := h.cls, outside := h.outside }

/-- An earlier event of the release's threads lacks the stamp its ART entry requires (05 R175). -/
def unstamped (spread : Bool) (c : Core) (h : Held) : List MemEvent :=
  c.events.filter (fun x => x.g == h.g && x.mask &&& h.mask != 0 && x.id < h.id && x.stamp.isNone && pairEntry spread x h.event != 0)

/-- A store or atomic of the release's threads that a compare buffer still holds has not performed (02 R74). -/
def State.heldBefore (s : State) (h : Held) : Bool :=
  h.bundle != 0 && s.convoys.any (fun c => c.2.lead == h.g && c.2.held.any (fun e => e.bundle &&& h.mask != 0))

/-- A store of the release's threads waits for write ownership. -/
def State.storesBefore (s : State) (h : Held) : Bool := s.stores.any (fun p => p.2.g == h.g && p.2.mask &&& h.mask != 0 && p.1 < h.id)

/-- Stamps, closes and acknowledgements are in. -/
def State.settled (s : State) (core : Nat) (h : Held) : Bool :=
  (unstamped (s.spread h.g) (s.coreAt core) h).isEmpty && h.lines.isEmpty && h.acks.all (fun k => (Tab.get? k s.remotes).isNone)
    && !h.early && !s.heldBefore h && !s.storesBefore h

/-- Change the held release of a number. -/
def Core.modHeld (c : Core) (id : Nat) (f : Held → Held) : Core :=
  { c with gate := c.gate.map (fun h => if h.id = id then f h else h) }

/-- The acknowledgements a release of a scope waits for: host scope those of CXL (04 R153), fabric scope those of Wayline (04 R156), the segments
of the copies that the group kicked among them (13 R385). -/
def State.acksOf (s : State) (g : Nat) (m : Mask) (scope : BitVec 5) : List Nat :=
  if scope = 6 then (s.remotes.filter (fun e => e.2.host && e.2.g == g && e.2.mask &&& m != 0)).map Prod.fst
  else if scope = 7 then (s.remotes.filter (fun e => !e.2.host && e.2.kind != 4 && e.2.g == g && (e.2.kind == 3 || e.2.mask &&& m != 0))).map Prod.fst
  else []

/-- The class at which a release closes its lines and takes its number: a local one of a spread block is treated as regional (05 R170, R178). -/
def State.closingClass (s : State) (h : Held) : Nat := if h.cls = 0 && s.spread h.g then 1 else h.cls

/-- A close at local class is made within the core: its L1 has held the written sectors in M or E throughout one interval since the first write (05 R168). -/
def State.closesLocally (s : State) (core : Nat) (x : WrittenLine) : Bool :=
  (s.line x.line).contained.isNone && (s.line x.line).interval == x.interval
    && (List.range 4).all (fun i => !x.sectors.getLsbD i || s.ownsSector core (4 * x.line + i))

/-- A line of scratchpad, as the events of scratchpad number it: it is closed within the core (05 R177). -/
def scratchLine (ln : Nat) : Bool := decide (2 ^ 52 ≤ ln)

/-- The lines that a release has to close at their homes: all those of its class's written-line set, or for the local class those that its core cannot close
(DEDUCED, log 79); never those of scratchpad. An acquiring fence closes none. -/
def State.linesToClose (s : State) (core : Nat) (h : Held) : List Nat :=
  if !kindReleases h.kind then []
  else
    let cls := s.closingClass h
    (((s.coreAt core).written cls).filter (fun x => !scratchLine x.line && (cls != 0 || !s.closesLocally core x))).map (·.line)

/-- The lines that a release closes and the acknowledgements it waits for, from the stores of its threads that have performed; the closes are sent. -/
def State.startClose (s : State) (core : Nat) (h : Held) : State :=
  let lines := s.linesToClose core h
  (s.modCore core (fun c => c.modHeld h.id (fun x => { x with lines := lines, acks := s.acksOf h.g h.mask h.scope, early := false }))).push
    (lines.map (fun ln => .closeConfirmation core ln))

/-- Releases whose threads' older stores have all performed since send their closes. -/
def State.refreshGate (s : State) (core : Nat) : State :=
  (s.coreAt core).gate.foldl (fun s h => if h.early && !s.heldBefore h && !s.storesBefore h then s.startClose core h else s) s

/-- Send on every release of a core whose conditions hold; a `fence.sc` asks for its sequence number first (05 R175, R178). -/
def State.wakeGate (s : State) (core : Nat) : State :=
  let s := s.refreshGate core
  (s.coreAt core).gate.foldl (fun s h =>
    if !s.settled core h then s
    else if h.sc && h.seq.isNone then
      (if h.asked then s
       else (s.modCore core (fun c => c.modHeld h.id (fun h => { h with asked := true }))).push [.sequenceNumberArrival h.id])
    else s.push [.releasePerform h.id]) s

/-- Hold a release at the gate of its core; its threads issue nothing past it until it performs (log 21), and its class's lines are closed, once its threads'
older stores have performed. -/
def State.holdRelease (s : State) (core : Nat) (h : Held) : State :=
  let id := s.nextId + 1
  let h := { h with id := id }
  let early := s.heldBefore h || s.storesBefore h
  let lines := if early then [] else s.linesToClose core h
  let h := { h with lines := lines, acks := s.acksOf h.g h.mask h.scope, early := early }
  let s := { s with nextId := id + 1 }
  let s := s.modCore core (fun c => { c with gate := c.gate ++ [h] })
  let s := s.modGroup h.g (fun g => g.modLanes h.bundle (fun _ t => { t with wait := .gate, waitOn := id }))
  (s.push (lines.map (fun ln => .closeConfirmation core ln))).wakeGate core

/-- The core at whose gate a release is held, and the release. -/
def State.heldRelease (s : State) (id : Nat) : Option (Nat × Held) :=
  s.cores.findSome? (fun e => (e.2.gate.find? (fun h => h.id == id)).map (fun h => (e.1, h)))

/-- Take a release out of its gate; the lines it closed leave the set of its class and every narrower one (05 R176). A line written again since its close was
sent stays. -/
def State.takeHeld (s : State) (core : Nat) (h : Held) : State :=
  let cls := s.closingClass h
  let keep := fun (l : List WrittenLine) => l.filter (fun x => decide (h.id < x.last))
  s.modCore core (fun c =>
    let c := { c with gate := c.gate.filter (fun x => x.id != h.id) }
    if !kindReleases h.kind then c
    else
      let c := { c with written0 := keep c.written0 }
      if cls = 0 then c
      else
        let c := { c with written1 := keep c.written1 }
        if cls = 1 then c else { c with written2 := keep c.written2 })

/-! ### The events of the checkers -/

/-- What the arrived stamp of an event shows broken (05 R171, R173, R178). -/
def State.orderBroken (s : State) (core : Nat) (e : MemEvent) : Option (MemEvent × MemEvent) :=
  let c := s.coreAt core
  if e.early then some (e, e)
  else (brokenPair (s.spread e.g) (c.events ++ c.verified) e).or (if e.seq.isSome then (s.fenceConflict e).map (fun x => (x, e)) else none)

/-- A perform stamp reaches the reorder checker (05 R173). -/
def execStampArrival (core : Nat) (id : Nat) (stamp : BitVec 96) (s : State) : Host.Outcome State Fault Refusal :=
  match (s.coreAt core).events.find? (fun e => e.id == id) with
  | none => .next s
  | some e =>
    let e := { e with stamp := some stamp }
    let bad := s.orderBroken core e
    let s := (s.receive (reorderAgent core) (stampTime stamp)).modCore core (fun c => c.verify e)
    let s := match bad with
      | some (x, y) => s.finding core 0x4801 x y false
      | none => s
    .next ((s.wakeGate core).retryCore core)

/-- The event's stamp has been pending for 2^40 ticks of its checker's clock (05 R160). -/
def State.stampLate (s : State) (core : Nat) (e : MemEvent) : Bool := decide (2 ^ 40 ≤ (s.timeOf (reorderAgent core) - e.issued).toNat)

/-- A stamp still pending after 2^40 ticks (05 R160, 20 R464). -/
def execReorderCheckerTimeout (core : Nat) (id : Nat) (s : State) : Host.Outcome State Fault Refusal :=
  match (s.coreAt core).events.find? (fun e => e.id == id && s.stampLate core e) with
  | none => .next s
  | some e =>
    let s := s.modCore core (fun c => { c with events := c.events.filter (fun x => x.id != id) })
    .next (((s.finding core 0x4802 e e false).wakeGate core).retryCore core)

/-- The home's confirmation serves the written line's accesses as their LEVEL 1 stamp (05 R175). -/
def Core.confirmed (c : Core) (ln : Nat) (iv : BitVec 32) (t : BitVec 48) (h : Nat) : Core :=
  let up := fun (e : MemEvent) => if e.line == some ln && kindWrites e.kind
    && (e.stamp.map stampLevel) == some 0 then { e with stamp := some (stampOf 1 h iv t) } else e
  { c with events := c.events.map up, verified := c.verified.map up
           gate := c.gate.map (fun r => { r with lines := r.lines.filter (fun x => x != ln) }) }

/-- The confirmation of a close reaches the releasing core (05 R168), whose L1 performs the release later than it (R175); the close of a contained line fails (20 R472). -/
def execCloseConfirmation (core : Nat) (line : Nat) (s : State) : Host.Outcome State Fault Refusal :=
  let s := s.confirmLine line
  match (s.line line).contained with
  | some c =>
    .next ((s.failCloses core line c).wakeGate core)
  | none =>
    let h := homeSliceOf (256 * line)
    let s := s.message (reorderAgent core) (sliceAgent h)
    let t := s.timeOf (sliceAgent h)
    let s := (s.message (sliceAgent h) (reorderAgent core)).message (reorderAgent core) core
    .next (((s.modCore core (fun c => c.confirmed line (s.line line).interval t h)).wakeGate core).retryCore core)

/-- The sequencer of a fence, as an agent (05 R178): the core's own for the local class, slice 0 of the core's die for the regional, of die 0 for the
global. -/
def sequencerOf (core cls : Nat) : Nat := if cls = 0 then reorderAgent core else sliceAgent (if cls = 1 then 16 * dieOfCore core else 0)

/-- The next number of a fence's sequencer and the number's TIME: the request goes from the core through its reorder checker to the sequencer, and the number back
the same way (05 R178). Numbers have 64 bits and begin with 1 (DESIGN CHOICE, log 85). -/
def State.nextFenceNumber (s : State) (core cls : Nat) : State × BitVec 64 × BitVec 48 :=
  let s := s.message core (reorderAgent core)
  if cls = 0 then
    let n := (s.coreAt core).seq + 1
    ((s.message (reorderAgent core) core).modCore core (fun c => { c with seq := n }), n, s.timeOf (reorderAgent core))
  else
    let k := if cls = 1 then 16 * dieOfCore core else 0
    let n := ((Tab.get? k s.slices).getD {}).fenceSeq + 1
    let s := s.message (reorderAgent core) (sliceAgent k)
    ((s.modSlice k (fun x => { x with fenceSeq := n })).message (sliceAgent k) (reorderAgent core) |>.message (reorderAgent core) core, n,
      s.timeOf (sliceAgent k))

/-- The sequence number of a `fence.sc` arrives (05 R178). -/
def execSequenceNumberArrival (id : Nat) (s : State) : Host.Outcome State Fault Refusal :=
  match s.heldRelease id with
  | none => .next s
  | some (core, h) =>
    if h.asked && h.seq.isNone then
      let r := s.nextFenceNumber core (s.closingClass h)
      .next ((r.1.modCore core (fun c => c.modHeld id (fun h => { h with seq := some r.2.1, seqTime := r.2.2 }))).wakeGate core)
    else .next s

end Sys2Proof.Machine
end

