-- ==== Sys2Proof/Machine/Image.lean ====
section
/-! DEFINITION. The byte images of records: the group record with its header, replay queue and thread records (02 R64-R67, 19 R447), and
their writing to memory. An image is a list of fields: offset, bytes, value. -/
namespace Sys2Proof.Machine

/-- A field of an image: offset, bytes, value. -/
abbrev Field := Nat × Nat × Nat

/-- A field of 8 bytes. -/
def q64 (off : Nat) (x : Word64) : Field := (off, 8, x.toNat)

/-- The sectors of which a write of `n` bytes writes all 64 bytes have no poison any more (17 R423). -/
def State.cleanSectors (s : State) (pa n : Nat) : State :=
  if n < 64 then s
  else { s with sectors := s.sectors.map (fun (e : Nat × Sector) =>
    if pa ≤ 64 * e.1 ∧ 64 * e.1 + 64 ≤ pa + n then (e.1, { e.2 with poison := false, ecc := none }) else e) }

/-- Write an image at a physical address. -/
def State.writeFields (s : State) (pa : Nat) (l : List Field) : State :=
  l.foldl (fun s f => (if f.2.2 = 0 then s.clearPhys (pa + f.1) f.2.1 else s.writePhys (pa + f.1) f.2.1 f.2.2).cleanSectors (pa + f.1) f.2.1) s

/-- Write an image in a context's virtual space: a byte whose page does not translate for writing is not written. -/
def State.writeVirtByte (s : State) (core ctx V x : Nat) : State :=
  match s.translate core ctx V { write := true } with
  | (s, .ok (pa, _)) => s.writePhys pa 1 x
  | (s, .error _) => s

/-- The bytes of a value, lowest first. -/
def bytesOf : Nat → Nat → List Nat
  | 0, _ => []
  | n + 1, x => x % 256 :: bytesOf n (x / 256)

/-- Write a value byte by byte in a context's virtual space. -/
def State.writeVirt (s : State) (core ctx V n x : Nat) : State :=
  ((bytesOf n x).zipIdx.foldl (fun s b => s.writeVirtByte core ctx (V + b.2) b.1) s)

/-- Write an image in a context's virtual space. -/
def State.writeVirtFields (s : State) (core ctx V : Nat) (l : List Field) : State :=
  l.foldl (fun s f => s.writeVirt core ctx (V + f.1) f.2.1 f.2.2) s

/-- The flags byte of a thread record (02 R66). -/
def Thread.flags (t : Thread) : Nat :=
  (if t.exited then 1 else 0) + (if t.wait == .gbar then 2 else 0) + (if t.wait == .svc then 4 else 0)
    + (if t.parked then 8 else 0) + (if t.wait == .mx then 16 else 0)

/-- A thread record (02 R66). -/
def Thread.fields (base : Nat) (t : Thread) : List Field :=
  [q64 base t.pc, q64 (base + 8) t.lnk]
    ++ (List.range 64).map (fun n => (base + 16 + 4 * n, 4, (t.vreg n).toNat))
    ++ [(base + 272, 8, t.taint.toNat), (base + 280, 8, t.poison.toNat), (base + 288, 1, (t.pred ||| 0x80#8).toNat),
        (base + 289, 1, t.flags), (base + 290, 2, t.waitCount % 65536)]

/-- A replay-queue entry (02 R67). -/
def ReplayEntry.fields (base : Nat) (e : ReplayEntry) : List Field :=
  [(base, 4, e.word.toNat), (base + 4, 4, 1 + (if e.short then 2 else 0) + (if e.reread then 4 else 0)), q64 (base + 8) e.pc,
   q64 (base + 16) e.mask, q64 (base + 24) e.done]
    ++ e.src.map (fun k => (base + 32 + 256 * (k.1 / 64) + 4 * (k.1 % 64), 4, k.2.toNat))
    ++ (e.uni.take 2).zipIdx.map (fun k => (base + 800 + 8 * k.2, 8, k.1.toNat))
    ++ [(base + 816, 24, e.taint.toNat)]

/-- The entries of the queue: those of the trap, then those captured by a save (19 R452). -/
def TrapFrame.entries (t : TrapFrame) : List ReplayEntry := t.queue ++ t.captured

/-- Header word +232 (19 R447): the number of the pending event while the group is held or escalated. -/
def Group.holdWord (g : Group) : Word64 :=
  (if g.trap.held || g.st == .saving 2 then BitVec.ofNat 32 g.trap.heldSeq else 0) ++ 0#22 ++ ofBool 1 g.trap.divergePending ++ ofBool 1 g.trap.held ++ 0#3 ++ BitVec.ofNat 5 g.trap.captured.length

/-- The nested fields (19 R447). -/
def Group.nestedFields (g : Group) : List Field :=
  (match g.trap.nested with
   | some n => [(192, 8, n.code.toNat + 65536), (200, 8, n.pc.toNat), (208, 8, n.mask.toNat), (216, 8, n.done.toNat)]
   | none => [(192, 8, 0), (200, 8, 0), (208, 8, 0), (216, 8, 0)])
    ++ [(224, 8, g.trap.bundle.toNat), (232, 8, g.holdWord.toNat)]

/-- The group header (02 R65). -/
def Group.header (g : Group) (imask : Word64) (pendingX : Nat) (retries : Nat) : List Field :=
  let w0 : Word64 := 0#24 ++ BitVec.ofNat 8 g.regs.xheld ++ BitVec.ofNat 8 g.place.base ++ BitVec.ofNat 8 g.place.gidx ++ 0#4
    ++ g.place.role ++ g.place.wcode ++ 1#8
  [q64 0 w0, q64 8 g.ustat, q64 16 g.regs.gang, q64 24 g.regs.iter, (32, 4, g.regs.qslot.toNat)]
    ++ (List.range 3).map (fun i => (36 + 4 * i, 4, (Assoc.get (i + 1) g.regs.perm).toNat))
    ++ (List.range 16).map (fun i => (48 + 4 * i, 4, (g.kget i).toNat))
    ++ [q64 112 g.trap.cause, q64 120 g.trap.pc, q64 128 g.trap.addr, q64 136 g.trap.mask,
        (144, 8, g.trap.queue.length), q64 152 g.place.vec, q64 160 imask, q64 168 g.live, (176, 8, pendingX),
        (184, 8, g.convoy.held % 65536 + 65536 * (g.convoy.waystations % 65536) + 2 ^ 32 * (retries % 4))]
    ++ g.nestedFields

/-- Uniform registers of an image. -/
def Group.uniformFields (g : Group) (base : Nat) : List Field := (List.range 160).map (fun i => (base + 8 * i, 8, (g.sget i).toNat))

/-- The replay queue region: 24 entries, unused ones zero. -/
def Group.queueFields (g : Group) (base : Nat) : List Field :=
  (List.range 24).flatMap (fun i =>
    match g.trap.entries[i]? with
    | some e => (base + 1024 * i, 1024, 0) :: e.fields (base + 1024 * i)
    | none => [(base + 1024 * i, 1024, 0)])

/-- Thread records of an image, from index `i`. -/
def threadFields (base : Nat) : Nat → List Thread → List Field
  | _, [] => []
  | i, t :: ts => t.fields (base + 320 * i) ++ threadFields base (i + 1) ts

/-- The group record (02 R64). -/
def Group.record (g : Group) (imask : Word64) (pendingX retries : Nat) : List Field :=
  (0, 512, 0) :: g.header imask pendingX retries ++ g.queueFields 512 ++ g.uniformFields 25088
    ++ (26368, 320 * g.width, 0) :: threadFields 26368 0 g.threads

/-- Bytes of a group record (02 R64). -/
def Group.recordSize (g : Group) : Nat := 26368 + 320 * g.width

/-- A waystation snapshot: the record without the replay-queue region (02 R77). -/
def Group.snapshot (g : Group) (imask : Word64) (pendingX retries : Nat) : List Field :=
  let g := { g with trap := { g.trap with queue := [], captured := [] } }
  (0, 512, 0) :: g.header imask pendingX retries ++ g.uniformFields 512 ++ (1792, 320 * g.width, 0) :: threadFields 1792 0 g.threads

/-- The copy of the context's interrupt mask in a header. -/
def State.imaskOf (s : State) (g : Group) : Word64 := ((s.context g.place.ctx).map (·.irq.mask)).getD 0

/-- The amount of a pending `xreg.acq` (02 R65). -/
def State.pendingX (s : State) (gi : Nat) (g : Group) : Nat :=
  (((s.part g.partIndex).xqueue.find? (fun r => r.g == gi)).map (·.n)).getD 0

/-- The retry count of a group's convoy (21 R514). -/
def State.retriesOf (s : State) (gi : Nat) : Nat :=
  ((s.convoys.find? (fun e => e.2.lead == gi || e.2.rear == gi)).map (·.2.retries)).getD 0

/-- The group record as it is written. -/
def State.recordFields (s : State) (gi : Nat) (g : Group) : List Field := g.record (s.imaskOf g) (s.pendingX gi g) (s.retriesOf gi)

/-- Eight bytes of the replay queue image at a byte offset (07 R221: TRAPQ); past the image 0 (DESIGN CHOICE, log 106). -/
def Group.queueWord (g : Group) (off : Nat) : Word64 :=
  let m := (g.queueFields 0).foldl (fun m f => if f.2.1 = 1024 then m else storeBytes m f.1 f.2.1 f.2.2) ([] : Assoc 8)
  BitVec.ofNat 64 (bytesFrom m off 8)

/-! ### The debug stop (15 R402, R403) -/

/-- The register a write names, with its class (15 R403). -/
def RegWrite.place : RegWrite → Nat × Nat
  | .v _ n _ _ _ => (n, 0)
  | .s n _ => (n, 1)
  | .p _ n _ => (n, 2)
  | .k n _ => (n, 3)
  | .lnk _ _ => (0, 4)

/-- The thread a write is for; a shared register is the whole bundle's. -/
def RegWrite.thread : RegWrite → Option Nat
  | .v L _ _ _ _ => some L
  | .p L _ _ => some L
  | .lnk L _ => some L
  | _ => none

/-- The pending writes of an outstanding instruction, one for each register, with the threads that wait for it (15 R403). -/
def Outstanding.pending (o : Outstanding) : List (Mask × (Nat × Nat) × Word64) :=
  ((o.writes.map RegWrite.place).eraseDups).map (fun r =>
    let l := (o.writes.filter (fun w => w.place == r)).filterMap RegWrite.thread
    (if l.isEmpty then o.entry.mask else maskOf l.eraseDups, r, o.entry.pc))

/-- The pending writes of a group's scoreboard. -/
def Group.pendingWrites (g : Group) : List (Mask × (Nat × Nat) × Word64) := g.flow.outstanding.flatMap Outstanding.pending

/-- One pending write in a dump: mask, register, class, PC of the writing instruction. -/
def pendingFields (base : Nat) (w : Mask × (Nat × Nat) × Word64) : List Field :=
  [(base, 8, w.1.toNat), (base + 8, 4, w.2.1.1 % 256 + 256 * w.2.1.2), (base + 12, 4, w.2.2.toNat % 2 ^ 32)]

/-- The dump of one group: prefix, record and pending writes. -/
def State.dumpFields (s : State) (gi : Nat) (g : Group) (clk : Word64) (base : Nat) : List Field :=
  let l := g.pendingWrites
  [(base, 64, 3 + 256 * (l.length % 256)), (base + 8, 8, clk.toNat)]
    ++ (s.recordFields gi g).map (fun f => (base + 64 + f.1, f.2))
    ++ l.zipIdx.flatMap (fun o => pendingFields (base + 64 + g.recordSize + 16 * o.2) o.1)

/-- Bytes of one group's dump. -/
def Group.dumpSize (g : Group) : Nat := 64 + g.recordSize + 16 * g.pendingWrites.length

/-- Dump groups one after another. -/
def State.dumpGroups (s : State) (ctx V core : Nat) (clk : Word64) : List (Nat × Group) → Nat → State
  | [], _ => s
  | (gi, g) :: rest, base =>
    (s.writeVirtFields core ctx V (s.dumpFields gi g clk base)).dumpGroups ctx V core clk rest (base + g.dumpSize)

/-- Insert by ascending group index. -/
def insertGidx (e : Nat × Group) : List (Nat × Group) → List (Nat × Group)
  | [] => [e]
  | x :: xs => if e.2.place.gidx < x.2.place.gidx then e :: x :: xs else x :: insertGidx e xs

/-- Stop a partition (15 R402): it issues nothing from now on; the dump of the context's Resident groups there is written before STOPPED is
set (15 R403). -/
def State.stopPartition (s : State) (k ctx : Nat) : State :=
  let core := k / 16
  let gs := (s.groups.filter (fun e => e.2.partIndex == k && e.2.place.ctx == ctx && e.2.st == .resident)).foldl (fun l e => insertGidx e l) []
  let s := s.dumpGroups ctx (virtOf s.dbg.dump) core (s.clkOf (dieOfCore core)) gs 0
  { s with dbg := { s.dbg with frozen := s.dbg.frozen.filter (fun j => j != k) ++ [k], stopped := true } }

/-- The context is debuggable (15 R404). -/
def State.debuggable (s : State) (ctx : Nat) : Bool := ((s.context ctx).map (·.debuggable)).getD false

end Sys2Proof.Machine
end

