-- ==== Sys2Proof/Machine/Access.lean ====
section
/-! DEFINITION. Accesses to global memory: the checks of 10 R277, watchpoints (15 R401), translation and sector checks of each lane (20 R474,
17 R424), and how loads, stores and atomics perform (04 R147, 05 R162, 20 R468). -/
namespace Sys2Proof.Machine

/-! ### Steps 2 and 3 of 10 R277 -/

/-- The effective addresses of the active lanes: thread and pointer. -/
abbrev Addrs := List (Nat × Word64)

/-- A stop on the lanes of a test, with the lowest lane's address. -/
def addrStop (code : BitVec 16) (whole : Option Mask) (l : Addrs) (bad : Word64 → Bool) : Option Stop :=
  match l.filter (fun e => bad e.2) with
  | [] => none
  | e :: es => some { code := code, mask := whole.getD (maskOf ((e :: es).map Prod.fst)), addr := e.2 }

/-- The address-form check (03 R91). -/
def formStop (whole : Option Mask) (l : Addrs) : Option Stop := addrStop 0x1003 whole l (fun p => !pointerForm p)

/-- The alignment check (04 R124). -/
def alignStop (size : Nat) (whole : Option Mask) (l : Addrs) : Option Stop := addrStop 0x1004 whole l (fun p => p.toNat % size != 0)

/-- A lane's access range meets an enabled watched range of a matching kind (15 R401). -/
def watchHit (d : DebugRegs) (read write : Bool) (p : Word64) (size : Nat) : Bool :=
  (List.range 4).any (fun n =>
    let ctl := Assoc.get n d.wpCtl
    let len := 2 ^ min 20 (field 8 5 ctl).toNat
    let base := virtOf (Assoc.get n d.wpAddr) / len * len
    bit ctl 0 && ((read && bit ctl 1) || (write && bit ctl 2))
      && decide (base < virtOf p + size) && decide (virtOf p < base + len))

/-- Watchpoints are compared for the accesses of the debugged context (15 R401), once for an instruction (15 R402, 18 R432). -/
def watched (s : State) (is : Issue) (sel : Sel) (g : Group) : Bool :=
  (field 32 16 s.dbg.tgt).toNat == g.place.ctx && s.debuggable g.place.ctx && is.replay.isNone && g.flow.skipWatch &&& sel.bundle == 0

/-- The watchpoint trap; an armed hit stops the partition instead (15 R402). -/
def watchStop (s : State) (is : Issue) (sel : Sel) (g : Group) (read write : Bool) (size : Nat) (whole : Option Mask) (l : Addrs) :
    Option Stop :=
  if watched s is sel g && !s.dbg.armWp then addrStop 0x1005 whole l (fun p => watchHit s.dbg read write p size) else none

/-- An armed watchpoint hit: the partition is stopped before any lane performs (15 R402). -/
def watchDebug (s : State) (is : Issue) (sel : Sel) (g : Group) (read write : Bool) (size : Nat) (l : Addrs) : Option State :=
  if watched s is sel g && s.dbg.armWp && l.any (fun e => watchHit s.dbg read write e.2 size) then
    some ((s.modGroup sel.g (fun g => { g with flow := { g.flow with skipWatch := sel.bundle } })).stopPartition g.partIndex g.place.ctx)
  else none

/-- The steps of 10 R277 that stop every lane. -/
def globalStops (s : State) (is : Issue) (sel : Sel) (g : Group) (read write : Bool) (size : Nat) (whole : Option Mask) (l : Addrs) :
    List (Option Stop) :=
  [formStop whole l, alignStop size whole l, watchStop s is sel g read write size whole l]

/-! ### Step 4: translation and the sector -/

/-- A lane that passed step 4. -/
structure Hit where
  L : Nat
  ptr : Word64
  pa : Nat
  home : BitVec 2
  pin : Nat
deriving DecidableEq, Repr

/-- A lane that failed it: the step (0 translation, 1 tag comparison), the thread, the code, the pointer and the record. -/
structure Miss where
  step : Nat
  L : Nat
  code : BitVec 16
  ptr : Word64
  rep : Report
deriving DecidableEq, Repr

/-- The tag that a sector of device DRAM carries (03 R113). -/
def State.storedTag (s : State) (pa : Nat) : BitVec 4 := if regionOf pa = 0 then (s.sector (sectorOf pa)).tag else 0

/-- The record of a memory error (17 R421): address, syndrome, tags; the corrections of the row are entered as it is recorded. -/
def memReport (s : State) (ctx gidx : Nat) (code : BitVec 16) (pa : Nat) (syn : BitVec 8) (ptrTag : BitVec 4) (injected : Bool) :
    Report :=
  let k := homeSliceOf pa
  { code := code, path := diePath (k / 16) 6 (k % 16), ctx := BitVec.ofNat 16 ctx,
    info := BitVec.ofNat 16 gidx ||| (if injected then 0x200 else 0),
    detail := detail4 (BitVec.ofNat 64 pa) (0#48 ++ ptrTag ++ s.storedTag pa ++ syn) 0 0,
    slice := if code = 0x3603 then s.homeSlice ctx else k }

/-- EINJ of kind 3 or 4 acts on the group's own access to its target sector (17 R424). -/
def Group.injects (g : Group) (ptr : Word64) : Option EccKind :=
  let hit := !bit ptr 63 && decide ((field 0 56 ptr).toNat / 64 = (field 0 50 g.regs.einj).toNat)
  if g.armed 3 && hit then some .uncorrected else if g.armed 4 && hit then some .corrected else none

/-- The memory controller decodes the sector (20 R474): a stored error is corrected, or the sector is poisoned, and recorded; a poisoned sector
keeps no further record (20 R476). -/
def State.decodeSector (s : State) (ctx gidx pa : Nat) (ptr : Word64) (e : EccKind) (injected : Bool) : State :=
  let k := sectorOf pa
  match e with
  | .corrected =>
    (s.modSector k (fun t => { t with ecc := none })).report (memReport s ctx gidx 0x3601 (64 * k) 0 (tagOf ptr) injected)
  | .uncorrected =>
    (s.modSector k (fun t => { t with ecc := none, poison := true })).report (memReport s ctx gidx 0x3602 (64 * k) 1 (tagOf ptr) injected)
  | .misdirected =>
    (s.modSector k (fun t => { t with ecc := none, poison := true })).report (memReport s ctx gidx 0x3604 (64 * k) 3 (tagOf ptr) injected)

/-- An uncorrected error found in a contained line keeps its sector's poison at the clear (20 R471). -/
def State.noteErrorInContained (s : State) (pa : Nat) : State :=
  s.modLine (lineOf pa) (fun l => { l with contained := l.contained.map (fun c => { c with prior := c.prior ||| BitVec.ofNat 4 (2 ^ (sectorOf pa % 4)) }) })

/-- The error check of an access's sector: a stored error is found (20 R474). -/
def State.checkSector (s : State) (gi pa : Nat) (ptr : Word64) : State :=
  match s.group gi, s.storedError pa with
  | some g, some e =>
    let s := s.decodeSector g.place.ctx g.place.gidx pa ptr e false
    if e != .corrected && (s.containedAt pa).isSome then s.noteErrorInContained pa else s
  | _, _ => s

/-- A group's access to a sector performs: EINJ of kind 3 or 4 acts on its target (17 R424). -/
def State.injectAt (s : State) (gi pa : Nat) (ptr : Word64) : State :=
  match (s.group gi).filter (fun _ => regionOf pa == 0) with
  | none => s
  | some g =>
    match g.injects ptr with
    | none => s
    | some e =>
      let s := (s.modGroup gi Group.disarm).decodeSector g.place.ctx g.place.gidx pa ptr e true
      if e == .uncorrected && (s.containedAt pa).isSome then s.noteErrorInContained pa else s

/-- The record of an error of a cached sector. -/
def cacheReport (s : State) (ctx gidx : Nat) (code : BitVec 16) (path : BitVec 32) (k : Nat) : Report :=
  { code := code, path := path, ctx := BitVec.ofNat 16 ctx, info := BitVec.ofNat 16 gidx
    detail := detail4 (BitVec.ofNat 64 (64 * k)) (0#48 ++ 0#4 ++ s.storedTag (64 * k) ++ (if code = 0x3402 ∨ code = 0x3502 then 1#8 else 0#8)) 0 0
    slice := homeSliceOf (64 * k) }

/-- An error of the core's L1 copy: corrected in place; a clean copy is invalidated and fetched again; a dirty one is poisoned (20 R475). -/
def State.checkL1 (s : State) (core ctx gidx k : Nat) : State :=
  match (s.coreAt core).l1Line k with
  | none => s
  | some l =>
    match l.err with
    | none => s
    | some cor =>
      let s := s.modCore core (fun c => { c with l1 := c.l1.map (fun x => if x.line = k then { x with err := none } else x) })
      let s := s.report (cacheReport s ctx gidx (if cor then 0x3401 else 0x3402) (corePath core 4 0) k)
      if cor then s
      else if l.st == .m || l.st == .o then s.modSector k (fun t => { t with poison := true })
      else s.dropL1 core k

/-- An error of the L2 copy: the same, the dirty sector poisoned (20 R475). -/
def State.checkL2 (s : State) (ctx gidx k : Nat) : State :=
  match Tab.get? (k % 4) (s.line (k / 4)).l2err with
  | none => s
  | some cor =>
    let dirty := (s.line (k / 4)).dirty.getLsbD (k % 4)
    let h := homeSliceOf (64 * k)
    let s := s.modLine (k / 4) (fun l => { l with l2err := Tab.del (k % 4) l.l2err })
    let s := s.report (cacheReport s ctx gidx (if cor then 0x3501 else 0x3502) (diePath (h / 16) 5 (h % 16)) k)
    if !cor && dirty then
      let s := s.modSector k (fun t => { t with poison := true })
      if (s.containedAt (64 * k)).isSome then s.noteErrorInContained (64 * k) else s
    else s

/-- The error checks of the caches an access reads through. -/
def State.checkCaches (s : State) (core ctx gidx pa : Nat) : State :=
  if s.holdsSector core (sectorOf pa) then s.checkL1 core ctx gidx (sectorOf pa) else s.checkL2 ctx gidx (sectorOf pa)

/-- The tag comparison of a checked pointer with a sector that decodes (03 R113, 20 R474); a poisoned one is not compared. -/
def State.tagMismatch (s : State) (pa : Nat) (ptr : Word64) (l : Leaf) : Bool :=
  let t := s.sector (sectorOf pa)
  regionOf pa == 0 && bit l.entry 10 && !t.poison && tagOf ptr != 0 && tagOf ptr != t.tag

/-- Step 4 for one lane. -/
def State.laneAccess (s : State) (gi : Nat) (g : Group) (need : Need) (a : Nat × Word64) : State × (Miss ⊕ Hit) :=
  match s.translate g.place.core g.place.ctx (virtOf a.2) need with
  | (s, .error f) =>
    (s, .inl { step := 0, L := a.1, code := f.code, ptr := a.2, rep := s.groupReport gi g f.code (detail4 a.2 0 0 0) })
  | (s, .ok (pa, l)) =>
    let s := if regionOf pa = 0 then (s.checkSector gi pa a.2).checkCaches g.place.core g.place.ctx g.place.gidx pa else s
    if s.tagMismatch pa a.2 l then
      (s, .inl { step := 1, L := a.1, code := 0x3603, ptr := a.2,
                 rep := { memReport s g.place.ctx g.place.gidx 0x3603 (64 * sectorOf pa) 2 (tagOf a.2) false with grp := some gi, auto := none } })
    else (s, .inr { L := a.1, ptr := a.2, pa := pa, home := pteHome l.entry, pin := ptePin l.entry })

/-- Step 4 for every lane, in ascending thread index. -/
def State.laneAccesses (s : State) (gi : Nat) (g : Group) (need : Need) : Addrs → State × List Miss × List Hit
  | [] => (s, [], [])
  | a :: as =>
    let r := s.laneAccess gi g need a
    let t := r.1.laneAccesses gi g need as
    match r.2 with
    | .inl m => (t.1, m :: t.2.1, t.2.2)
    | .inr h => (t.1, t.2.1, h :: t.2.2)

/-- The miss that the trap describes (18 R431, R434): of the earliest step, and in it of the lowest thread. -/
def firstMiss : List Miss → Option Miss
  | [] => none
  | m :: ms =>
    match firstMiss ms with
    | none => some m
    | some n => if n.step < m.step then some n else some m

/-- The lane condition of the lanes that missed: TRAPMASK names those of the step it describes. A lane of a later step is not done either. -/
def missStop (whole : Option Mask) (done : Mask) (l : List Miss) : Option LaneStop :=
  match firstMiss l with
  | none => none
  | some m =>
    some { stop := { code := m.code, mask := whole.getD (maskOf ((l.filter (fun x => x.step == m.step)).map (·.L))), addr := m.ptr, rep := some m.rep }, done := done }

/-! ### Performing -/

/-- The distinct sectors of the hits, in first-use order. -/
def hitSectors (l : List Hit) : List Nat := (l.map (fun h => sectorOf h.pa)).eraseDups

/-- The event of one sector's accesses. -/
def sectorEvent (gi : Nat) (kind : Nat) (scope : BitVec 5) (cls size : Nat) (whole : Option Mask) (hs : List Hit) : MemEvent :=
  { id := 0, g := gi, mask := whole.getD (maskOf (hs.map (·.L))), kind := kind, scope := scope, cls := cls,
    line := hs.head?.map (fun h => lineOf h.pa), ptr := (hs.head?.map (·.ptr)).getD 0, locs := (hs.map (fun h => (h.pa, size))).eraseDups,
    outside := true }

/-- An access to a sector's site with its stamp and event. -/
def State.performSector (s : State) (core : Nat) (site : Site) (e : MemEvent) : State :=
  match e.locs.head? with
  | none => s
  | some (pa, _) =>
    let r := s.stampAt core pa site
    r.1.addEvent core e r.2

/-- The working ports of a die that the route table gives for a device (13 R384, 01 R13). -/
def State.portsTo (s : State) (die dev : Nat) : BitVec 16 := Assoc.get dev s.routes &&& s.ports &&& (0xF#16 <<< (4 * die))

/-- Destination device of a peer address. -/
def peerOf (pa : Nat) : Nat := pa / 2 ^ 40 % 256

/-- Send a request of a die to host memory or to a device: the port that serves it answers; without a route it fails (20 R485). -/
def State.sendRemote (s : State) (die dev : Nat) (r : Remote) : State :=
  let id := s.nextId + 1
  let ports := s.portsTo die dev
  let ctx := if r.kind < 3 then ((s.group r.g).map (·.place.ctx)).getD 0 else r.ctx
  let s := { s with nextId := id + 1, remotes := Tab.put id { r with port := ctzFrom ports 16 0, die := die, dev := dev, ctx := ctx } s.remotes }
  if r.host then (if s.cxlUp then s.push [.cxlWriteAcknowledgement id] else s)
  else if ports = 0 then s.push [.waylineRequestTimeout id]
  else s.push [.waylineAck id]

/-- The accesses of the hits perform, as EINJ sees them (17 R424). -/
def State.injectHits (s : State) (gi : Nat) (l : List Hit) : State := l.foldl (fun s h => s.injectAt gi h.pa h.ptr) s

/-- A load of each sector at its site (05 R162). -/
def State.loadSectors (s : State) (core gi kind : Nat) (scope : BitVec 5) (cls size : Nat) (whole : Option Mask) (hits : List Hit) : State :=
  (hitSectors hits).foldl (fun s k =>
    let hs := hits.filter (fun h => sectorOf h.pa == k)
    match hs with
    | [] => s
    | h :: _ =>
      let s := s.injectHits gi hs
      let r := s.loadSite core h.pa h.home h.pin
      r.1.performSector core r.2 (sectorEvent gi kind scope cls size whole hs)) s

/-- The value of a hit and whether it is poisoned: a failed host port poisons a read of host memory (20 R483). -/
def State.loadValue (s : State) (h : Hit) (size : Nat) : Nat × Bool :=
  (s.readPhys h.pa size, s.poisonedAt h.pa || (regionOf h.pa == 1 && !s.cxlUp))

/-- Free words: the value a peer returns. -/
def freeBytes (n size : Nat) : Nat := (Config.freeWord n).toNat % 2 ^ (8 * size) + (if size = 16 then (Config.freeWord (n + 1)).toNat * 2 ^ 64 else 0)

/-- The lane stores of the hits of a sector. -/
def storesOf (hits : List Hit) (x : Nat → Nat) (size : Nat) : List LaneStore :=
  hits.map (fun h => { L := h.L, ptr := h.ptr, pa := h.pa, size := size, x := x h.L })

/-- A release of a class at least as wide clears the line it writes (20 R471): the poison the containment set goes. -/
def State.clearContained (s : State) (pa cls : Nat) : State :=
  match s.containedAt pa with
  | none => s
  | some c =>
    if (field 5 2 c.scope).toNat ≤ cls then
      let ln := lineOf pa
      let s := (List.range 4).foldl (fun s i =>
        if c.prior.getLsbD i then s else s.modSector (4 * ln + i) (fun t => { t with poison := false })) s
      s.modLine ln (fun l => { l with contained := none })
    else s

/-- The bytes of stores, in ascending thread index (04 R126). -/
def State.putStores (s : State) (l : List LaneStore) : State := l.foldl (fun s w => (s.hideCode w.pa w.size).writeMem w.pa w.size w.x) s

/-- Stores to one sector perform at their site, or wait for write ownership (10 R280). -/
def State.storeSector (s : State) (core gi kind : Nat) (scope : BitVec 5) (cls : Nat) (whole : Option Mask) (hits : List Hit)
    (w : List LaneStore) : State :=
  match hits with
  | [] => s
  | h :: _ =>
    let size := (w.head?.map (·.size)).getD 1
    let m := whole.getD (maskOf (hits.map (·.L)))
    let r := s.storeSite core h.pa h.home h.pin
    if r.2.2 then
      let id := r.1.nextId + 1
      let s := { r.1 with nextId := id + 1,
                          stores := Tab.put id { g := gi, mask := m, core := core, kind := kind, scope := scope, cls := cls, l := w, home := h.home } r.1.stores }
      s.push [.ownershipArrival id]
    else
      let s := (r.1.injectHits gi hits).putStores w
      let s := s.performSector core r.2.1 (sectorEvent gi kind scope cls size whole hits)
      match r.2.1 with
      | .cxl => s.sendRemote (dieOfCore core) (peerOf h.pa) { host := true, g := gi, mask := m, pa := h.pa, ptr := h.ptr, kind := 0 }
      | .peer => s.sendRemote (dieOfCore core) (peerOf h.pa) { host := false, g := gi, mask := m, pa := h.pa, ptr := h.ptr, kind := 0 }
      | _ => s

/-- The hit of a lane store, with the home its leaf gave. -/
def hitOf (home : BitVec 2) (pin : Nat) (w : LaneStore) : Hit := { L := w.L, ptr := w.ptr, pa := w.pa, home := home, pin := pin }

/-- Stores of a group's lanes perform, sector by sector. -/
def State.performStores (s : State) (core gi kind : Nat) (scope : BitVec 5) (cls : Nat) (whole : Option Mask) (hits : List Hit)
    (w : List LaneStore) : State :=
  (hitSectors hits).foldl (fun s k =>
    s.storeSector core gi kind scope cls whole (hits.filter (fun h => sectorOf h.pa == k)) (w.filter (fun x => sectorOf x.pa == k))) s

/-- The leaf of a store that was held is looked up again when it performs: the hits it performs on (20 R433: a held release keeps its
translation; the leaf only names the home). -/
def State.hitsAgain (s : State) (ctx core : Nat) (l : List (Nat × Word64 × Nat)) : List Hit :=
  l.map (fun w =>
    match s.leafVia core ctx (virtOf w.2.1) with
    | .ok lf => { L := w.1, ptr := w.2.1, pa := w.2.2, home := pteHome lf.entry, pin := ptePin lf.entry }
    | .error _ => { L := w.1, ptr := w.2.1, pa := w.2.2, home := 3, pin := 0 })

/-- Write ownership arrives and a waiting store performs (10 R280); the host's coherence domain acknowledges one to its memory (04 R153). -/
def execOwnershipArrival (id : Nat) (s : State) : Host.Outcome State Fault Refusal :=
  match Tab.get? id s.stores with
  | none => .next s
  | some p =>
    let s := { s with stores := Tab.del id s.stores }
    match p.l.head? with
    | none => .next s
    | some w =>
      let hits := p.l.map (hitOf 0 0)
      let s := ((s.ownSector p.core (sectorOf w.pa) false (p.home == 2)).1.injectHits p.g hits).putStores p.l
      let s := s.performSector p.core (homeSite w.pa) (sectorEvent p.g p.kind p.scope p.cls w.size (some p.mask) hits)
      .next (if regionOf w.pa = 1 then s.sendRemote (dieOfCore p.core) 0 { host := true, g := p.g, mask := p.mask, pa := w.pa, ptr := w.ptr, kind := 0 } else s)

end Sys2Proof.Machine
end

