-- ==== Sys2Proof/Machine/Scratch.lean ====
section
/-! DEFINITION. Scratchpad (03 R92, R118, 10 R281): the block's share on each of its cores, addresses and bytes. A byte that a fresh piece
holds reads as zero. -/
namespace Sys2Proof.Machine

/-- A block. -/
def State.blk (s : State) (b : Nat) : Option Block := Tab.get? b s.blks

/-- The manifest of a block's launch. -/
def State.manifestOf (s : State) (b : Nat) : Option Manifest :=
  ((s.blk b).bind (fun x => Tab.get? x.launch s.launches)).map (·.man)

/-- Scratchpad units of a block on each core. -/
def State.unitsOf (s : State) (b : Nat) : Nat := ((s.manifestOf b).map (·.units)).getD 0

/-- The index in the block of the core a scratchpad address names (03 R92): 0 is the core of the access, the others follow in placement order. -/
def namedPart (own cores n : Nat) : Option Nat :=
  if n = 0 then some own else ((List.range cores).filter (fun i => i != own))[n - 1]?

/-- A scratchpad location: the part of the block and the byte offset. -/
structure Spot where
  part : Nat
  off : Nat
deriving DecidableEq, Repr

/-- Resolve a scratchpad address of a group's block; none out of bounds (03 R92). -/
def State.spot (s : State) (g : Group) (a : Word64) (size : Nat) : Option Spot :=
  if field 22 42 a != 0 then none
  else
    let n := (field 20 2 a).toNat
    let off := (field 0 20 a).toNat
    match s.blk g.place.blk with
    | none => none
    | some b =>
      if b.parts.length ≤ n then none
      else if 4096 * s.unitsOf g.place.blk < off + size then none
      else (namedPart g.place.bpart b.parts.length n).map (fun p => { part := p, off := off })

/-- Change one part of a block. -/
def Block.modPart (b : Block) (i : Nat) (f : BlockPart → BlockPart) : Block :=
  { b with parts := b.parts.zipIdx.map (fun e => if e.2 = i then f e.1 else e.1) }

/-- A part of a block. -/
def State.blockPart (s : State) (b i : Nat) : Option BlockPart := (s.blk b).bind (fun x => x.parts[i]?)

/-- Read scratchpad bytes. -/
def State.readScratch (s : State) (b : Nat) (p : Spot) (n : Nat) : Nat :=
  match s.blockPart b p.part with
  | some x => bytesFrom x.scratch p.off n
  | none => 0

/-- Write scratchpad bytes. A word that is written whole has no error any more. -/
def State.writeScratch (s : State) (b : Nat) (p : Spot) (n x : Nat) : State :=
  s.modBlk b (fun k => k.modPart p.part (fun q =>
    { q with scratch := storeBytes q.scratch p.off n x
             scratchErr := q.scratchErr.filter (fun e => !(decide (p.off ≤ 4 * e.1) && decide (4 * e.1 + 4 ≤ p.off + n))) }))

/-- Words with an error among the bytes of an access: word number and whether it can be corrected. -/
def State.scratchErrors (s : State) (b : Nat) (p : Spot) (n : Nat) : List (Nat × Bool) :=
  match s.blockPart b p.part with
  | some q => q.scratchErr.filter (fun e => decide (4 * e.1 < p.off + n) && decide (p.off < 4 * e.1 + 4))
  | none => []

/-- The error check of a scratchpad read (20 R475): a corrected word is recorded and good again, an uncorrected one is recorded and makes the
read poisoned. -/
def State.checkScratch (s : State) (ctx b : Nat) (p : Spot) (n : Nat) : State × Bool :=
  let l := s.scratchErrors b p n
  let core := ((s.blockPart b p.part).map (·.core)).getD 0
  let s := l.foldl (fun s e => s.report
    { code := if e.2 then 0x3301 else 0x3302, path := corePath core 3 0, ctx := BitVec.ofNat 16 ctx, slice := s.homeSlice ctx,
      detail := detail4 (BitVec.ofNat 64 (4 * e.1)) (if e.2 then 0 else 1) 0 0 }) s
  let s := if l.isEmpty then s else s.modBlk b (fun k => k.modPart p.part (fun q =>
    { q with scratchErr := q.scratchErr.filter (fun e => !(l.contains e && e.2)) }))
  (s, l.any (fun e => !e.2))

/-- The interval number of a line of scratchpad, from 0 when its unit is allocated (05 R163). -/
def State.scratchInterval (s : State) (b : Nat) (p : Spot) : BitVec 32 :=
  ((s.blockPart b p.part).map (fun q => Assoc.get (p.off / 256) q.intervals)).getD 0

/-- An engine takes write ownership of the scratchpad lines of `n` bytes and gives it back (05 R163). -/
def State.engineScratch (s : State) (b : Nat) (p : Spot) (n : Nat) : State :=
  s.modBlk b (fun k => k.modPart p.part (fun q =>
    { q with intervals := (List.range ((p.off % 256 + n + 255) / 256)).foldl (fun (t : Assoc 32) i =>
        Assoc.set (p.off / 256 + i) (Assoc.get (p.off / 256 + i) t + 2) t) q.intervals }))

/-- The number of a scratchpad location among the locations of events: above every physical address. -/
def Spot.loc (p : Spot) (b : Nat) : Nat := 2 ^ 60 + 2 ^ 40 * b + 2 ^ 22 * p.part + p.off

/-- An engine that a core started has written scratchpad: its lines enter the core's written-line sets (05 R176). -/
def State.scratchWrote (s : State) (core b : Nat) (p : Spot) (n : Nat) : State :=
  (List.range ((p.off % 64 + n + 63) / 64)).foldl (fun s i =>
    let k := sectorOf (p.loc b) + i
    s.bumpId.modCore core (fun c => c.wrote (k / 4) (sectorBit k) (s.scratchInterval b { p with off := p.off + 64 * i }) s.nextId)) s

/-- The stamp of a scratchpad access: LEVEL 0 on the issuing core (05 R162); another core's scratchpad never gives LEVEL 0. -/
def State.scratchStamp (s : State) (core other : Nat) (iv : BitVec 32) : State × BitVec 96 :=
  if core = other then
    let s := s.tick core
    (s, stampOf 0 (core % 64) iv (s.timeOf core))
  else
    let s := s.message core other
    (s.message other core, stampOf 1 (other % 64) iv (s.timeOf other))

/-- Record the event of a scratchpad access, and say its TIME. -/
def State.scratchTouch (s : State) (gi : Nat) (g : Group) (m : Mask) (kind : Nat) (ptr : Word64) (l : List (Spot × Nat))
    (scope : BitVec 5 := 0) (after : Option (BitVec 48) := none) : State × BitVec 48 :=
  match l with
  | [] => (s, s.timeOf g.place.core)
  | (p, _) :: _ =>
    let other := ((s.blockPart g.place.blk p.part).map (·.core)).getD g.place.core
    let r := s.scratchStamp g.place.core other (s.scratchInterval g.place.blk p)
    (r.1.addEvent g.place.core
      { id := 0, g := gi, mask := m, kind := kind, scope := scope, ptr := ptr, after := after, outside := other != g.place.core,
        locs := l.map (fun e => (e.1.loc g.place.blk, e.2)) } r.2, stampTime r.2)

/-- Record the event of a scratchpad access. -/
def State.scratchEvent (s : State) (gi : Nat) (g : Group) (m : Mask) (kind : Nat) (ptr : Word64) (l : List (Spot × Nat))
    (scope : BitVec 5 := 0) (after : Option (BitVec 48) := none) : State := (s.scratchTouch gi g m kind ptr l scope after).1

/-- The address of an `lds` or `sts` (10 R281), with bits [63:32] zero. -/
def scratchAddr (v : Word32) (off : BitVec 9) (size : Nat) : Word64 := zext 64 (v + sext 32 off * BitVec.ofNat 32 size)

/-- The bounds check (03 R92). -/
def boundsStop (s : State) (g : Group) (size : Nat) (whole : Option Mask) (l : Addrs) : Option Stop :=
  addrStop 0x1301 whole l (fun a => (s.spot g a size).isNone)

end Sys2Proof.Machine
end

