-- ==== Sys2Proof/Machine/Memory.lean ====
section
/-! DEFINITION. Loads and stores (10 R276-R284), scratchpad loads and stores (10 R281), uniform loads and stores (10 R283), atomics and
reductions (10 R285-R289), and how a convoy's instructions enter the compare buffer (02 R74-R76). -/
namespace Sys2Proof.Machine

/-! ### The compare buffer's side of an instruction (02 R74, 21 R511) -/

/-- The instruction word with S ignored. -/
def plainWord (is : Issue) : BitVec 32 := is.word &&& ~~~(2#32)

/-- Wake the threads of a group that were turned away. -/
def Group.wakeTurned (g : Group) : Group :=
  g.modLanes (g.which (fun t => t.wait == .gate && t.waitOn == 0)) (fun _ t => { t with wait := .none })

/-- Put an instruction that performs no register write of its own time on the scoreboard, its values still to come. -/
def pendingLoad (g : Group) (sel : Sel) (e : ReplayEntry) (dst : List Nat) : Outstanding :=
  { id := g.flow.nextId, kind := .load, entry := e, bundle := sel.bundle, writes := (maskList sel.mask).flatMap (fun L => dst.map (fun n => .v L n 0 false false)) }

/-- The group's stores and atomics go through a compare buffer (02 R74). -/
def State.inConvoy (s : State) (gi : Nat) (g : Group) : Bool := g.place.paired && (s.convoyOf gi).isSome

/-- An instruction of the lead makes one compare entry (21 R511). When some of its lanes fault it does not enter the buffer and no lane is done: it
enters whole when it is re-injected. -/
def State.convoyMiss (s : State) (gi : Nat) (g : Group) (l : Option LaneStop) : Option LaneStop :=
  if s.inConvoy gi g then l.map (fun x => { x with done := 0 }) else l

/-- An instruction of a convoy enters the compare buffer: the lead's entry is held, the rear's is compared. `dst`: the registers
whose values it waits for. Outside a convoy it performs at once. -/
def State.submit (s : State) (is : Issue) (sel : Sel) (e : ReplayEntry) (sw : Bool) (dst : List Nat) (sig : Signature) (kind : Nat) (scope : BitVec 5)
    (act : Act) (direct : State → State × Option LaneStop) : State × Option LaneStop :=
  match s.group sel.g, s.convoyOf sel.g with
  | some g, some (k, c) =>
    if !g.place.paired then direct s
    else
      let out := if dst.isEmpty then none else some g.flow.nextId
      let s := if dst.isEmpty then s else s.modGroup sel.g (fun g => g.putOutstanding (pendingLoad g sel e dst))
      let ce : CompareEntry := { sig := sig, pc := is.pc, bundle := sel.bundle, mask := sel.mask, kind := kind, scope := scope, sw := sw,
                                 entry := e, out := out, act := act }
      if c.lead = sel.g then
        (({ s with convoys := Tab.modify k (fun c => { c with held := c.held ++ [ce] }) s.convoys }).modGroup c.lead
            (fun g => { g with convoy := { g.convoy with held := g.convoy.held + 1 } }) |>.modGroup c.rear Group.wakeTurned, none)
      else
        (({ s with convoys := Tab.modify k (fun c => { c with rearEntry := some ce }) s.convoys }).push [.convoyCompare k], none)
  | _, _ => direct s

/-- Lines that what is held will write. -/
def Act.lines : Act → List Nat
  | .store l => l.map (fun w => lineOf w.pa)
  | .atomic _ _ l => l.map (fun w => lineOf w.pa)
  | _ => []

/-- Lines the lead's held stores will write, in the compare buffer or at the gate after it: its own loads of them wait (02 R74, 04 R141). -/
def State.heldLines (s : State) (c : Convoy) : List Nat :=
  c.held.flatMap (fun e => e.act.lines) ++ s.cores.flatMap (fun k => (k.2.gate.filter (fun h => h.bundle == 0 && h.g == c.lead)).flatMap (fun h => h.act.lines))

/-- The physical addresses of accesses as they translate now. -/
def State.physOf (s : State) (g : Group) (l : Addrs) : List Nat :=
  l.filterMap (fun a => match s.leafVia g.place.core g.place.ctx (virtOf a.2) with
    | .ok lf => some (lf.phys (virtOf a.2))
    | .error _ => none)

/-- An access to a line that an engine owns waits until the engine has finished writing it (03 R108, 04 R149). -/
def State.engineWaits (s : State) (is : Issue) (sel : Sel) (g : Group) (l : Addrs) : Option State :=
  if (s.physOf g l).any (fun pa => s.engineOwns (sectorOf pa)) then some (s.holdBack is sel 5) else none

/-- The rear can take the values of the lead's next load: the data of all its lanes has returned. -/
def State.loadReady (s : State) (c : Convoy) : Bool :=
  (c.loads.head?).any (fun x => x.missing == 0 && x.out.all (fun o => (s.group c.lead).all (fun g => g.flow.outstanding.all (fun y => y.id != o))))

/-- A convoy's load waits: the lead's behind its own held stores, a redundant rear's until the lead's value is there (02 R76). -/
def State.loadWaits (s : State) (is : Issue) (sel : Sel) (g : Group) (l : Addrs) : Option State :=
  match s.convoyOf sel.g with
  | none => none
  | some (_, c) =>
    if c.lead = sel.g then
      (if (s.physOf g l).any (fun pa => (s.heldLines c).contains (lineOf pa)) then some (s.holdBack is sel) else none)
    else if g.place.redundant && !s.loadReady c then some (s.holdBack is sel 5)
    else none

/-! ### Widths and operands (07 R216) -/

/-- Bytes of an access. -/
def sizeOf_ (w : BitVec 3) : Nat := if w ≤ 1 then 1 else if w ≤ 3 then 2 else if w = 4 then 4 else if w = 5 then 8 else 16

/-- Registers of an access. -/
def wordsOfWidth (w : BitVec 3) : Nat := if w ≤ 4 then 1 else if w = 5 then 2 else 4

/-- The destination words of a load (10 R278). -/
def loadWords (w : BitVec 3) (x : Nat) : List Word32 :=
  if w = 1 then [sext 32 (BitVec.ofNat 8 x)]
  else if w = 3 then [sext 32 (BitVec.ofNat 16 x)]
  else (List.range (wordsOfWidth w)).map (fun i => BitVec.ofNat 32 (x / 2 ^ (32 * i)))

/-- The value of registers, the first lowest. -/
def valueOf : List Word32 → Nat
  | [] => 0
  | x :: xs => x.toNat + 2 ^ 32 * valueOf xs

/-- The effective addresses of the active lanes of a pointer pair and an offset. -/
def pairAddrs (u : Use) (is : Issue) (sel : Sel) (g : Group) (off : BitVec n) (size : Nat) : Addrs :=
  (maskList sel.mask).map (fun L => (L, effective ((g.gather u is.replay L).d 0) off size))

/-- A scope slot (02 R65): the table index an ordered access reads when it issues (10 R284). -/
def Group.scopeSlot (g : Group) (q : BitVec 2) : BitVec 5 := field (8 * q.toNat) 5 g.regs.qslot

/-- The table index of an ordered access: the one it read when it first issued (10 R292). -/
def ReplayEntry.scopeSlot (e : ReplayEntry) (q : BitVec 2) : BitVec 5 := field (8 * q.toNat) 5 e.qslot

/-- The class of a scope for a group. -/
def State.classOf (s : State) (g : Group) (e : BitVec 5) : Nat := s.scopeClass g.place.ctx g.place.core e

/-! ### Loads -/

/-- The vector writes of a lane that performed. -/
def laneLoad (d : Nat) (ws : List Word32) (L : Nat) (taint poison : Bool) : List RegWrite :=
  ws.zipIdx.map (fun e => .v L (d + e.2) e.1 taint poison)

/-- A load of the group's lanes: what it names, the width, the event kind and scope, and the taint of its destination (03 R89, 10 R284). -/
structure LoadOp where
  use : Use
  sw : Bool
  d : Nat
  w : BitVec 3
  kind : Nat
  slot : Option (BitVec 2)
  taint : LaneIn → Bool
  addrs : Issue → Sel → Group → Addrs

/-- The aligned 8-byte units that the lanes of a load read at peers. -/
def peerUnits (hits : List Hit) (size : Nat) : List Nat :=
  ((hits.filter (fun h => regionOf h.pa == 2)).flatMap (fun h => (List.range ((size + 7) / 8)).map (fun i => h.pa / 8 + i))).eraseDups

/-- What a peer returns to a lane: a free word for each unit, the same for every lane that reads it (10 R289). -/
def State.peerValue (s : State) (units : List Nat) (pa size : Nat) : Nat :=
  ((List.range ((size + 7) / 8)).foldl (fun (x : Nat) i => x + (Config.freeWord (s.free + units.idxOf (pa / 8 + i))).toNat * 2 ^ (64 * i)) 0)
    / 2 ^ (8 * (pa % 8)) % 2 ^ (8 * size)

/-- The writes of a load's hits: from memory, or free words of a peer. -/
def LoadOp.writes (o : LoadOp) (s : State) (u : Use) (g : Group) (is : Issue) (hits : List Hit) : List RegWrite :=
  hits.flatMap (fun h =>
    let t := o.taint (g.gather u is.replay h.L)
    if regionOf h.pa = 2 then laneLoad o.d (loadWords o.w (s.peerValue (peerUnits hits (sizeOf_ o.w)) h.pa (sizeOf_ o.w))) h.L t false
    else
      let r := s.loadValue h (sizeOf_ o.w)
      laneLoad o.d (loadWords o.w r.1) h.L t r.2)

/-- The stop of an acquire's lanes that were served from a contained line (20 R470). -/
def acquireStop (s : State) (g : Group) (kind : Nat) (scope : BitVec 5) (cls : Nat) (done : Mask) (bad : List Hit) : Option LaneStop :=
  match bad with
  | [] => none
  | h :: _ =>
    match s.containedAt h.pa with
    | none => none
    | some c =>
      let sl := homeSliceOf h.pa
      let r : Report :=
        { code := c.code, path := corePath g.place.core 8 0, ctx := BitVec.ofNat 16 g.place.ctx,
          info := BitVec.ofNat 16 g.place.gidx ||| (if c.injected then 0x200 else 0), slice := s.homeSlice g.place.ctx,
          detail := containmentDetail (lineOf h.pa) { c with scope := 0#1 ++ BitVec.ofNat 2 cls ++ scope } 0xFF c.kindY kind
            (s.timeOf (sliceAgent sl)) 0 0 }
      some { stop := { code := c.code, mask := maskOf (bad.map (·.L)), addr := h.ptr, rep := some r }, done := done }

/-- Requests to peers, one for each lane (a uniform load's stands for all), which the outstanding instruction waits for. -/
def State.requestPeers (s : State) (core gi : Nat) (out : Nat) (whole : Option Mask) (hits : List Hit) : State :=
  (hits.filter (fun h => regionOf h.pa == 2)).foldl (fun s h =>
    s.sendRemote (dieOfCore core) (peerOf h.pa) { host := false, g := gi, mask := whole.getD (oneBit h.L), pa := h.pa, ptr := h.ptr, kind := 1, out := some out }) s

/-- The peers' answers may still make this instruction a lane condition (20 R484): what its bundle issues from now on is noted. -/
def Group.watchFor (g : Group) (out : Nat) (B : Mask) (e : ReplayEntry) : Group :=
  { g with flow := { g.flow with watch := g.flow.watch ++ [(out, { bundle := B, cause := 0x2D01, pc := e.pc, addr := 0, lanes := 0, queue := [{ e with done := 0 }], younger := 0 })] } }

/-- Put a load on the scoreboard; its data returns at once, or when every peer has answered. -/
def State.loadOut (s : State) (_ : Issue) (sel : Sel) (e : ReplayEntry) (hits : List Hit) (ws : List RegWrite) (whole : Option Mask := none) :
    State :=
  match s.group sel.g with
  | none => s
  | some g =>
    let id := g.flow.nextId
    let s := s.modGroup sel.g (fun g => g.putOutstanding { id := id, kind := .load, entry := e, bundle := sel.bundle, writes := ws })
    if hits.any (fun h => regionOf h.pa == 2) then
      ({ s.requestPeers g.place.core sel.g id whole hits with free := s.free + 128 }).modGroup sel.g (fun g => g.watchFor id sel.bundle e)
    else s.later 24 (.loadDataReturn sel.g id)

/-- The registers of a lead's load enter the rear's queue, as one load with the lanes that a fault left for its re-injection (02 R76). -/
def passInto (is : Issue) (mask done : Mask) (ws : List RegWrite) (out : Option Nat) (l : List PassedLoad) : List PassedLoad :=
  if is.replay.isSome && l.any (fun x => x.pc == is.pc && x.missing &&& mask != 0) then
    l.map (fun x => if x.pc == is.pc && x.missing &&& mask != 0 then { x with missing := x.missing &&& ~~~done, writes := x.writes ++ ws, out := out } else x)
  else l ++ [{ pc := is.pc, missing := mask &&& ~~~done, writes := ws, out := out }]

/-- The registers of the lead's load in the rear's queue (02 R76), once its data has returned. -/
def State.passLoad (s : State) (is : Issue) (sel : Sel) (done : Mask) (ws : List RegWrite) : State :=
  match s.convoyOf sel.g with
  | some (k, c) =>
    if c.lead = sel.g && ((s.group c.rear).map (·.place.redundant)).getD false then
      let out := if ws.isEmpty then none else (s.group sel.g).map (fun g => g.flow.nextId - 1)
      ({ s with convoys := Tab.modify k (fun c => { c with loads := passInto is sel.mask done ws out c.loads }) s.convoys }).modGroup c.rear Group.wakeTurned
    else s
  | none => s

/-- The lead's values a redundant rear's load receives: the rear's loads correspond to the lead's in the order they issue, whatever their bundles
(DEDUCED, log 83). -/
def State.takeLoad (s : State) (gi : Nat) (g : Group) : Option (State × List RegWrite) :=
  match s.convoyOf gi with
  | some (k, c) =>
    if c.rear = gi && g.place.redundant && s.loadReady c then
      c.loads.head?.map (fun x => ({ s with convoys := Tab.modify k (fun c => { c with loads := c.loads.tail }) s.convoys }, x.writes))
    else none
  | none => none

/-- The effect of a load. -/
def LoadOp.effect (o : LoadOp) (is : Issue) (sel : Sel) (e : ReplayEntry) (s : State) : State × Option LaneStop :=
  match s.group sel.g with
  | none => (s, none)
  | some g =>
    match s.takeLoad sel.g g with
    | some (s, ws) => (s.loadOut is sel e [] ws, none)
    | none =>
      let scope := (o.slot.map e.scopeSlot).getD 0
      let cls := if o.slot.isSome then s.classOf g scope else 0
      let r := s.laneAccesses sel.g g { read := true } (o.addrs is sel g)
      let bad := if kindAcquires o.kind then r.2.2.filter (fun h => (r.1.containedAt h.pa).isSome) else []
      let hits := r.2.2.filter (fun h => !bad.contains h)
      let done := maskOf (hits.map (·.L))
      let s := r.1.loadSectors g.place.core sel.g o.kind scope cls (sizeOf_ o.w) none hits
      let ws := o.writes s o.use g is hits
      let s := if hits.isEmpty then s else s.loadOut is sel { e with mask := done } hits ws
      let s := s.passLoad is sel done ws
      (s, (missStop none done r.2.1).or (acquireStop s g o.kind scope cls done bad))

/-- A load as an issue. -/
def LoadOp.op (o : LoadOp) : Op :=
  { use := o.use, sw := o.sw, mem := true
    checks := fun s is sel g => stdChecks o.use is sel g ++ globalStops s is sel g true false (sizeOf_ o.w) none (o.addrs is sel g)
    instead := fun s is sel g => (watchDebug s is sel g true false (sizeOf_ o.w) (o.addrs is sel g)).or
      ((s.loadWaits is sel g (o.addrs is sel g)).or (s.engineWaits is sel g (o.addrs is sel g)))
    effect := o.effect }

/-- The operands of a load: the pointer pair and the destination. -/
def useLoad (d a : BitVec 6) (w : BitVec 3) : Use := { vsrc := [{ reg := a.toNat, cnt := 2 }], vdst := [(d.toNat, wordsOfWidth w)] }

/-- `ld` (10 R278): the destination is tainted when the pointer is. -/
def execLd (d a : BitVec 6) (w : BitVec 3) (o : BitVec 9) (sw : Bool) (s : State) : Host.Outcome State Fault Refusal :=
  issue ({ use := useLoad d a w, sw := sw, d := d.toNat, w := w, kind := 0, slot := none, taint := anyTaint,
           addrs := fun is sel g => pairAddrs (useLoad d a w) is sel g o (sizeOf_ w) } : LoadOp).op s

/-- `ld.acq` (10 R284): the destination is untainted. -/
def execLdAcq (d a : BitVec 6) (w : BitVec 3) (q : BitVec 2) (o : BitVec 6) (sw : Bool) (s : State) : Host.Outcome State Fault Refusal :=
  issue ({ use := useLoad d a w, sw := sw, d := d.toNat, w := w, kind := 2, slot := some q, taint := fun _ => false,
           addrs := fun is sel g => pairAddrs (useLoad d a w) is sel g o (sizeOf_ w) } : LoadOp).op s

/-- `ld.con` (10 R284): the destination is tainted. -/
def execLdCon (d a : BitVec 6) (w : BitVec 3) (q : BitVec 2) (o : BitVec 6) (sw : Bool) (s : State) : Host.Outcome State Fault Refusal :=
  issue ({ use := useLoad d a w, sw := sw, d := d.toNat, w := w, kind := 3, slot := some q, taint := fun _ => true,
           addrs := fun is sel g => pairAddrs (useLoad d a w) is sel g o (sizeOf_ w) } : LoadOp).op s

/-! ### Releases -/

/-- The act accesses global memory (05 R170). -/
def Act.global (a : Act) : Bool :=
  match a with
  | .store _ => true
  | .atomic _ _ _ => true
  | _ => false

/-- It arrives at an object in another core's scratchpad (05 R170). -/
def State.arrivesAway (s : State) (g : Group) (a : Act) : Bool :=
  match a with
  | .arrive p _ _ => (s.blockPart g.place.blk p).any (fun q => q.core != g.place.core)
  | _ => false

/-- A release of an instruction, for the gate. -/
def heldOf (s : State) (is : Issue) (sel : Sel) (g : Group) (e : ReplayEntry) (sw : Bool) (kind : Nat) (scope : BitVec 5) (act : Act) : Held :=
  { id := 0, g := sel.g, bundle := sel.bundle, mask := sel.mask, kind := kind, scope := scope, cls := s.classOf g scope, pc := is.pc, entry := e,
    replay := is.replay.isSome, sw := sw, lines := [], acks := [], sc := kind == 12, outside := act.global || s.arrivesAway g act, act := act }

/-- EINJ of kind 6 names the line of one of the pointers (17 R424). -/
def Group.bypasses (g : Group) (l : List Word64) : Bool :=
  g.armed 6 && l.any (fun p => !bit p 63 && decide ((field 0 56 p).toNat / 256 = (field 2 48 g.regs.einj).toNat))

/-- An event that a release which did not wait at the gate should have waited for (20 R465): without a stamp, or a write that only has a LEVEL 0 stamp. -/
def State.missingStamp (s : State) (core : Nat) (h : Held) : Option MemEvent :=
  let c := s.coreAt core
  (unstamped (s.spread h.g) c { h with id := 2 ^ 64 }).head?.or
    (c.verified.find? (fun x => x.g == h.g && x.mask &&& h.mask != 0 && decide (2 ≤ pairEntry (s.spread h.g) x h.event) && x.unconfirmed))

/-- The finding of an injected release that performed without waiting (20 R465, R466). -/
def State.checkBypass (s : State) (core : Nat) (h : Held) (x : Option MemEvent) (pa : Nat) (ptr : Word64) : State :=
  match x with
  | none => s
  | some x =>
    let y : MemEvent :=
      { id := s.nextId + 1, g := h.g, mask := h.mask, kind := h.kind, scope := h.scope, cls := h.cls, line := some (lineOf pa), ptr := ptr,
        stamp := some (stampOf 1 (homeSliceOf pa) (s.line (lineOf pa)).interval (s.timeOf core)) }
    s.finding core 0x4801 x y true

/-! ### Stores -/

/-- A store of the group's lanes. -/
structure StoreOp where
  use : Use
  sw : Bool
  w : BitVec 3
  kind : Nat
  slot : Option (BitVec 2)
  addrs : Issue → Sel → Group → Addrs

/-- The data of a lane. -/
def StoreOp.value (o : StoreOp) (g : Group) (is : Issue) (L : Nat) : Nat :=
  valueOf ((g.gather o.use is.replay L).v.drop 2) % 2 ^ (8 * sizeOf_ o.w)

/-- The signature of a store (21 R511). -/
def StoreOp.signature (o : StoreOp) (is : Issue) (sel : Sel) (g : Group) : Signature :=
  { word := plainWord is, mask := sel.mask, addrs := (o.addrs is sel g).map Prod.snd
    data := (maskList sel.mask).map (fun L => [BitVec.ofNat 64 (o.value g is L), BitVec.ofNat 64 (o.value g is L / 2 ^ 64)]) }

/-- A release store clears the contained lines it may clear before its write (20 R471). -/
def State.clearLines (s : State) (cls : Nat) (l : List LaneStore) : State := l.foldl (fun s w => s.clearContained w.pa cls) s

/-- The stores of an instruction that wait for ownership keep its source registers unchanged when its entry would read them again (02 R68). -/
def State.keepSources (s old : State) (keep : List RegRef) : State :=
  { s with stores := s.stores.map (fun e => if old.stores.any (fun x => x.1 == e.1) then e else (e.1, { e.2 with keep := keep })) }

/-- The effect of a store once its lanes are translated. -/
def StoreOp.perform (o : StoreOp) (is : Issue) (sel : Sel) (e : ReplayEntry) (g : Group) (scope : BitVec 5) (hits : List Hit)
    (l : List LaneStore) (s : State) : State × Option LaneStop :=
  if o.kind = 4 then
    let h := { heldOf s is sel g e o.sw 4 scope (.store l) with mask := maskOf (l.map (·.L)) }
    if g.bypasses (l.map (·.ptr)) then
      let x := s.missingStamp g.place.core h
      let s := (s.modGroup sel.g Group.disarm).performStores g.place.core sel.g 4 scope h.cls none hits l
      (match l with
       | [] => s
       | w :: _ => s.checkBypass g.place.core h x w.pa w.ptr, none)
    else (s.holdRelease g.place.core h, none)
  else ((s.performStores g.place.core sel.g o.kind scope 0 none hits l).keepSources s e.keep, none)

/-- The effect of a store. The rear of a convoy performs no access of its own (02 R75). -/
def StoreOp.effect (o : StoreOp) (is : Issue) (sel : Sel) (e : ReplayEntry) (s : State) : State × Option LaneStop :=
  match s.group sel.g with
  | none => (s, none)
  | some g =>
    let scope := (o.slot.map e.scopeSlot).getD 0
    let sig := o.signature is sel g
    if g.place.paired && g.place.rear then s.submit is sel e o.sw [] sig o.kind scope (.store []) (fun s => (s, none))
    else
      let r := s.laneAccesses sel.g g { write := true } (o.addrs is sel g)
      let hits := r.2.2
      let l := storesOf hits (o.value g is) (sizeOf_ o.w)
      let miss := s.convoyMiss sel.g g (missStop none (maskOf (hits.map (·.L))) r.2.1)
      if hits.isEmpty || (miss.isSome && s.inConvoy sel.g g) then (r.1, miss)
      else
        let t := r.1.submit is { sel with mask := maskOf (hits.map (·.L)) } e o.sw [] sig o.kind scope (.store l)
          (o.perform is sel e g scope hits l)
        (t.1, miss)

/-- A store as an issue. -/
def StoreOp.op (o : StoreOp) : Op :=
  { use := o.use, sw := o.sw, mem := true, compared := true
    checks := fun s is sel g => stdChecks o.use is sel g ++ globalStops s is sel g false true (sizeOf_ o.w) none (o.addrs is sel g)
    instead := fun s is sel g => (watchDebug s is sel g false true (sizeOf_ o.w) (o.addrs is sel g)).or (s.engineWaits is sel g (o.addrs is sel g))
    effect := o.effect }

/-- The operands of a store: the pointer pair, then the data. -/
def useStore (b a : BitVec 6) (w : BitVec 3) : Use := { vsrc := [{ reg := a.toNat, cnt := 2 }, { reg := b.toNat, cnt := wordsOfWidth w }] }

/-- `st` (10 R279). -/
def execSt (b a : BitVec 6) (w : BitVec 3) (o : BitVec 9) (sw : Bool) (s : State) : Host.Outcome State Fault Refusal :=
  issue ({ use := useStore b a w, sw := sw, w := w, kind := 1, slot := none,
           addrs := fun is sel g => pairAddrs (useStore b a w) is sel g o (sizeOf_ w) } : StoreOp).op s

/-- `st.rel` (10 R284). -/
def execStRel (b a : BitVec 6) (w : BitVec 3) (q : BitVec 2) (o : BitVec 6) (sw : Bool) (s : State) : Host.Outcome State Fault Refusal :=
  issue ({ use := useStore b a w, sw := sw, w := w, kind := 4, slot := some q,
           addrs := fun is sel g => pairAddrs (useStore b a w) is sel g o (sizeOf_ w) } : StoreOp).op s

/-! ### Scratchpad (10 R281) -/

/-- The operands of `lds` and `sts`. -/
def useLds (d a : BitVec 6) (w : BitVec 3) : Use := { vsrc := [{ reg := a.toNat }], vdst := [(d.toNat, wordsOfWidth w)] }
def useSts (b a : BitVec 6) (w : BitVec 3) : Use := { vsrc := [{ reg := a.toNat }, { reg := b.toNat, cnt := wordsOfWidth w }] }

/-- The scratchpad addresses of the active lanes. -/
def scratchAddrs (u : Use) (is : Issue) (sel : Sel) (g : Group) (off : BitVec 9) (size : Nat) : Addrs :=
  (maskList sel.mask).map (fun L => (L, scratchAddr (g.gather u is.replay L).a off size))

/-- The spots of the lanes. -/
def State.spots (s : State) (g : Group) (size : Nat) (l : Addrs) : List (Nat × Spot) :=
  l.filterMap (fun a => (s.spot g a.2 size).map (fun p => (a.1, p)))

/-- The bounds check of a scratchpad access (03 R92, 10 R281): bits [31:22] of the register must be zero as well. -/
def scratchBounds (u : Use) (o : BitVec 9) (size : Nat) (s : State) (is : Issue) (sel : Sel) (g : Group) : Option Stop :=
  match (scratchAddrs u is sel g o size).filter (fun e => field 22 10 (g.gather u is.replay e.1).a != 0 || (s.spot g e.2 size).isNone) with
  | [] => none
  | e :: es => some { code := 0x1301, mask := maskOf ((e :: es).map Prod.fst), addr := e.2 }

/-- The checks of a scratchpad access. -/
def scratchChecks (u : Use) (o : BitVec 9) (size : Nat) (s : State) (is : Issue) (sel : Sel) (g : Group) : List (Option Stop) :=
  stdChecks u is sel g ++ [scratchBounds u o size s is sel g, alignStop size none (scratchAddrs u is sel g o size)]

/-- The writes of an `lds`, with the error check of each lane's bytes (20 R475). -/
def State.ldsWrites (s : State) (g : Group) (is : Issue) (u : Use) (d : Nat) (w : BitVec 3) : List (Nat × Spot) → State × List RegWrite
  | [] => (s, [])
  | p :: ps =>
    let c := s.checkScratch g.place.ctx g.place.blk p.2 (sizeOf_ w)
    let r := c.1.ldsWrites g is u d w ps
    (r.1, laneLoad d (loadWords w (s.readScratch g.place.blk p.2 (sizeOf_ w))) p.1 (anyTaint (g.gather u is.replay p.1)) c.2 ++ r.2)

/-- `lds` (10 R281): a destination word is tainted when the address register is. -/
def execLds (d a : BitVec 6) (w : BitVec 3) (o : BitVec 9) (sw : Bool) (s : State) : Host.Outcome State Fault Refusal :=
  issue
    { use := useLds d a w, sw := sw, mem := true, checks := scratchChecks (useLds d a w) o (sizeOf_ w)
      effect := fun is sel e s =>
        match s.group sel.g with
        | none => (s, none)
        | some g =>
          let l := s.spots g (sizeOf_ w) (scratchAddrs (useLds d a w) is sel g o (sizeOf_ w))
          let s := s.scratchEvent sel.g g sel.mask 0 0 (l.map (fun p => (p.2, sizeOf_ w)))
          let r := s.ldsWrites g is (useLds d a w) d.toNat w l
          let s := r.1
          let ws := r.2
          (s.loadOut is sel e [] ws, none) } s

/-- `sts` (10 R281). -/
def execSts (b a : BitVec 6) (w : BitVec 3) (o : BitVec 9) (sw : Bool) (s : State) : Host.Outcome State Fault Refusal :=
  issue
    { use := useSts b a w, sw := sw, mem := true, checks := scratchChecks (useSts b a w) o (sizeOf_ w)
      effect := fun is sel _ s =>
        match s.group sel.g with
        | none => (s, none)
        | some g =>
          let l := s.spots g (sizeOf_ w) (scratchAddrs (useSts b a w) is sel g o (sizeOf_ w))
          let s := s.scratchEvent sel.g g sel.mask 1 0 (l.map (fun p => (p.2, sizeOf_ w)))
          (l.foldl (fun s p => s.writeScratch g.place.blk p.2 (sizeOf_ w)
            (valueOf ((g.gather (useSts b a w) is.replay p.1).v.drop 1) % 2 ^ (8 * sizeOf_ w))) s, none) } s

/-! ### Uniform loads and stores (10 R283) -/

/-- The single access of a uniform load or store (10 R283): s[sa] + sext(off8) * 8, from the register or from a re-injected entry's captured source. -/
def uniformAddrs (is : Issue) (sel : Sel) (g : Group) (a : BitVec 8) (o : BitVec 8) : Addrs :=
  [(lowestOf sel.mask, (match is.replay with
    | some e => e.uni.getD 0 0
    | none => g.sget a.toNat) + 8 * sext 64 o)]

/-- `s.ld` (10 R283): one access stands for every lane; a poisoned word raises 0x100A and writes nothing. -/
def sLdEffect (d a o : BitVec 8) (is : Issue) (sel : Sel) (e : ReplayEntry) (s : State) : State × Option LaneStop :=
  match s.group sel.g with
  | none => (s, none)
  | some g =>
    match s.takeLoad sel.g g with
    | some (s, ws) => ((s.loadOut is sel e [] ws).modGroup sel.g (fun g => g.noteSplit sel.bundle), none)
    | none =>
      let r := s.laneAccesses sel.g g { read := true } (uniformAddrs is sel g a o)
      match r.2.2 with
      | [] => (r.1.passLoad is sel 0 [], missStop (some sel.mask) 0 r.2.1)
      | h :: _ =>
        let s := r.1.loadSectors g.place.core sel.g 0 0 0 8 (some sel.mask) [h]
        let v := s.loadValue h 8
        if v.2 then
          (s.passLoad is sel 0 [], some { stop := { code := 0x100A, mask := sel.mask, addr := operandAddr 1 d.toNat }, done := 0 })
        else
          let x := if regionOf h.pa = 2 then Config.freeWord s.free else BitVec.ofNat 64 v.1
          let s := (s.loadOut is sel e [h] [.s d.toNat x] (some sel.mask)).passLoad is sel sel.mask [.s d.toNat x]
          (s.modGroup sel.g (fun g => g.noteSplit sel.bundle), none)

/-- `s.ld` (10 R283). -/
def execSLd (d a o : BitVec 8) (sw : Bool) (s : State) : Host.Outcome State Fault Refusal :=
  issue
    { use := { ssrc := [a.toNat], sdst := [d.toNat] }, sw := sw, mem := true
      checks := fun s is sel g => stdChecks { ssrc := [a.toNat], sdst := [d.toNat] } is sel g
        ++ globalStops s is sel g true false 8 (some sel.mask) (uniformAddrs is sel g a o)
      instead := fun s is sel g => (watchDebug s is sel g true false 8 (uniformAddrs is sel g a o)).or
        ((s.loadWaits is sel g (uniformAddrs is sel g a o)).or (s.engineWaits is sel g (uniformAddrs is sel g a o)))
      effect := sLdEffect d a o } s

/-- The effect of `s.st`. -/
def sStEffect (d a o : BitVec 8) (sw : Bool) (is : Issue) (sel : Sel) (e : ReplayEntry) (s : State) : State × Option LaneStop :=
  match s.group sel.g with
  | none => (s, none)
  | some g =>
    let x := (e.uni.getD 1 (g.sget d.toNat))
    let l := uniformAddrs is sel g a o
    let sig : Signature := { word := plainWord is, mask := sel.mask, addrs := l.map Prod.snd, data := [[x]] }
    if g.place.paired && g.place.rear then s.submit is sel e sw [] sig 1 0 (.store []) (fun s => (s, none))
    else
      let r := s.laneAccesses sel.g g { write := true } l
      match r.2.2 with
      | [] => (r.1, missStop (some sel.mask) 0 r.2.1)
      | h :: _ =>
        let w := storesOf [h] (fun _ => x.toNat) 8
        r.1.submit is sel e sw [] sig 1 0 (.store w) (fun s => (s.performStores g.place.core sel.g 1 0 0 (some sel.mask) [h] w, none))

/-- `s.st` (10 R283). -/
def execSSt (d a o : BitVec 8) (sw : Bool) (s : State) : Host.Outcome State Fault Refusal :=
  issue
    { use := { ssrc := [a.toNat, d.toNat] }, sw := sw, mem := true, compared := true
      checks := fun s is sel g => stdChecks { ssrc := [a.toNat, d.toNat] } is sel g
        ++ globalStops s is sel g false true 8 (some sel.mask) (uniformAddrs is sel g a o)
      instead := fun s is sel g => (watchDebug s is sel g false true 8 (uniformAddrs is sel g a o)).or
        (s.engineWaits is sel g (uniformAddrs is sel g a o))
      effect := sStEffect d a o sw } s

/-! ### Atomics and reductions (10 R285-R289) -/

/-- Bytes of an atomic. -/
def atomSize (o : BitVec 4) : Nat := if 11 ≤ o && o ≤ 13 then 8 else 4

/-- Data registers of an atomic, as operands: cas names two registers of any parity (10 R285). -/
def atomData (b : BitVec 6) (o : BitVec 4) : List VSrc :=
  if o = 10 then [{ reg := b.toNat }, { reg := b.toNat + 1 }]
  else if o = 11 || o = 12 then [{ reg := b.toNat, cnt := 2 }]
  else if o = 13 then [{ reg := b.toNat, cnt := 4 }]
  else [{ reg := b.toNat }]

/-- The signed and unsigned minimum and maximum. -/
def atomMinMax (o : BitVec 4) (old b : Word32) : Word32 :=
  if o = 2 then iminW old b else if o = 3 then imaxW old b else if o = 4 then nminW old b else nmaxW old b

/-- The new value of a 32-bit operation; none where nothing is written (10 R286). -/
def atomNew32 (o : BitVec 4) (old b c : Word32) : Option Word32 :=
  if o = 0 then some (old + b)
  else if o = 1 then some (fadd old b)
  else if o ≤ 5 then some (atomMinMax o old b)
  else if o = 6 then some (old &&& b)
  else if o = 7 then some (old ||| b)
  else if o = 8 then some (old ^^^ b)
  else if o = 9 then some b
  else if o = 10 then (if old = b then some c else none)
  else if o = 14 then some (if b.ule old then 0 else old + 1)
  else some (halves (fun x y => bf16.addCode x y) old b)

/-- The new value of a 64-bit operation. -/
def atomNew64 (o : BitVec 4) (old b c : Word64) : Option Word64 :=
  if o = 11 then some (old + b) else if o = 12 then some b else if old = b then some c else none

/-- The new value of an atomic from the old one and its data registers. -/
def atomNew (o : BitVec 4) (old : Nat) (d : List Word32) : Option Nat :=
  if atomSize o = 8 then
    (atomNew64 o (BitVec.ofNat 64 old) (pair (d.getD 0 0) (d.getD 1 0)) (pair (d.getD 2 0) (d.getD 3 0))).map (·.toNat)
  else (atomNew32 o (BitVec.ofNat 32 old) (d.getD 0 0) (d.getD 1 0)).map (·.toNat)

/-- The destination words of an old value. -/
def oldWords (o : BitVec 4) (x : Nat) : List Word32 :=
  if atomSize o = 8 then [BitVec.ofNat 32 x, BitVec.ofNat 32 (x / 2 ^ 32)] else [BitVec.ofNat 32 x]

/-- Apply the atomics of the lanes in ascending thread index: the old values with their poison. A peer's old value is free; its update happens
at the peer. -/
def applyAtomics (o : BitVec 4) : List LaneAtomic → State → State × List (Nat × Nat × Bool)
  | [], s => (s, [])
  | w :: ws, s =>
    if regionOf w.pa = 2 then
      let r := applyAtomics o ws { s with free := s.free + 1 }
      (r.1, (w.L, freeBytes s.free (atomSize o), false) :: r.2)
    else
      let old := s.readPhys w.pa (atomSize o)
      let p := s.poisonedAt w.pa || (regionOf w.pa == 1 && !s.cxlUp)
      let s := match atomNew o old w.data with
        | some x => (s.hideCode w.pa (atomSize o)).writeMem w.pa (atomSize o) x
        | none => s
      let r := applyAtomics o ws s
      (r.1, (w.L, old, p) :: r.2)

/-- The home's own check of an atomic (05 R178): it holds the line itself, and the TIMEs of successive atomics to the line rise. -/
def State.checkAtomic (s : State) (k : Nat) (site : Site) (stamp : BitVec 96) : State :=
  let l := s.line (k / 4)
  if site != .home || l.contained.isSome then s
  else if (s.sectorOwner k).isSome || l.atomTime.any (fun t => !laterTime (stampTime stamp) t) then
    s.coherenceFinding (k / 4) 0x4901 0 0 0
  else s.modLine (k / 4) (fun l => { l with atomTime := some (stampTime stamp) })

/-- Atomics of a group's lanes perform at their sites (04 R147), which take the lines first, with their events and stamps. -/
def State.performAtomics (s : State) (core gi kind : Nat) (scope : BitVec 5) (cls : Nat) (o : BitVec 4) (hits : List Hit)
    (l : List LaneAtomic) : State × List (Nat × Nat × Bool) :=
  let sites := (hitSectors hits).foldl (fun (a : State × List (List Hit × Site)) k =>
    match hits.filter (fun h => sectorOf h.pa == k) with
    | [] => a
    | h :: hs =>
      let t := a.1.atomicSite h.pa h.home h.pin
      (t.1, a.2 ++ [(h :: hs, t.2)])) (s.injectHits gi hits, [])
  let r := applyAtomics o l sites.1
  let s := sites.2.foldl (fun s e =>
    match e.1 with
    | [] => s
    | h :: hs =>
      let x := s.stampAt core h.pa e.2
      (x.1.checkAtomic (sectorOf h.pa) e.2 x.2).addEvent core (sectorEvent gi kind scope cls (atomSize o) none (h :: hs)) x.2) r.1
  (s, r.2)

/-- Send the peers' atomics: a load for one with a destination, a store for a reduction. The host's coherence domain acknowledges those to its memory
(04 R153). -/
def State.sendAtomics (s : State) (core gi : Nat) (out : Option Nat) (hits : List Hit) : State :=
  (hits.filter (fun h => regionOf h.pa != 0)).foldl (fun s h =>
    let peer := regionOf h.pa == 2
    s.sendRemote (dieOfCore core) (if peer then peerOf h.pa else 0)
      { host := !peer, g := gi, mask := oneBit h.L, pa := h.pa, ptr := h.ptr, kind := if peer && out.isSome then 1 else 0, out := if peer then out else none }) s

/-- The old values as register writes, untainted (10 R286). -/
def oldWrites (o : BitVec 4) (dst : Option Nat) (l : List (Nat × Nat × Bool)) : List RegWrite :=
  match dst with
  | none => []
  | some d => l.flatMap (fun e => laneLoad d (oldWords o e.2.1) e.1 false e.2.2)

/-- Give an atomic's values to the group that waits for them: its return is on its way, or waits for the peers. -/
def State.returnAtomic (s : State) (gi : Nat) (m : Mask) (e : ReplayEntry) (bundle : Mask) (dst : Option Nat) (hits : List Hit)
    (ws : List RegWrite) : State :=
  match s.group gi, dst with
  | none, _ => s
  | some g, some _ =>
    let id := g.flow.nextId
    let s := s.modGroup gi (fun g => g.putOutstanding { id := id, kind := .load, entry := { e with mask := m }, bundle := bundle, writes := ws })
    let s := s.sendAtomics g.place.core gi (some id) hits
    if hits.any (fun h => regionOf h.pa == 2) then s.modGroup gi (fun g => g.watchFor id bundle e) else s.later 24 (.loadDataReturn gi id)
  | some g, none => s.sendAtomics g.place.core gi none hits

/-- Lanes of an acquiring atomic whose line is contained: they apply nothing (20 R470). -/
def containedHits (s : State) (kind : Nat) (hits : List Hit) : List Hit :=
  if kindAcquires kind then hits.filter (fun h => (s.containedAt h.pa).isSome) else []

/-- The atomics of a group perform now, and their values return. A release that has passed the gate clears the contained lines it may clear (20 R471). -/
def State.atomicNow (s : State) (core gi : Nat) (g : Group) (kind : Nat) (scope : BitVec 5) (cls : Nat) (o : BitVec 4) (dst : Option Nat)
    (e : ReplayEntry) (bundle : Mask) (hits : List Hit) (l : List LaneAtomic) (clears : Bool := true) : State × Option LaneStop :=
  let bad := containedHits s kind hits
  let hits := hits.filter (fun h => !bad.contains h)
  let l := l.filter (fun w => !bad.any (fun h => h.L == w.L))
  let m := maskOf (hits.map (·.L))
  let s := if clears && kindReleases kind then hits.foldl (fun s h => s.clearContained h.pa cls) s else s
  let r := s.performAtomics core gi kind scope cls o hits l
  let s := if hits.isEmpty then r.1 else r.1.returnAtomic gi m e bundle dst hits (oldWrites o dst r.2)
  (s, acquireStop s g kind scope cls m bad)

/-- An atomic or reduction. -/
structure AtomOp where
  use : Use
  sw : Bool
  o : BitVec 4
  dst : Option Nat
  kind : Nat
  slot : Option (BitVec 2)

/-- The addresses of an atomic. -/
def AtomOp.addrs (o : AtomOp) (is : Issue) (sel : Sel) (g : Group) : Addrs := pairAddrs o.use is sel g (0#9) 1

/-- The registers its values go to. -/
def AtomOp.dstRegs (o : AtomOp) : List Nat := o.dst.elim [] (fun d => if atomSize o.o = 8 then [d, d + 1] else [d])

/-- The data of a lane. -/
def AtomOp.data (o : AtomOp) (g : Group) (is : Issue) (L : Nat) : List Word32 := (g.gather o.use is.replay L).v.drop 2

/-- The signature of an atomic (21 R511). -/
def AtomOp.signature (o : AtomOp) (is : Issue) (sel : Sel) (g : Group) : Signature :=
  { word := plainWord is, mask := sel.mask, addrs := (o.addrs is sel g).map Prod.snd
    data := (maskList sel.mask).map (fun L => (o.data g is L).map (zext 64)) }

/-- The effect of an atomic whose lanes are translated, outside a convoy. -/
def AtomOp.perform (o : AtomOp) (is : Issue) (sel : Sel) (e : ReplayEntry) (g : Group) (scope : BitVec 5) (hits : List Hit)
    (l : List LaneAtomic) (s : State) : State × Option LaneStop :=
  let h := { heldOf s is sel g e o.sw o.kind scope (.atomic o.o o.dst l) with mask := maskOf (l.map (·.L)) }
  let cls := if o.slot.isSome then h.cls else 0
  if kindReleases o.kind then
    if g.bypasses (l.map (·.ptr)) then
      let x := s.missingStamp g.place.core h
      let r := (s.modGroup sel.g Group.disarm).atomicNow g.place.core sel.g g o.kind scope cls o.o o.dst e sel.bundle hits l (clears := false)
      (match l with
       | [] => r.1
       | w :: _ => r.1.checkBypass g.place.core h x w.pa w.ptr, r.2)
    else (s.holdRelease g.place.core h, none)
  else s.atomicNow g.place.core sel.g g o.kind scope cls o.o o.dst e sel.bundle hits l

/-- The effect of an atomic. -/
def AtomOp.effect (o : AtomOp) (is : Issue) (sel : Sel) (e : ReplayEntry) (s : State) : State × Option LaneStop :=
  match s.group sel.g with
  | none => (s, none)
  | some g =>
    let scope := (o.slot.map e.scopeSlot).getD 0
    let sig := o.signature is sel g
    if g.place.paired && g.place.rear then
      s.submit is sel e o.sw o.dstRegs sig o.kind scope (.atomic o.o o.dst []) (fun s => (s, none))
    else
      let r := s.laneAccesses sel.g g { read := o.dst.isSome, write := true } (o.addrs is sel g)
      let hits := r.2.2
      let done := maskOf (hits.map (·.L))
      let l : List LaneAtomic := hits.map (fun h => { L := h.L, ptr := h.ptr, pa := h.pa, data := o.data g is h.L })
      let miss := s.convoyMiss sel.g g (missStop none done r.2.1)
      if hits.isEmpty || (miss.isSome && s.inConvoy sel.g g) then (r.1, miss)
      else
        let t := r.1.submit is { sel with mask := done } e o.sw o.dstRegs sig o.kind scope (.atomic o.o o.dst l)
          (o.perform is sel e g scope hits l)
        (t.1, miss.or t.2)

/-- An atomic as an issue. -/
def AtomOp.op (o : AtomOp) : Op :=
  { use := o.use, sw := o.sw, mem := true, compared := true
    checks := fun s is sel g => stdChecks o.use is sel g ++ globalStops s is sel g o.dst.isSome true (atomSize o.o) none (o.addrs is sel g)
    instead := fun s is sel g => (watchDebug s is sel g o.dst.isSome true (atomSize o.o) (o.addrs is sel g)).or
      (s.engineWaits is sel g (o.addrs is sel g))
    effect := o.effect }

/-- The operands of an atomic with a destination. -/
def useAtom (d a b : BitVec 6) (o : BitVec 4) : Use :=
  { vsrc := { reg := a.toNat, cnt := 2 } :: atomData b o, vdst := [(d.toNat, if atomSize o = 8 then 2 else 1)] }

/-- `atom` (10 R286). -/
def execAtom (d a b : BitVec 6) (o : BitVec 4) (sw : Bool) (s : State) : Host.Outcome State Fault Refusal :=
  issue ({ use := useAtom d a b o, sw := sw, o := o, dst := some d.toNat, kind := 5, slot := none } : AtomOp).op s

/-- `atom.acq` (10 R287). -/
def execAtomAcq (d a b : BitVec 6) (o : BitVec 4) (q : BitVec 2) (sw : Bool) (s : State) : Host.Outcome State Fault Refusal :=
  issue ({ use := useAtom d a b o, sw := sw, o := o, dst := some d.toNat, kind := 6, slot := some q } : AtomOp).op s

/-- `atom.rel` (10 R287). -/
def execAtomRel (d a b : BitVec 6) (o : BitVec 4) (q : BitVec 2) (sw : Bool) (s : State) : Host.Outcome State Fault Refusal :=
  issue ({ use := useAtom d a b o, sw := sw, o := o, dst := some d.toNat, kind := 7, slot := some q } : AtomOp).op s

/-- `atom.ar` (10 R287). -/
def execAtomAr (d a b : BitVec 6) (o : BitVec 4) (q : BitVec 2) (sw : Bool) (s : State) : Host.Outcome State Fault Refusal :=
  issue ({ use := useAtom d a b o, sw := sw, o := o, dst := some d.toNat, kind := 8, slot := some q } : AtomOp).op s

/-- `red` (10 R286, R287): a release when its order bit is set. -/
def execRed (r : BitVec 1) (a b : BitVec 6) (o : BitVec 4) (q : BitVec 2) (sw : Bool) (s : State) : Host.Outcome State Fault Refusal :=
  issue ({ use := { vsrc := { reg := a.toNat, cnt := 2 } :: atomData b o }, sw := sw, o := o, dst := none,
           kind := if r = 1 then 7 else 5, slot := if r = 1 then some q else none } : AtomOp).op s

end Sys2Proof.Machine
end

