-- ==== Sys2Proof/Machine/Rounds.lean ====
section
/-! DEFINITION. The rounds of `gbar` (08 R236) and `bsync` (10 R299), and `exit` with what it ends (08 R233, R234). -/
namespace Sys2Proof.Machine

/-- A `gbar` round completes when every live thread of the group waits in it (08 R236): each performs its acquire at group scope (04 R145). -/
def State.gbarRound (s : State) (gi : Nat) : State :=
  match s.group gi with
  | none => s
  | some g =>
    if g.live ≠ 0 ∧ g.waiting .gbar = g.live then
      (s.modGroup gi (fun g => g.modLanes g.live (fun _ t => { t with wait := .none }))).plainEvent gi g.place.core g.live 14 0 0
    else s

/-- The threads of a group go on past their `bsync`, each with its acquire at block scope (04 R145). -/
def State.passBsync (s : State) (gi : Nat) : State :=
  match s.group gi with
  | none => s
  | some g =>
    let m := g.waiting .bsync
    if m = 0 then s else (s.modGroup gi (fun g => g.modLanes m (fun _ t => t.wake (t.pc + 4)))).plainEvent gi g.place.core m 14 1 0

/-- A `bsync` round completes when every live thread of the block waits in it; no group may be away from its core (10 R299). -/
def State.bsyncRound (s : State) (b : Nat) : State :=
  let gs := s.blockGroups b
  if gs.all (fun k => (s.group k).all Group.inBsync) then gs.foldl State.passBsync s else s

/-- The groups of a context that live: an exited thread is not counted (08 R233). -/
def State.liveGroups (s : State) (ctx : Nat) : List Group :=
  (s.groups.map Prod.snd).filter (fun g => g.place.ctx == ctx && g.st != .ended && g.live != 0)

/-- The context's watermark: the lowest passed mark of its live groups plus one; G when there is none (03 R115). -/
def State.watermark (s : State) (ctx : Nat) (G : Word64) : Word64 :=
  match s.liveGroups ctx with
  | [] => G
  | g :: gs => (gs.foldl (fun m h => if h.sched.passed.ult m then h.sched.passed else m) g.sched.passed) + 1

/-- The watermark has passed G: the service kernel is to advance it. -/
def State.checkWatermark (s : State) (ctx : Nat) : State :=
  match s.context ctx with
  | none => s
  | some c => if c.gen.ult (s.watermark ctx c.gen) then s.push [.generationAdvance ctx] else s

/-- What follows an exit: rounds that the thread held back, the watermark, and the end of the group (03 R115, 08 R234). -/
def State.afterExit (s : State) (gi : Nat) : State :=
  match s.group gi with
  | none => s
  | some g =>
    let s := (s.gbarRound gi).bsyncRound g.place.blk
    if g.live = 0#64 then (s.checkWatermark g.place.ctx).push [.groupEnd gi] else s

/-- Threads exit (08 R233). -/
def exitEffect (is : Issue) (sel : Sel) (s : State) : State :=
  (s.modGroup sel.g (fun g => (g.modLanes sel.mask (fun _ t => { t with pc := is.pc })).exitThreads sel.mask)).afterExit sel.g

/-- The last live threads of the block are these. -/
def State.lastOfBlock (s : State) (sel : Sel) (g : Group) : Bool :=
  (s.blockGroups g.place.blk).all (fun k => (s.group k).all (fun x => (if k = sel.g then x.live &&& ~~~sel.mask else x.live) == 0))

/-- `exit`: the last one of a block is a release at device scope, which waits at the gate (04 R145, 05 R175). -/
def State.exitOrHold (s : State) (is : Issue) (sel : Sel) (e : ReplayEntry) (sw : Bool) : State :=
  match s.group sel.g with
  | none => s
  | some g =>
    if s.lastOfBlock sel g then s.holdRelease g.place.core (heldOf s is sel g e sw 4 5 .exit) else exitEffect is sel s

end Sys2Proof.Machine
end

