-- ==== Sys2Proof/Machine/Sync.lean ====
section
/-! DEFINITION. Fences (10 R290, R291), scope slots (R292), barrier objects (R293-R298, 12 R329, R330), `bsync` (R299) and generations (R301,
03 R114-R116). -/
namespace Sys2Proof.Machine

/-! ### Barrier objects (12 R329) -/

/-- A barrier object. -/
structure BarObj where
  pending : Nat
  control : BitVec 32
  last : Word64
  acc : Word64
deriving DecidableEq, Repr

/-- Read an object. -/
def State.readBar (s : State) (b : Nat) (p : Spot) : BarObj :=
  { pending := s.readScratch b p 4, control := BitVec.ofNat 32 (s.readScratch b { p with off := p.off + 4 } 4)
    last := BitVec.ofNat 64 (s.readScratch b { p with off := p.off + 8 } 8)
    acc := BitVec.ofNat 64 (s.readScratch b { p with off := p.off + 16 } 8) }

/-- Write an object. -/
def State.writeBar (s : State) (b : Nat) (p : Spot) (o : BarObj) : State :=
  (((s.writeScratch b p 4 o.pending).writeScratch b { p with off := p.off + 4 } 4 o.control.toNat).writeScratch b { p with off := p.off + 8 } 8
    o.last.toNat).writeScratch b { p with off := p.off + 16 } 8 o.acc.toNat

/-- The phase bit. -/
def BarObj.phase (o : BarObj) : Bool := bit o.control 0

/-- The flip (10 R296). -/
def BarObj.flip (o : BarObj) : BarObj :=
  { pending := (field 2 30 o.control).toNat, control := o.control ^^^ 1#32, last := o.acc ||| 1#64, acc := 0 }

/-- Take `n` from the pending count; at 0 the phase flips (10 R296). -/
def BarObj.take (o : BarObj) (n : Nat) : BarObj :=
  let o := { o with pending := o.pending - n }
  if o.pending = 0 then o.flip else o

/-- The key a waiting thread keeps of its object. -/
def Spot.key (p : Spot) : Nat := 2 ^ 20 * p.part + p.off + 1

/-- The threads that a flip releases from `bar.wait` (10 R297). -/
def Group.released (g : Group) (key : Nat) (phase : Bool) : Mask :=
  g.which (fun t => t.wait == .barWait && t.waitOn == key && t.waitParity != phase)

/-- They leave it. -/
def Group.releaseWaiters (g : Group) (key : Nat) (phase : Bool) : Group := g.modLanes (g.released key phase) (fun _ t => t.wake (t.pc + 4))

/-- The TIMEs of an object (05 R178): the largest of the arrivals and completions of this phase, and that of the last flip. -/
def State.flipTime (s : State) (b : Nat) (p : Spot) : FlipTime := ((s.blockPart b p.part).bind (fun q => Tab.get? (p.off / 32) q.flips)).getD {}

/-- Record the event of a barrier operation at block scope (04 R145). A wait must be later than the flip it observes (05 R178). -/
def State.barEvent (s : State) (gi : Nat) (g : Group) (m : Mask) (kind : Nat) (p : Spot) : State :=
  s.scratchEvent gi g m kind 0 [(p, 32)] (if kind = 13 || kind = 14 then 1 else 0)
    (if kind = 14 then some (s.flipTime g.place.blk p).last else none)

/-- Release the waiters of an object in every Resident group of its block: each performs its acquire (04 R145). -/
def State.wakeWaiters (s : State) (b : Nat) (p : Spot) : State :=
  let ph := (s.readBar b p).phase
  (s.blockGroups b).foldl (fun s k =>
    match s.group k with
    | none => s
    | some g =>
      let m := g.released p.key ph
      if g.st != .resident || m = 0 then s
      else (s.barEvent k g m 14 p).modGroup k (fun g => g.releaseWaiters p.key ph)) s

/-- An arrival or completion of a TIME enters the phase; the flip carries the largest (05 R178). -/
def State.noteTime (s : State) (b : Nat) (p : Spot) (time : BitVec 48) (flips : Bool) : State :=
  let f := s.flipTime b p
  let t := if laterTime time f.acc then time else f.acc
  s.modBlk b (fun k => k.modPart p.part (fun q => { q with flips := Tab.put (p.off / 32) (if flips then { acc := 0, last := t } else { f with acc := t }) q.flips }))

/-- Change an object by an arrival or a completion of a TIME, and release its waiters. -/
def State.updateBar (s : State) (b : Nat) (p : Spot) (o : BarObj) (time : BitVec 48) : State :=
  ((s.writeBar b p o).noteTime b p time (o.phase != (s.readBar b p).phase)).wakeWaiters b p

/-! ### The barrier instructions (10 R293-R298) -/

/-- The object of an address: the named core's part and the offset. -/
def State.barSpot (s : State) (g : Group) (a : Word64) : Option Spot := s.spot g a 32

/-- The object index of an address. -/
def objIndex (a : Word64) : Nat := (field 0 20 a).toNat / 32

/-- The index must lie below the block's barrier objects. -/
def indexStop (s : State) (sel : Sel) (g : Group) (a : Word64) : Option Stop :=
  let n := ((s.manifestOf g.place.blk).map (·.objects)).getD 0
  if n ≤ objIndex a then some (illegal sel.mask 7 (objIndex a)) else none

/-- Bounds and alignment of an object. -/
def objStops (s : State) (sel : Sel) (g : Group) (a : Word64) : List (Option Stop) :=
  [if (s.barSpot g a).isNone then some { code := 0x1301, mask := sel.mask, addr := a } else none,
   if a.toNat % 32 != 0 then some { code := 0x1004, mask := sel.mask, addr := a } else none]

/-- The checks of a barrier instruction (18 R435): registers, object index, then bounds and alignment. -/
def barChecks (u : Use) (a : BitVec 8) (more : State → Issue → Sel → Group → Option Stop) (s : State) (is : Issue) (sel : Sel) (g : Group) :
    List (Option Stop) :=
  [operandStop g sel.mask u, indexStop s sel g (uniSrc is g a 0), more s is sel g] ++ objStops s sel g (uniSrc is g a 0)

/-- No further check. -/
def noStop (_ : State) (_ : Issue) (_ : Sel) (_ : Group) : Option Stop := none

/-- Engine operations outstanding on an object in the barrier map of its part (02 R70). -/
def State.engineOps (s : State) (b : Nat) (p : Spot) : Nat :=
  (((s.blockPart b p.part).bind (fun x => Tab.get? (p.off / 32) x.bars)).map (·.outstanding)).getD 0

/-- The barrier map of a part: one more engine operation on an object, which an engine now completes onto (02 R70). -/
def State.engineStart (s : State) (b part obj : Nat) : State :=
  s.modBlk b (fun k => k.modPart part (fun q =>
    { q with bars := Tab.put obj { engine := true, outstanding := ((Tab.get? obj q.bars).map (·.outstanding)).getD 0 + 1 } q.bars }))

/-- One fewer. -/
def State.engineEnd (s : State) (b part obj : Nat) : State :=
  s.modBlk b (fun k => k.modPart part (fun q => { q with bars := Tab.modify obj (fun m => { m with outstanding := m.outstanding - 1 }) q.bars }))

/-- The conditions of `bar.init` (10 R294). -/
def initStop (a b : BitVec 8) (s : State) (is : Issue) (sel : Sel) (g : Group) : Option Stop :=
  let x := uniSrc is g b 1
  let bad := field 0 30 x == 0 || field 30 2 x != 0 || field 33 31 x != 0
    || (match s.barSpot g (uniSrc is g a 0) with
        | some p => decide (0 < s.engineOps g.place.blk p)
        | none => false)
  if bad then some (illegal sel.mask 7 (x.toNat % 256)) else none

/-- `bar.init` on an object (10 R294): the phase is kept; the barrier map's engine mark goes (02 R70). -/
def State.initBar (s : State) (b : Nat) (p : Spot) (x : Word64) : State :=
  let o := s.readBar b p
  let n := field 0 30 x
  let s := s.writeBar b p { pending := n.toNat, control := n ++ (field 32 1 x) ++ ofBool 1 o.phase, last := 0, acc := 0 }
  s.modBlk b (fun k => k.modPart p.part (fun q => { q with bars := Tab.del (p.off / 32) q.bars }))

/-- The spot and the block of a barrier instruction. -/
def withObj (a : BitVec 8) (is : Issue) (sel : Sel) (s : State) (f : Group → Spot → Word64 → State × Option LaneStop) :
    State × Option LaneStop :=
  match s.group sel.g with
  | none => (s, none)
  | some g =>
    match s.barSpot g (uniSrc is g a 0) with
    | none => (s, none)
    | some p => f g p (uniSrc is g a 0)

/-- `bar.init` (10 R294). -/
def execBarInit (a b : BitVec 8) (sw : Bool) (s : State) : Host.Outcome State Fault Refusal :=
  issue
    { use := { ssrc := [a.toNat, b.toNat] }, sw := sw, mem := true, checks := barChecks { ssrc := [a.toNat, b.toNat] } a (initStop a b)
      effect := fun is sel _ s => withObj a is sel s (fun g p _ =>
        ((s.barEvent sel.g g sel.mask 1 p).initBar g.place.blk p (uniSrc is g b 1), none)) } s

/-- The count of an arrival: 1 for s0, else bits [29:0] (10 R295). -/
def arrivalCount (is : Issue) (g : Group) (b : BitVec 8) : Nat := if b = 0 then 1 else (field 0 30 (uniSrc is g b 1)).toNat

/-- The barrier-count condition (10 R295): object address and n (18 R434). -/
def countStop (m : Mask) (a : Word64) (n : Nat) : LaneStop :=
  { stop := { code := 0x100B, mask := m, addr := BitVec.ofNat 32 n ++ 0#10 ++ field 0 22 a }, done := 0 }

/-- `bar.arrive` (10 R295): a release at block scope that waits at the gate. -/
def execBarArrive (a b : BitVec 8) (sw : Bool) (s : State) : Host.Outcome State Fault Refusal :=
  issue
    { use := { ssrc := [a.toNat, b.toNat] }, sw := sw, mem := true, checks := barChecks { ssrc := [a.toNat, b.toNat] } a noStop
      effect := fun is sel e s => withObj a is sel s (fun g p _ =>
        (s.holdRelease g.place.core (heldOf s is sel g e sw 13 1 (.arrive p.part p.off (arrivalCount is g b))), none)) } s

/-- `bar.expect` (10 R295). -/
def execBarExpect (a b : BitVec 8) (sw : Bool) (s : State) : Host.Outcome State Fault Refusal :=
  issue
    { use := { ssrc := [a.toNat, b.toNat] }, sw := sw, mem := true, checks := barChecks { ssrc := [a.toNat, b.toNat] } a noStop
      effect := fun is sel _ s => withObj a is sel s (fun g p x =>
        let n := arrivalCount is g b
        let o := s.readBar g.place.blk p
        if n = 0 || 2 ^ 30 - 1 < o.pending + n then (s, some (countStop sel.mask x n))
        else ((s.barEvent sel.g g sel.mask 1 p).writeBar g.place.blk p { o with pending := o.pending + n }, none)) } s

/-- `bar.wait` (10 R297): the threads wait at the instruction until the phase differs from their parity. -/
def execBarWait (a b : BitVec 8) (sw : Bool) (s : State) : Host.Outcome State Fault Refusal :=
  issue
    { use := { ssrc := [a.toNat, b.toNat] }, sw := sw, mem := true, checks := barChecks { ssrc := [a.toNat, b.toNat] } a noStop
      effect := fun is sel _ s => withObj a is sel s (fun g p _ =>
        let parity := bit (uniSrc is g b 1) 0
        if (s.readBar g.place.blk p).phase != parity then (s.barEvent sel.g g sel.mask 14 p, none)
        else
          (s.modGroup sel.g (fun g => g.modLanes sel.bundle (fun _ t =>
            { t with wait := .barWait, waitOn := p.key, waitParity := parity, pc := is.pc })), none)) } s

/-- `bar.test` (10 R297): a true result is an acquire. -/
def execBarTest (a b : BitVec 8) (p : BitVec 3) (sw : Bool) (s : State) : Host.Outcome State Fault Refusal :=
  issue
    { use := { ssrc := [a.toNat, b.toNat], pdst := [p.toNat] }, sw := sw, mem := true
      checks := barChecks { ssrc := [a.toNat, b.toNat] } a noStop
      effect := fun is sel _ s => withObj a is sel s (fun g q _ =>
        let x := (s.readBar g.place.blk q).phase != bit (uniSrc is g b 1) 0
        ((s.barEvent sel.g g sel.mask (if x then 14 else 0) q).modGroup sel.g (fun g =>
          g.modLanes sel.mask (fun _ t => t.setP p.toNat x)), none)) } s

/-- `bar.stat` (10 R298). -/
def execBarStat (a b : BitVec 8) (sw : Bool) (s : State) : Host.Outcome State Fault Refusal :=
  issue
    { use := { ssrc := [a.toNat], sdst := [b.toNat] }, sw := sw, mem := true
      checks := barChecks { ssrc := [a.toNat], sdst := [b.toNat] } a noStop
      effect := fun is sel _ s => withObj a is sel s (fun g p _ =>
        let x := (s.readBar g.place.blk p).last
        ((s.barEvent sel.g g sel.mask 0 p).modGroup sel.g (fun g => (g.setS b.toNat x).noteSplit sel.bundle), none)) } s

/-- `bsync` (10 R299): its arrival half waits at the release gate. -/
def execBsync (sw : Bool) (s : State) : Host.Outcome State Fault Refusal :=
  issue
    { use := {}, sw := sw, mem := true, checks := fun _ _ _ _ => []
      effect := fun is sel e s =>
        match s.group sel.g with
        | none => (s, none)
        | some g => (s.holdRelease g.place.core (heldOf s is sel g e sw 13 1 .bsync), none) } s

/-- `gbar` (08 R236): a release at group scope, which waits at the gate (04 R145, 05 R175). -/
def execGbar (sw : Bool) (s : State) : Host.Outcome State Fault Refusal :=
  issue
    { use := {}, sw := sw, checks := ctChecks {}
      effect := fun is sel e s =>
        match s.group sel.g with
        | none => (s, none)
        | some g => (s.holdRelease g.place.core (heldOf s is sel g e sw 13 0 .gbar), none) } s

/-! ### Fences and scope slots -/

/-- An invalid programmable entry is an illegal operand of kind 5 (10 R290, R292). -/
def scopeStop (s : State) (sel : Sel) (g : Group) (e : BitVec 5) : Option Stop :=
  if s.scopeValid g.place.ctx e then none else some (illegal sel.mask 5 e.toNat)

/-- `fence` (10 R290): it waits at the gate for what its kind orders before it; an acquiring fence closes no line there. -/
def execFence (e : BitVec 5) (k : BitVec 2) (sw : Bool) (s : State) : Host.Outcome State Fault Refusal :=
  issue
    { use := {}, sw := sw, mem := true, checks := fun s _ sel g => [scopeStop s sel g e]
      effect := fun is sel en s =>
        match s.group sel.g with
        | none => (s, none)
        | some g =>
          (s.holdRelease g.place.core (heldOf s is sel g en sw (9 + k.toNat) e .fence), none) } s

/-- Set a scope slot (02 R65). -/
def setSlot (x : BitVec 32) (q : BitVec 2) (i : BitVec 5) : BitVec 32 :=
  let sh := 8 * q.toNat
  (x &&& ~~~(0x1F#32 <<< sh)) ||| (zext 32 i <<< sh)

/-- `scope.set` (10 R292). -/
def execScopeSet (i : BitVec 5) (q : BitVec 2) (sw : Bool) (s : State) : Host.Outcome State Fault Refusal :=
  issue
    { use := {}, sw := sw, checks := fun s _ sel g => [scopeStop s sel g i]
      effect := fun _ sel _ => onGroup (fun g => { g with regs := { g.regs with qslot := setSlot g.regs.qslot q i } }) sel } s

/-! ### Generations (03 R114-R116) -/

/-- G advances by one, and the allocations below the watermark are reclaimed (03 R116). They are reclaimed at such an advance and at no other time: the
rule's own example keeps a generation below the watermark until then (DESIGN CHOICE, log 88). -/
def execGenerationAdvance (ctx : Nat) (s : State) : Host.Outcome State Fault Refusal :=
  match s.context ctx with
  | none => .next s
  | some c =>
    let w := s.watermark ctx c.gen
    if c.gen.ult w then
      let s := s.modCtx ctx (fun c => { c with gen := c.gen + 1
                                               allocs := c.allocs.filter (fun a => w.ule a.gen)
                                               reclaimed := c.reclaimed ++ c.allocs.filter (fun a => !w.ule a.gen) })
      .next (s.checkWatermark ctx)
    else .next s

/-- An access that the group issued has not performed: its data is outstanding, it waits for ownership, at the gate, in a compare buffer or for a peer's or the
host's acknowledgement. -/
def State.unperformed (s : State) (gi : Nat) (g : Group) : Bool :=
  g.flow.outstanding.any (fun o => o.kind == .load) || s.stores.any (fun e => e.2.g == gi) || (s.coreAt g.place.core).gate.any (fun h => h.g == gi)
    || s.remotes.any (fun e => e.2.g == gi && decide (e.2.kind < 3)) || (match s.convoyOf gi with
      | some (_, c) => if c.lead = gi then !c.held.isEmpty else c.rearEntry.isSome
      | none => false)

/-- `gen.pass` (10 R301): every access of the group has performed when it issues. -/
def execGenPass (sw : Bool) (s : State) : Host.Outcome State Fault Refusal :=
  issue
    { use := {}, sw := sw, checks := fun _ _ _ _ => []
      instead := fun s is sel g => if s.unperformed sel.g g then some (s.holdBack is sel) else none
      effect := fun _ sel _ s =>
        match s.group sel.g with
        | none => (s, none)
        | some g =>
          let G := ((s.context g.place.ctx).map (·.gen)).getD 1
          ((s.modGroup sel.g (fun g => { g with sched := { g.sched with passed := G } })).checkWatermark g.place.ctx, none) } s

/-- `gen.cur` (10 R301). -/
def execGenCur (d : BitVec 8) (sw : Bool) (s : State) : Host.Outcome State Fault Refusal :=
  issue
    { use := { sdst := [d.toNat] }, sw := sw, checks := fun _ _ sel g => [operandStop g sel.mask { sdst := [d.toNat] }]
      effect := fun _ sel _ s =>
        match s.group sel.g with
        | none => (s, none)
        | some g =>
          let G := ((s.context g.place.ctx).map (·.gen)).getD 1
          (s.modGroup sel.g (fun g => (g.setS d.toNat G).noteSplit sel.bundle), none) } s

end Sys2Proof.Machine
end

