-- ==== Sys2Proof/Machine/Cache.lean ====
section
/-! DEFINITION. Cache instructions (10 R300). -/
namespace Sys2Proof.Machine

/-- The physical sectors of the pages of a range that translate, with the HOME of each. -/
def State.rangeSectors (s : State) (g : Group) (V : Nat) : Nat → State × List (Nat × BitVec 2)
  | 0 => (s, [])
  | n + 1 =>
    match s.translate g.place.core g.place.ctx (V + 64 * n) { read := true } with
    | (s, .ok (pa, l)) =>
      let r := s.rangeSectors g V n
      (r.1, (sectorOf pa, pteHome l.entry) :: r.2)
    | (s, .error _) => s.rangeSectors g V n

/-- The sectors of the range of a pointer and a byte count. -/
def State.cacheRange (s : State) (g : Group) (p n : Word64) : State × List (Nat × BitVec 2) :=
  let lo := virtOf p / 64
  let hi := (virtOf p + n.toNat + 63) / 64
  if n = 0 then (s, []) else s.rangeSectors g (64 * lo) (hi - lo)

/-- Write one sector of a core's L1 back: it stays valid and is clean. The response carries the writer's end record (05 R166); a new interval begins. -/
def State.writeBackL1 (s : State) (core k : Nat) : State :=
  match (s.coreAt core).l1Line k with
  | none => s
  | some l =>
    if l.st == .m || l.st == .o then
      let s := s.modCore core (fun c => { c with l1 := c.l1.map (fun x => if x.line = k then { x with st := if x.st == .m then .e else .s } else x) })
      let s := (s.message core (homeAgent k)).dirtyL2 k
      if s.sectorOwner k = some core then
        let s := s.endOwnership core 1 k
        if (s.line (k / 4)).contained.isSome then s else (s.passOwnership k (some core)).emit core 1 false k
      else s
    else s

/-- Write back a sector that an L1 holds pinned: it stays there in M. -/
def State.writeBackPinned (s : State) (core k : Nat) : State := ((s.message (homeAgent k) core).message core (homeAgent k)).dirtyL2 k

/-- Invalidate one sector of a core's L1; a pinned line is written back and stays (03 R101). -/
def State.invalidateL1 (s : State) (core k : Nat) : State :=
  match (s.coreAt core).l1Line k with
  | some l => if l.pinned then s.writeBackPinned core k else s.dropL1 core k
  | none => s

/-- Invalidate a sector's line in its home L2: one that some L1 or the L2 holds pinned is written back and stays (10 R300, 03 R101). -/
def State.cacheEvict (s : State) (k : Nat) : State :=
  if s.keepsLine (k / 4) then
    (match s.pinHolder k with
     | some c => s.writeBackPinned c k
     | none => s).writeBackL2 k
  else s.evictL2 (k / 4)

/-- The count is at most 1,048,576. -/
def cacheCountStop (is : Issue) (b : BitVec 8) (sel : Sel) (g : Group) : Option Stop :=
  let n := uniSrc is g b 1
  if 1048576 < n.toNat then some (illegal sel.mask 7 (n.toNat % 256)) else none

/-- An action of a cache instruction on one sector of its range, for a group and its number. -/
abbrev SectorAct := State → Nat → Group → Nat × BitVec 2 → State

/-- The action on every sector of a range; those of a line that an engine owns are skipped (10 R300). -/
def State.cacheSectors (s : State) (f : SectorAct) (gi : Nat) (g : Group) (l : List (Nat × BitVec 2)) : State :=
  l.foldl (fun s k => if s.engineOwns k.1 then s else f s gi g k) s

/-- A cache instruction: operands, count and address form, then an action on each sector of the range. -/
def cacheOp (a b : BitVec 8) (sw : Bool) (f : SectorAct) : Op :=
  { use := { ssrc := [a.toNat, b.toNat] }, sw := sw, mem := true
    checks := fun _ is sel g =>
      [operandStop g sel.mask { ssrc := [a.toNat, b.toNat] }, cacheCountStop is b sel g,
       formStop (some sel.mask) [(lowestOf sel.mask, uniSrc is g a 0)]]
    effect := fun is sel _ s =>
      match s.group sel.g with
      | none => (s, none)
      | some g =>
        let r := s.cacheRange g (uniSrc is g a 0) (uniSrc is g b 1)
        (r.1.cacheSectors f sel.g g r.2, none) }

/-- `cache.wb` on a sector: the core's L1, and at device scope the L2. -/
def wbSector (x : BitVec 3) : SectorAct := fun s _ g k =>
  let s := s.writeBackL1 g.place.core k.1
  if x = 1 then s.writeBackL2 k.1 else s

/-- `cache.wb` (10 R300). -/
def execCacheWb (a b : BitVec 8) (x : BitVec 3) (sw : Bool) (s : State) : Host.Outcome State Fault Refusal := issue (cacheOp a b sw (wbSector x)) s

/-- The group's fetches see the stores to a sector that have performed (04 R146). -/
def State.invalidateCode (s : State) (gi k : Nat) : State :=
  { (s.modGroup gi (fun g => { g with code := Tab.put k (s.epoch + 1) g.code })) with epoch := s.epoch + 1 }

/-- `cache.inv` on a sector: the group's fetch lines, the core's L1 and scales, and at device scope the L2. -/
def invSector (x : BitVec 3) : SectorAct := fun s gi g k =>
  let s := ((s.invalidateCode gi k.1).invalidateL1 g.place.core k.1).dropScalesAt g.place.core k.1
  if x = 1 then s.cacheEvict k.1 else s

/-- `cache.inv` (10 R300). -/
def execCacheInv (a b : BitVec 8) (x : BitVec 3) (sw : Bool) (s : State) : Host.Outcome State Fault Refusal := issue (cacheOp a b sw (invSector x)) s

/-- A sector that a core's L1 may hold: its page is cacheable and its line is not contained. -/
def State.cacheable (s : State) (k : Nat × BitVec 2) : Bool :=
  k.2 != 3 && k.2 != 1 && regionOf (64 * k.1) != 2 && (s.containedAt (64 * k.1)).isNone

/-- `cache.pf` on a sector: the core's L1 takes a copy. -/
def pfSector : SectorAct := fun s _ g k =>
  if s.cacheable k && !s.holdsSector g.place.core k.1 then (s.shareSector g.place.core k.1 (k.2 == 2)).1 else s

/-- `cache.pf` (10 R300). -/
def execCachePf (a b : BitVec 8) (sw : Bool) (s : State) : Host.Outcome State Fault Refusal := issue (cacheOp a b sw pfSector) s

/-- `cache.pf2` on a sector: the L2 takes it. -/
def pf2Sector : SectorAct := fun s _ _ k => if s.cacheable k then (s.allocL2 k.1 (k.2 == 2)).1 else s

/-- `cache.pf2` (10 R300). -/
def execCachePf2 (a b : BitVec 8) (sw : Bool) (s : State) : Host.Outcome State Fault Refusal := issue (cacheOp a b sw pf2Sector) s

end Sys2Proof.Machine
end

