-- ==== Sys2Proof/Machine/MxMath.lean ====
section
/-! DEFINITION. The arithmetic of the matrix arrays as pure functions (06 R183, R189-R199, 11 R316-R325, 21 R505): elements, chunk sums, tile
products, combinations, residuals, the condition flags and the poison of 16-word granules. -/
namespace Sys2Proof.Machine

/-! ### Flags (06 R197, 21 R499) -/

/-- Both. -/
def MxFlags.or (a b : MxFlags) : MxFlags :=
  { special := a.special || b.special, overflow := a.overflow || b.overflow, invalid := a.invalid || b.invalid,
    scaleNf := a.scaleNf || b.scaleNf, poisonIn := a.poisonIn || b.poisonIn, scaleCor := a.scaleCor || b.scaleCor,
    scaleErr := a.scaleErr || b.scaleErr, shadow := a.shadow || b.shadow }

/-- Bits [31:16] of a status word; ITERTRAP is bit 25. -/
def MxFlags.bits (f : MxFlags) (iterTrap : Bool) : BitVec 16 :=
  ofBool 1 f.shadow ++ ofBool 1 f.scaleErr ++ ofBool 1 f.scaleCor ++ ofBool 1 f.poisonIn ++ 0#2 ++ ofBool 1 iterTrap ++ 0#5
    ++ ofBool 1 f.scaleNf ++ ofBool 1 f.special ++ ofBool 1 f.overflow ++ ofBool 1 f.invalid

/-- A value with what its reading or rounding set. -/
abbrev Flagged (α : Type) := α × MxFlags

/-- The flags of many. -/
def orFlags (l : List MxFlags) : MxFlags := l.foldl MxFlags.or {}

/-- SPECIAL for an element read as an input (06 R197). -/
def specialIf (l : List FVal) : MxFlags := { special := l.any (fun v => !v.isFin) }

/-! ### Elements (06 R183, R189-R192, R195) -/

/-- K of a format (11 R314). -/
def kOf (f : Nat) : Nat := if f ≤ 1 then 32 else if f = 5 then 128 else if f = 7 then 16 else 64

/-- The K-chunk of a format (06 R196). -/
def chunkOf (f : Nat) : Nat := if f = 7 then 4 else if f = 0 ∨ f = 1 ∨ f = 4 ∨ f = 5 then 32 else 64

/-- The value of an element code; BX elements take their block's scale halfword: X0 low, X1 high. -/
def elementOf (f : Nat) (scale : Nat) (x : Nat) : FVal :=
  if f = 0 then bf16.decode x
  else if f = 1 then f16.decode x
  else if f = 2 then e4m3.decode x
  else if f = 3 then e5m2.decode x
  else if f = 4 then bxValue bx8 (scale % 256) (scale / 256 % 256) x
  else if f = 5 then bxValue bx4 (scale % 256) (scale / 256 % 256) x
  else if f = 6 then valOfInt (BitVec.ofNat 8 x).toInt
  else f32.decode x

/-- The elements of a 512-bit row; block c has scale `scales[c]`. -/
def rowElements (f : Nat) (x : Nat) (scales : List Nat) : List FVal :=
  let w := 512 / kOf f
  (List.range (kOf f)).map (fun k => elementOf f (scales.getD (k / 32) 0xFFFF) (x / 2 ^ (w * k) % 2 ^ w))

/-- The lists of `n` elements a list falls into. -/
def chunksOf (n : Nat) : Nat → List α → List (List α)
  | 0, _ => []
  | fuel + 1, l => if l.isEmpty then [] else l.take n :: chunksOf n fuel (l.drop n)

/-- A block of up to 32 words encoded under the default d and read back (06 R198). -/
def bxRead (f : BxFmt) (d : Nat) (l : List Word32) : List FVal :=
  match bxEncode f d l with
  | (x0, x1, es) => es.map (bxValue f x0 x1)

/-- The conversion of an accumulator word to a format that is not a block format, with the overflow of its rounding. -/
def convertWord (f : Nat) (x : Word32) : Flagged FVal :=
  let v := f32.decode x.toNat
  if f = 7 then (v, {})
  else if f = 6 then (valOfInt (v.toIntClamp .rn (-128) 127), {})
  else
    let fm := if f = 0 then bf16 else if f = 1 then f16 else if f = 2 then e4m3 else e5m2
    let r := fm.decode (fm.round .rn v)
    (r, { overflow := v.isFin && !r.isFin })

/-- A run of accumulator words along K read in a format (06 R198); every word is an element read. An infinite element makes its block NaN without INVALID:
SPECIAL alone says that an infinity was read (DESIGN CHOICE, log 93). -/
def convertRun (f : Nat) (l : List Word32) : Flagged (List FVal) :=
  let sp := specialIf (l.map (fun x => f32.decode x.toNat))
  if f = 4 then ((chunksOf 32 l.length l).flatMap (bxRead bx8 4), sp)
  else if f = 5 then ((chunksOf 32 l.length l).flatMap (bxRead bx4 2), sp)
  else
    let r := l.map (convertWord f)
    (r.map Prod.fst, sp.or (orFlags (r.map Prod.snd)))

/-! ### Sums (06 R196, R197) -/

/-- Round a value once to binary32: OVERFLOW when a finite value gives an infinity, INVALID when a NaN arose from inputs that are none. -/
def roundStep (t : FVal) (nanIn : Bool) : Flagged Word32 :=
  let r := f32.round .rn t
  (w32 r, { overflow := t.isFin && !(f32.decode r).isFin, invalid := t.isNan && !nanIn })

/-- The exact sum of products of a chunk. -/
def exactSum : List (FVal × FVal) → FVal
  | [] => .fin false 0 0
  | [p] => p.1.mul p.2
  | p :: ps => (p.1.mul p.2).add (exactSum ps)

/-- One K-chunk added to an accumulator word. -/
def addChunk (acc : Flagged Word32) (c : List (FVal × FVal)) : Flagged Word32 :=
  let ins := c.flatMap (fun p => [p.1, p.2])
  let t := roundStep (exactSum c) (ins.any FVal.isNan)
  let a := f32.decode acc.1.toNat
  let tv := f32.decode t.1.toNat
  let r := roundStep (a.add tv) (a.isNan || tv.isNan)
  (r.1, acc.2.or ((specialIf ins).or (t.2.or r.2)))

/-- One output element: every chunk in increasing K order. -/
def dotElement (ch : Nat) (old : Word32) (row col : List FVal) : Flagged Word32 :=
  let ps := row.zip col
  (chunksOf ch ps.length ps).foldl addChunk (old, specialIf [f32.decode old.toNat])

/-- The n² elements of a product, row by row. -/
def matProduct (n ch : Nat) (rows cols : List (List FVal)) (old : List Word32) : Flagged (List Word32) :=
  let l := rows.zipIdx.flatMap (fun r => cols.zipIdx.map (fun c => dotElement ch (old.getD (r.2 * n + c.2) 0) r.1 c.1))
  (l.map Prod.fst, orFlags (l.map Prod.snd))

/-! ### Tiles and their poison (21 R505) -/

/-- A tile: its n² words, and its granules of 16 words that are poisoned. -/
structure Tile where
  words : List Word32
  poison : List Nat := []
deriving DecidableEq, Repr

/-- Word of a tile. -/
def Tile.at (t : Tile) (i : Nat) : Word32 := t.words.getD i 0

/-- Row r of a tile of edge n, as words. -/
def Tile.row (t : Tile) (n r : Nat) : List Word32 := (List.range n).map (fun c => t.at (r * n + c))

/-- Column c. -/
def Tile.col (t : Tile) (n c : Nat) : List Word32 := (List.range n).map (fun r => t.at (r * n + c))

/-- A row reads a poisoned granule. -/
def Tile.rowBad (t : Tile) (n r : Nat) : Bool := t.poison.any (fun g => 16 * g / n == r)

/-- A column reads a poisoned granule. -/
def Tile.colBad (t : Tile) (n c : Nat) : Bool := t.poison.any (fun g => decide (16 * g % n ≤ c) && decide (c < 16 * g % n + 16))

/-- The output granules of a product that read a poisoned row or column, or a poisoned old value. -/
def productPoison (n : Nat) (rowBad colBad : Nat → Bool) (old : List Nat) : List Nat :=
  (List.range (n * n / 16)).filter (fun g => old.contains g || rowBad (16 * g / n) || (List.range 16).any (fun i => colBad (16 * g % n + i)))

/-- A product inside `mpoly` and `miter`: Y times X, or times the transpose of X (11 R319). -/
def tileProduct (n f : Nat) (trans : Bool) (Y X : Tile) : Flagged Tile :=
  let rows := (List.range n).map (fun r => convertRun f (Y.row n r))
  let cols := (List.range n).map (fun c => convertRun f (if trans then X.row n c else X.col n c))
  let p := matProduct n (chunkOf f) (rows.map Prod.fst) (cols.map Prod.fst) []
  let bad := productPoison n (Y.rowBad n) (fun c => if trans then X.rowBad n c else X.colBad n c) []
  ({ words := p.1, poison := bad },
   p.2.or ((orFlags (rows.map Prod.snd ++ cols.map Prod.snd)).or { poisonIn := !Y.poison.isEmpty || !X.poison.isEmpty }))

/-- The value of a word. -/
def valOf (x : Word32) : FVal := f32.decode x.toNat

/-- An elementwise operation on one or two tiles: the exact value of each element, rounded once. -/
def tileMap (f : List FVal → FVal) (consts : List FVal) (ts : List Tile) (count : Nat) : Flagged Tile :=
  let l := (List.range count).map (fun i =>
    let ins := ts.map (fun t => valOf (t.at i))
    let r := roundStep (f ins) ((consts ++ ins).any FVal.isNan)
    (r.1, r.2.or (specialIf ins)))
  let bad := ((ts.flatMap (·.poison)).eraseDups)
  ({ words := l.map Prod.fst, poison := (List.range (count / 16)).filter bad.contains },
   (orFlags (l.map Prod.snd)).or { poisonIn := !bad.isEmpty })

/-! ### Residuals (06 R199) -/

/-- The larger absolute value of finite ones. -/
def absMax (l : List FVal) : FVal :=
  match (l.map FVal.mag).foldl largerMag (0, 0) with
  | (m, e) => .fin false m e

/-- The square root of the exact sum of squares of finite values, for rounding to binary32: 64 bits and a sticky bit. -/
def frobenius (l : List FVal) : FVal :=
  match l.foldl (fun (a v : FVal) => a.add (v.mul v)) (FVal.fin false 0 0) with
  | .fin _ 0 _ => .fin false 0 0
  | .fin _ m e =>
    let p := evenExp m e
    let sh := 128 - min 128 (bitLen p.1)
    let sh := 2 * ((sh + 1) / 2)
    let M := p.1 * 2 ^ sh
    let r := isqrt M
    stickyVal false r ((p.2 - (sh : Int)) / 2) (r * r != M)
  | v => v

/-- A residual or norm: NaN when any value is NaN, else +∞ when any is infinite, else exact and rounded once. -/
def residualOf (frob : Bool) (l : List FVal) : Flagged Word32 :=
  if l.any FVal.isNan then (nan32, {})
  else if l.any (fun v => !v.isFin) then (0x7F800000, {})
  else roundStep (if frob then frobenius l else absMax l) false

/-! ### mpoly and miter (11 R320, R321, 21 R508) -/

/-- Set the diagonal of a tile to a coefficient, with its bits (DESIGN CHOICE, log 104), elsewhere +0. -/
def diagTile (n : Nat) (x : Word32) : Tile := { words := (List.range (n * n)).map (fun i => if i / n = i % n then x else 0) }

/-- Add k to the diagonal: only the diagonal is read and written. -/
def addDiag (n : Nat) (k : Word32) (t : Tile) : Flagged Tile :=
  let l := (List.range (n * n)).map (fun i =>
    if i / n = i % n then
      let x := valOf (t.at i)
      let r := roundStep (x.add (valOf k)) (x.isNan || (valOf k).isNan)
      (r.1, r.2.or (specialIf [x]))
    else (t.at i, ({} : MxFlags)))
  ({ t with words := l.map Prod.fst }, orFlags (l.map Prod.snd))

/-- The granules of bad words of one tile that begins at word `lo` (21 R497). -/
def badGranules (bad : List Nat) (lo count : Nat) : List Nat := (bad.filter (fun w => decide (lo ≤ w) && decide (w < lo + count))).map (fun w => (w - lo) / 16)

/-- Poison granules of a tile. -/
def Tile.taint (t : Tile) (l : List Nat) : Tile := { t with poison := (List.range (t.words.length / 16)).filter (fun g => t.poison.contains g || l.contains g) }

/-- The tiles and the progress of an iteration (11 R321). -/
structure IterRun where
  x : Tile
  w0 : Tile := { words := [] }
  w1 : Tile := { words := [] }
  w2 : Tile := { words := [] }
  flags : MxFlags := {}
  prev : Option Word32 := none
  grow : Nat := 0
  done : Nat := 0
  resid : Word32 := 0
  outcome : Nat := 2
  stop : Bool := false
deriving DecidableEq, Repr

/-- The growth test of 11 R321. -/
def growth (k14 r : Word32) (prev : Option Word32) : Bool :=
  match prev with
  | none => false
  | some p => (FVal.fin false 0 0).lt (valOf k14) && (valOf k14).isFin && ((valOf k14).mul (valOf p)).lt (valOf r)

/-- The stopping tests after an iteration that holds no poison. -/
def IterRun.judge (t : IterRun) (k : Nat → Word32) (r : Word32) : IterRun :=
  let v := valOf r
  if !v.isNan && !(valOf (k 15)).isNan && !(valOf (k 15)).lt v then { t with outcome := 1, stop := true }
  else if !v.isFin then { t with outcome := 3, stop := true }
  else
    let g := if growth (k 14) r t.prev then t.grow + 1 else 0
    if g = 2 then { t with grow := g, outcome := 3, stop := true } else { t with grow := g, prev := some r }

/-- Phase 3: the combination, the change of each element and the residual. -/
def IterRun.combine (t : IterRun) (n : Nat) (quint frob : Bool) (k : Nat → Word32) : IterRun :=
  let ks := (if quint then [k 0, k 1, k 2] else [k 0, k 1]).map valOf
  let ts := if quint then [t.x, t.w1, t.w2] else [t.x, t.w1]
  let f := fun (l : List FVal) => ((ks.zip l).map (fun p => p.1.mul p.2)).foldl (fun a v => match a with
    | none => some v
    | some b => some (b.add v)) (none : Option FVal) |>.getD (.fin false 0 0)
  let N := tileMap f ks ts (n * n)
  let D := (List.range (n * n)).map (fun i => (valOf (N.1.at i)).add (valOf (t.x.at i)).neg)
  let inv : MxFlags := { invalid := (List.range (n * n)).any (fun i =>
    (D.getD i .nan).isNan && !(valOf (N.1.at i)).isNan && !(valOf (t.x.at i)).isNan) }
  let t := { t with x := N.1, flags := t.flags.or (N.2.or inv), done := t.done + 1 }
  if N.1.poison.isEmpty then
    let r := residualOf frob D
    ({ t with resid := r.1, flags := t.flags.or r.2 }).judge k r.1
  else { t with resid := nan32, outcome := 4, stop := true }

/-- The product of a phase, into its own tile; `marks` are the granules that a shadow disagreement poisons in it. -/
def IterRun.product (t : IterRun) (n f : Nat) (p : Nat) (marks : List Nat) : IterRun :=
  if p = 0 then
    let a := tileProduct n f true t.x t.x
    { t with w0 := a.1.taint marks, flags := t.flags.or a.2 }
  else if p = 1 then
    let a := tileProduct n f false t.w0 t.x
    { t with w1 := a.1.taint marks, flags := t.flags.or a.2 }
  else
    let a := tileProduct n f false t.w0 t.w1
    { t with w2 := a.1.taint marks, flags := t.flags.or a.2 }

/-- The combination with the granules of its own words that a shadow disagreement poisons: it reaches the residual as a poisoned iterate. -/
def IterRun.combineWith (t : IterRun) (n : Nat) (quint frob : Bool) (k : Nat → Word32) (marks : List Nat) : IterRun :=
  let t' := t.combine n quint frob k
  if marks.isEmpty then t' else { t' with x := t'.x.taint marks, resid := nan32, outcome := 4, stop := true }

end Sys2Proof.Machine
end

