-- ==== Sys2Proof/Machine/Irq.lean ====
section
/-! DEFINITION. User-level interrupts (12 R341-R343). -/
namespace Sys2Proof.Machine

/-- Change the interrupt block of a context. -/
def State.modIrq (s : State) (ctx : Nat) (f : IrqBlock → IrqBlock) : State := s.modCtx ctx (fun c => { c with irq := f c.irq })

/-- The interrupt block of a context. -/
def State.irqOf (s : State) (ctx : Nat) : IrqBlock := ((s.context ctx).map (·.irq)).getD {}

/-- A vector of the block. -/
def IrqBlock.vector (b : IrqBlock) (v : Nat) : IrqVector := (Tab.get? v b.vectors).getD {}

/-- The deliverable vectors (12 R342). -/
def IrqBlock.deliverable (b : IrqBlock) : Word64 := b.pending &&& ~~~b.mask &&& ~~~b.inService

/-- A sender entry permits a vector to a sender (12 R341, R342). -/
def IrqSender.permits (e : IrqSender) (v : BitVec 6) (kind : BitVec 2) (sender dev : BitVec 16) : Bool :=
  kind != 0 && e.kind == kind && bit e.allowed v.toNat && e.num == sender && (kind != 3 || e.dev == dev)

/-- The arrival is accepted. -/
def IrqBlock.accepts (b : IrqBlock) (v : BitVec 6) (kind : BitVec 2) (sender dev : BitVec 16) : Bool :=
  b.senders.any (fun e => e.2.permits v kind sender dev)

/-- The update of a vector by an arrival with payload x (12 R342). -/
def IrqVector.arrive (w : IrqVector) (x : Word64) : IrqVector :=
  let first := w.count == 0
  let count := if w.count = 0xFFFF then w.count else w.count + 1
  let payload := if w.mode = 0 then (if first then x else w.payload) else if w.mode = 1 then x else if w.mode = 2 then w.payload ||| x else w.payload
  { w with count := count, payload := payload }

/-- The block after an accepted arrival. -/
def IrqBlock.arrive (b : IrqBlock) (v : Nat) (x : Word64) : IrqBlock :=
  { b with pending := setBit b.pending v true, vectors := Tab.put v ((b.vector v).arrive x) b.vectors }

/-- Resident groups of a context. -/
def State.residentOf (s : State) (ctx : Nat) : List Nat :=
  (s.groups.filter (fun e => e.2.place.ctx == ctx && e.2.st == .resident)).map Prod.fst

/-- Threads that wait in `uirq.wait` go on when a vector is deliverable (12 R343). -/
def State.wakeUirq (s : State) (ctx : Nat) : State :=
  if (s.irqOf ctx).deliverable = 0 then s
  else (s.residentOf ctx).foldl (fun s k => s.modGroup k (fun g => g.modLanes (g.waiting .uirqWait) (fun _ t => t.wake (t.pc + 4)))) s

/-- Cores on which Saved groups of a context's handler roles may return. -/
def State.handlerCores (s : State) (ctx : Nat) : List Nat :=
  ((s.groups.filter (fun e => e.2.place.ctx == ctx && e.2.place.handler && e.2.st == .saved)).map (fun e => e.2.place.core)).eraseDups

/-- The dispatcher queues a context: its Saved handler groups return under 02 R62 (12 R342). -/
def State.queueContext (s : State) (ctx : Nat) : State :=
  (s.modCtx ctx (fun c => { c with woken := true })).push ((s.handlerCores ctx).map (fun c => .groupRestore c))

/-- The record of a refused arrival: the vector and the sender (17 R418). -/
def refusedArrival (s : State) (ctx : Nat) (v : BitVec 6) (kind : BitVec 2) (sender dev : BitVec 16) : Report :=
  let k := s.homeSlice ctx
  { code := 0x9501, path := diePath (k / 16) 5 (k % 16), ctx := BitVec.ofNat 16 ctx, slice := k
    detail := detail4 (zext 64 v) (0#30 ++ kind ++ dev ++ sender) 0 0 }

/-- An arrival at the home slice (12 R342). -/
def State.interrupt (s : State) (ctx : Nat) (v : BitVec 6) (x : Word64) (kind : BitVec 2) (sender dev : BitVec 16) : State :=
  if (s.irqOf ctx).accepts v kind sender dev then
    let s := s.modIrq ctx (fun b => b.arrive v.toNat x)
    let s := if ((s.irqOf ctx).vector v.toNat).wake && (s.residentOf ctx).isEmpty then s.queueContext ctx else s
    s.wakeUirq ctx
  else s.report (refusedArrival s ctx v kind sender dev)

/-- An interrupt arrives (12 R342); one of a peer is acknowledged (13 R385). -/
def execInterruptArrival (ctx : Nat) (v : BitVec 6) (x : BitVec 64) (kind : BitVec 2) (sender dev : BitVec 16) (s : State) :
    Host.Outcome State Fault Refusal :=
  let s := s.interrupt ctx v x kind sender dev
  .next (if kind = 3 then { s with replies := s.replies ++ [{ dev := dev, value := some 0 }] } else s)

/-! ### The instructions (12 R343) -/

/-- The role lacks the handler flag: an illegal operand of kind 8 (12 R343, 18 R434). -/
def handlerStop (sel : Sel) (g : Group) : Option Stop := if g.place.handler then none else some (illegal sel.mask 8 0)

/-- An instruction of major 0x2D. -/
def irqOp (u : Use) (sw : Bool) (more : Sel → Group → Option Stop) (f : Issue → Sel → ReplayEntry → Group → State → State) : Op :=
  { use := u, sw := sw, checks := fun _ _ sel g => [operandStop g sel.mask u, more sel g]
    effect := fun is sel e s =>
      match s.group sel.g with
      | none => (s, none)
      | some g => (f is sel e g s, none) }

/-- Write a uniform register of the issuing bundle. -/
def State.setUniform (s : State) (sel : Sel) (d : Nat) (x : Word64) : State :=
  s.modGroup sel.g (fun g => (g.setS d x).noteSplit sel.bundle)

/-- Zero fields of a target: [15:6] and [63:48] (12 R343). -/
def targetStop (is : Issue) (d : BitVec 8) (sel : Sel) (g : Group) : Option Stop :=
  let t := uniSrc is g d 0
  if field 6 10 t != 0 || field 48 16 t != 0 then some (illegal sel.mask 8 0) else none

/-- The scope entry of a send: device, or fabric for a peer (04 R145). -/
def sendScope (t : Word64) : BitVec 5 := if field 32 16 t = 0xFFFF then 5 else 7

/-- `uirq.send` (12 R343): a release that waits at the gate. -/
def execUirqSend (d a : BitVec 8) (sw : Bool) (s : State) : Host.Outcome State Fault Refusal :=
  issue
    { use := { ssrc := [d.toNat, a.toNat] }, sw := sw, mem := true, compared := true
      checks := fun _ is sel g => [operandStop g sel.mask { ssrc := [d.toNat, a.toNat] }, targetStop is d sel g]
      effect := fun is sel e s =>
        match s.group sel.g with
        | none => (s, none)
        | some g =>
          let t := e.uni.getD 0 0
          let x := e.uni.getD 1 0
          let sig : Signature := { word := plainWord is, mask := sel.mask, addrs := [], data := [[t, x]] }
          s.submit is sel e sw [] sig 4 (sendScope t) (.uirq t x)
            (fun s => (s.holdRelease g.place.core (heldOf s is sel g e sw 4 (sendScope t) (.uirq t x)), none)) } s

/-- The effect of `uirq.wait`: the threads wait at the instruction while nothing is deliverable. -/
def uirqWaitEffect (is : Issue) (sel : Sel) (_ : ReplayEntry) (g : Group) (s : State) : State :=
  if (s.irqOf g.place.ctx).deliverable = 0 then
    s.modGroup sel.g (fun g => g.modLanes sel.bundle (fun _ t => { t with wait := .uirqWait, pc := is.pc }))
  else s

/-- `uirq.wait` (12 R343). -/
def execUirqWait (sw : Bool) (s : State) : Host.Outcome State Fault Refusal :=
  issue (irqOp {} sw handlerStop uirqWaitEffect) s

/-- The lowest vector of a set. -/
def lowestVector (m : Word64) : Nat := lowestOf m

/-- The block after vector v is taken. -/
def IrqBlock.take (b : IrqBlock) (v : Nat) : IrqBlock :=
  { b with pending := setBit b.pending v false, inService := setBit b.inService v true
           vectors := Tab.put v { b.vector v with count := 0, payload := 0 } b.vectors }

/-- The first word a take returns. -/
def takeWord (v : Nat) (n : BitVec 16) : Word64 := 1#1 ++ 0#39 ++ n ++ BitVec.ofNat 8 v

/-- The effect of `uirq.take`. -/
def uirqTakeEffect (d : BitVec 8) (_ : Issue) (sel : Sel) (_ : ReplayEntry) (g : Group) (s : State) : State :=
  let b := s.irqOf g.place.ctx
  if b.deliverable = 0 then s.setUniform sel d.toNat 0
  else
    let v := lowestVector b.deliverable
    let w := b.vector v
    ((s.modIrq g.place.ctx (fun b => b.take v)).setUniform sel d.toNat (takeWord v w.count)).setUniform sel (d.toNat + 1) w.payload

/-- `uirq.take` (12 R343). -/
def execUirqTake (d : BitVec 8) (sw : Bool) (s : State) : Host.Outcome State Fault Refusal :=
  issue (irqOp { sdst := [d.toNat, d.toNat + 1] } sw handlerStop (uirqTakeEffect d)) s

/-- Set the context's mask (12 R343); a waiting thread goes on when a vector becomes deliverable. -/
def State.setImask (s : State) (ctx : Nat) (x : Word64) : State := (s.modIrq ctx (fun b => { b with mask := x })).wakeUirq ctx

/-- `uirq.mask` (12 R343). -/
def execUirqMask (d a : BitVec 8) (sw : Bool) (s : State) : Host.Outcome State Fault Refusal :=
  issue (irqOp { ssrc := [a.toNat], sdst := [d.toNat] } sw (fun _ _ => none) (fun _ sel e g s =>
    (s.setUniform sel d.toNat (s.irqOf g.place.ctx).mask).setImask g.place.ctx (e.uni.getD 0 0))) s

/-- `uirq.pend` (12 R343). -/
def execUirqPend (d : BitVec 8) (sw : Bool) (s : State) : Host.Outcome State Fault Refusal :=
  issue (irqOp { sdst := [d.toNat] } sw (fun _ _ => none) (fun _ sel _ g s =>
    s.setUniform sel d.toNat (s.irqOf g.place.ctx).pending)) s

/-- `uirq.done` (12 R343). -/
def execUirqDone (a : BitVec 8) (sw : Bool) (s : State) : Host.Outcome State Fault Refusal :=
  issue (irqOp { ssrc := [a.toNat] } sw handlerStop (fun _ _ e g s =>
    (s.modIrq g.place.ctx (fun b => { b with inService := setBit b.inService (field 0 6 (e.uni.getD 0 0)).toNat false })).wakeUirq
      g.place.ctx)) s

/-- A write of UIMASK acts as `uirq.mask` (07 R221). -/
def execUimaskWrite (g : Nat) (x : BitVec 64) (s : State) : Host.Outcome State Fault Refusal :=
  match s.group g with
  | none => .next s
  | some gr => .next (s.setImask gr.place.ctx x)

end Sys2Proof.Machine
end

