-- ==== Sys2Proof/Machine/Sched.lean ====
section
/-! DEFINITION. Bundles (02 R32), what may issue and in which order (02 R33-R35, 12 R344, R346, 15 R402, 19 R444, R452), and the
slot-classification tree (15 R394, R395). -/
namespace Sys2Proof.Machine

/-! ### Bundles -/

/-- A thread that was turned away: it stands at an instruction that could not be accepted yet. -/
def Thread.turned (t : Thread) : Bool := t.wait == .gate && t.waitOn == 0

/-- A live thread that neither waits nor is parked; one that was turned away is of its bundle still. -/
def Thread.free (t : Thread) : Bool := !t.exited && (t.wait == .none || t.turned) && !t.parked

/-- The run-ons of the threads that stand at a PC, but those that have ended. -/
def Group.runOnsAt (g : Group) (pc : Word64) : List RunOn :=
  g.flow.runOns.filter (fun r => !r.ended && (maskList r.bundle).any (fun K => (g.thread K).free && (g.thread K).pc == pc))

/-- Their queues fit into one, with room for the next instruction. -/
def Group.runOnsJoin (g : Group) (pc : Word64) : Bool := decide (((g.runOnsAt pc).map (·.queue.length)).sum < 24)

/-- The run-on a thread belongs to: its own, or the first of those it merges with at its PC. Run-ons whose queues exceed the trap frame's stay apart, and
so does one that has ended (DEDUCED, log 22). -/
def Group.runOnAt (g : Group) (L : Nat) : Option Mask :=
  let pc := (g.thread L).pc
  match g.runOn (oneBit L) with
  | some r => if r.ended || !g.runOnsJoin pc then some r.bundle else ((g.runOnsAt pc).head?).map (·.bundle)
  | none => ((g.runOnsAt pc).head?).map (·.bundle)

/-- The thread belongs to the bundle whose handler runs; the other bundles of the group are paused (12 R344). -/
def Group.inTrap (g : Group) (L : Nat) : Bool := g.trap.inHandler && g.trap.bundle.getLsbD L

/-- Two threads belong to one bundle: free, at one PC, of one run-on, and both of the handler's bundle or both not (02 R32). -/
def Group.together (g : Group) (L K : Nat) : Bool :=
  (g.thread L).free && (g.thread K).free && (g.thread L).pc == (g.thread K).pc && g.inTrap L == g.inTrap K && g.runOnAt L == g.runOnAt K

/-- The bundle of a thread. -/
def Group.bundleOf (g : Group) (L : Nat) : Mask := maskOf ((List.range g.width).filter (fun K => g.together L K))

/-- What may issue next in a group: a bundle, the PC it stands at, and the entry it re-injects. -/
structure Work where
  mask : Mask
  pc : Word64
  entry : Option ReplayEntry := none
deriving DecidableEq, Repr

/-- Threads that issue entries before anything else. -/
def Group.replaying (g : Group) : Mask :=
  (if g.flow.inject.isEmpty then 0 else g.flow.injectMask) ||| (g.flow.reissue.foldl (fun m e => m ||| e.1) 0)

/-- No thread of a mask waits or is parked. -/
def Group.freeThreads (g : Group) (m : Mask) : Bool :=
  (g.which (fun t => !t.exited && (t.wait != .none || t.parked))) &&& m == 0

/-- A bundle with an entry that is to be issued again. -/
def Group.replayWork (g : Group) (m : Mask) (e : ReplayEntry) : List Work :=
  if g.freeThreads m then [{ mask := m, pc := (g.thread (lowestOf m)).pc, entry := some e }] else []

/-- The first entry of each bundle, of those a save captured (19 R452). -/
def firstEntries : List (Mask × ReplayEntry) → List (Mask × ReplayEntry)
  | [] => []
  | e :: es => e :: (firstEntries es).filter (fun x => x.1 &&& e.1 == 0)

/-- Entries that are to be issued again: those of `rett`, then those a save captured (12 R346, 19 R452). -/
def Group.replays (g : Group) : List Work :=
  (match g.flow.inject with
   | e :: _ => g.replayWork g.flow.injectMask e
   | [] => [])
    ++ ((firstEntries g.flow.reissue).filter (fun x => g.flow.inject.isEmpty || x.1 &&& g.flow.injectMask == 0)).flatMap (fun x => g.replayWork x.1 x.2)

/-- The bundles that may issue their next instruction: at least one thread has not been turned away there. -/
def Group.bundles (g : Group) : List Work :=
  (List.range g.width).filterMap (fun L =>
    let m := g.bundleOf L
    if m != 0 && lowestOf m == L && m &&& g.replaying == 0 && (maskList m).any (fun K => (g.thread K).wait == .none) then some { mask := m, pc := (g.thread L).pc } else none)

/-- In a handler only the trapping bundle issues, and the other bundles of the group stay paused until the kept entries have been issued; nothing issues
under a fault hold, nor of a bundle whose run-on has ended (12 R344, R346, 19 R444, 18 R430). The others do go on while the entries wait for something. -/
def Group.mayIssue (g : Group) (w : Work) : Bool :=
  g.st == .resident && !g.trap.held && (!g.trap.inHandler || w.mask &&& ~~~g.trap.bundle == 0)
    && (g.flow.inject.isEmpty || w.entry.isSome && w.mask == g.flow.injectMask || !g.freeThreads g.flow.injectMask)
    && g.flow.runOns.all (fun r => !r.ended || r.bundle &&& w.mask == 0)

/-- The bundles and entries of a group that can issue. -/
def Group.works (g : Group) : List Work := (g.replays ++ g.bundles).filter g.mayIssue

/-- The wait count of a bundle: the larger of its threads' (02 R35). -/
def Group.waitCount (g : Group) (m : Mask) : Nat := ((maskList m).map (fun L => (g.thread L).waitCount)).foldl max 0

/-- The bundle asks not to be chosen until another one has issued (08 R235). -/
def Group.yields (g : Group) (m : Mask) : Bool := (maskList m).any (fun L => (g.thread L).yielded)

/-- The lower of two by PC. -/
def lowerPc : List Work → Option Work
  | [] => none
  | w :: ws =>
    match lowerPc ws with
    | none => some w
    | some x => if x.pc.ult w.pc then some x else some w

/-- The bundle of a group that issues (02 R35): an aged one, else the lowest PC; a yielding one only when it is alone. A bundle with entries to be
issued again issues them first, and stands at its own PC meanwhile. -/
def Group.choose (g : Group) : Option Work :=
  let l := g.works
  match l.find? (fun w => decide (Config.bundleAge ≤ g.waitCount w.mask)) with
  | some w => some w
  | none => (lowerPc (l.filter (fun w => !g.yields w.mask))).or (lowerPc l)

/-! ### The group that issues (02 R34) -/

/-- The rank of a group: restore flag, ageing, priority, least recent issue. The lower comes first. -/
def State.rank (s : State) (g : Group) : Nat × Nat × Nat × Nat :=
  (if g.sched.restore then 0 else 1, if g.sched.aged then 0 else 1, ((s.context g.place.ctx).map (·.priority)).getD 0, g.sched.lastIssue)

/-- Lexicographic order of ranks. -/
def rankLt (a b : Nat × Nat × Nat × Nat) : Bool :=
  a.1 < b.1 || (a.1 == b.1 && (a.2.1 < b.2.1 || (a.2.1 == b.2.1 && (a.2.2.1 < b.2.2.1 || (a.2.2.1 == b.2.2.1 && a.2.2.2 < b.2.2.2)))))

/-- The first of a list of groups by rank. Two that no rule separates (neither has issued, or both last issued as one packed bundle) go in the order of
the group table (DESIGN CHOICE, log 82). -/
def State.firstRanked (s : State) : List (Nat × Group) → Option (Nat × Group)
  | [] => none
  | e :: es =>
    match s.firstRanked es with
    | none => some e
    | some f => if rankLt (s.rank f.2) (s.rank e.2) then some f else some e

/-- Resident groups of a partition. -/
def State.residents (s : State) (k : Nat) : List (Nat × Group) := s.groups.filter (fun e => e.2.partIndex == k && e.2.st == .resident)

/-- The group and bundle a partition issues next. -/
def State.nextOn (s : State) (k : Nat) : Option (Nat × Group × Work) :=
  if s.partitionStopped k then none
  else
    match s.firstRanked ((s.residents k).filter (fun e => e.2.choose.isSome)) with
    | none => none
    | some (gi, g) => g.choose.map (fun w => (gi, g, w))

/-- The other 8-wide group of a row, when both issue as one packed bundle (02 R33). -/
def State.packedMate (s : State) (k gi : Nat) (g : Group) (w : Work) : Option (Nat × Work) :=
  if g.place.wcode != 0 || w.entry.isSome then none
  else
    (s.residents k).findSome? (fun e =>
      if e.1 != gi && e.2.place.wcode == 0 && e.2.place.rows == g.place.rows && e.2.place.upper != g.place.upper && e.2.place.ctx == g.place.ctx then
        (match e.2.choose with
         | some v => if v.entry.isNone && v.pc == w.pc then some (e.1, v) else none
         | none => none)
      else none)

/-- What issues with a chosen bundle: the bundle, and the one packed with it, in the order of their group slots (10 R293). -/
def State.issuedWith (s : State) (k gi : Nat) (g : Group) (w : Work) : List (Nat × Work) :=
  let mate := (s.packedMate k gi g w).toList
  if g.place.upper then mate ++ [(gi, w)] else (gi, w) :: mate

/-- Partitions that hold a Resident group, rising. -/
def State.busyPartitions (s : State) : List Nat :=
  let l := ((s.groups.filter (fun e => e.2.st == .resident)).map (fun e => e.2.partIndex)).eraseDups
  l.foldl (fun acc k => (acc.filter (fun x => x < k)) ++ k :: acc.filter (fun x => k < x)) []

/-- The partition whose turn it is: on each clock every partition has one turn, in rising order (log 9). -/
def State.nextPartition (s : State) : Option Nat := s.busyPartitions.find? (fun k => s.turn ≤ k && (s.nextOn k).isSome)

/-! ### Ageing (02 R34, R35, 08 R235) -/

/-- A bundle issues: its counts return to zero. -/
def Group.noteIssue (g : Group) (m : Mask) (n : Nat) : Group :=
  let g := g.modLanes (g.live &&& ~~~m) (fun _ t => { t with yielded := false })
  let g := g.modLanes m (fun _ t => { t with waitCount := 0 })
  { g with sched := { g.sched with lastIssue := n, runnableFor := 0, aged := false } }

/-- The threads of a group's runnable bundles other than the one that issues. -/
def Group.othersThan (g : Group) (m : Mask) : Mask := ((g.works.filter (fun x => x.mask != m)).foldl (fun a x => a ||| x.mask) 0) &&& ~~~m

/-- Bundles that were runnable while another of their group issued. -/
def Group.noteOthers (g : Group) (m : Mask) : Group := g.modLanes m (fun _ t => { t with waitCount := t.waitCount + 1 })

/-- A clock on which a group could issue and another did. -/
def Group.noteWait (g : Group) : Group :=
  let r := g.sched.runnableFor + 1
  { g with sched := { g.sched with runnableFor := r, aged := g.sched.aged || decide (Config.groupAge ≤ r) } }

/-- A group has been runnable for 1,024 clocks without issuing: it is chosen next (02 R34). -/
def execGroupAgeingExpiry (g : Nat) (s : State) : Host.Outcome State Fault Refusal :=
  .next (s.modGroup g (fun g => { g with sched := { g.sched with aged := true } }))

/-- A bundle's wait count reaches 4,096: it issues next within its group (02 R35). -/
def execBundleAgeingExpiry (g : Nat) (m : BitVec 64) (s : State) : Host.Outcome State Fault Refusal :=
  .next (s.modGroup g (fun g => g.modLanes (m &&& g.live) (fun _ t => { t with waitCount := Config.bundleAge })))

/-! ### Slot classification (15 R394, R395) -/

/-- The leaf of what a thread waits in. -/
def Thread.waitLeaf (t : Thread) : Option Nat :=
  match t.wait with
  | .copy => some 7
  | .gbar => some 9
  | .barWait => some 9
  | .bsync => some 9
  | .mx => some 10
  | .xregAcq => some 11
  | .uirqWait => some 12
  | .svc => some 13
  | .gate => some (if t.waitOn = 0 then t.turnedLeaf else 9)
  | .none => none

/-- The leaf of the oldest outstanding write of a bundle. -/
def Group.writeLeaf (g : Group) (m : Mask) : Option Nat :=
  (g.flow.outstanding.find? (fun o => o.entry.mask &&& m != 0)).map (fun o => match o.kind with
    | .load => 5
    | .matrix => 6
    | .vector => 8)

/-- The leaf of a thread's bundle: the first row of 15 R394 whose condition it meets. -/
def Group.leafOf (g : Group) (L : Nat) : Nat :=
  ([if g.flow.inject.isEmpty || !g.flow.injectMask.getLsbD L then none else some 4, g.writeLeaf (g.beside g.live L), (g.thread L).waitLeaf].filterMap id).foldl min 14
    |> fun n => if n = 14 then 8 else n

/-- The thread of the bundle that R35 would choose, whatever it waits for: an aged one, else that of lowest PC. -/
def Group.lowThread (g : Group) : Option Nat :=
  let l := maskList g.live
  (l.find? (fun L => decide (Config.bundleAge ≤ (g.thread L).waitCount))).or
    (l.foldl (fun b L => match b with
      | none => some L
      | some K => if (g.thread L).pc.ult (g.thread K).pc then some L else some K) none)

/-- The leaf of a clock on which a partition issues nothing. -/
def State.idleLeaf (s : State) (k : Nat) : Nat :=
  match s.firstRanked (s.residents k) with
  | none => 14
  | some (_, g) => (g.lowThread.map g.leafOf).getD 8

/-- The leaf of an issue: packed, full or partial. -/
def issueLeaf (g : Group) (w : Work) (packed : Bool) : Nat := if packed then 2 else if w.mask &&& g.live = g.live then 0 else 1

/-- The leaf of a partition's slot as it stands: that of the issue to come, else that of an idle clock. -/
def State.slotLeaf (s : State) (k : Nat) : Nat :=
  match s.nextOn k with
  | some (gi, g, w) => issueLeaf g w (s.packedMate k gi g w).isSome
  | none => s.idleLeaf k

/-- Count one clock of a partition in its leaf (15 R395); a clock of an empty partition is what no other leaf counts. -/
def Partition.count (p : Partition) (leaf : Nat) : Partition :=
  if leaf = 14 then p else { p with slots := Assoc.set leaf (Assoc.get leaf p.slots + 1) p.slots }

/-- A clock of a partition on which nothing issues counts in its leaf (15 R394). -/
def State.classify (s : State) (k : Nat) : State := s.modPart k (fun p => p.count (s.idleLeaf k))

/-- The partitions that the turn passes over issue nothing on this clock. -/
def State.classifyFrom (s : State) (past : Nat → Bool) : State :=
  (s.busyPartitions.filter (fun k => s.turn ≤ k && past k)).foldl State.classify s

/-- A clock of a partition on which nothing issues (15 R394). -/
def execSlotClassification (part : Nat) (s : State) : Host.Outcome State Fault Refusal := .next (s.classify part)

end Sys2Proof.Machine
end

