-- ==== Sys2Proof/Machine/Trace.lean ====
section
/-! DEFINITION. The trace buffer (15 R397-R399) and the loss of its pages (20 R486, R487). -/
namespace Sys2Proof.Machine

/-- A trace record (15 R399). -/
def traceRecord (kind : BitVec 8) (g : Group) (leaf : BitVec 8) (clk a b : Word64) : TraceRecord :=
  b ++ a ++ clk ++ BitVec.ofNat 16 g.place.ctx ++ leaf ++ BitVec.ofNat 8 g.place.gidx ++ BitVec.ofNat 8 (g.place.part % 16)
    ++ BitVec.ofNat 8 g.place.core ++ BitVec.ofNat 8 (dieOfCore g.place.core) ++ kind

/-- A gap record of a core. -/
def gapRecord (core ctx : Nat) (clk : Word64) (n : Nat) : TraceRecord :=
  traceRecord 5 { place := { ctx := ctx, core := core } } 0 clk (BitVec.ofNat 64 n) 0

/-- Records the ring holds. -/
def TraceCtl.capacity (t : TraceCtl) : Nat := (2 ^ t.log2size.toNat - 64) / 32

/-- A record kind of a context is armed on a core. -/
def State.traceArmed (s : State) (ctx bit_ : Nat) : Bool :=
  match s.context ctx with
  | none => false
  | some c => c.debuggable && c.trace.bufva != 0 && c.trace.enable && c.trace.kinds.getLsbD bit_

/-- A core's hold of a context. -/
def State.hold (s : State) (core ctx : Nat) : TraceHold := (Tab.get? ctx (s.coreAt core).trace).getD {}

/-- Change it. -/
def State.setHold (s : State) (core ctx : Nat) (h : TraceHold) : State := s.modCore core (fun c => { c with trace := Tab.put ctx h c.trace })

/-- Change a context's trace control. -/
def State.modTrace (s : State) (ctx : Nat) (f : TraceCtl → TraceCtl) : State := s.modCtx ctx (fun c => { c with trace := f c.trace })

/-- Records are dropped (15 R398, 20 R486). -/
def State.dropTrace (s : State) (core ctx n : Nat) : State :=
  let h := s.hold core ctx
  (s.setHold core ctx { h with gap := h.gap + n, gapAt := s.clkOf (dieOfCore core) }).modTrace ctx (fun t => { t with dropped := t.dropped + BitVec.ofNat 64 n })

/-- What taking an index gives: an index, no room, or a header page that fails translation. -/
inductive TraceIndex where
  | taken (i : Nat)
  | full
  | noPage
deriving DecidableEq, Repr

/-- Take an index by an atomic add on WR (15 R398). -/
def State.takeIndex (s : State) (core ctx : Nat) (t : TraceCtl) : State × TraceIndex :=
  match s.translate core ctx (virtOf t.bufva) { read := true, write := true } with
  | (s, .error _) => (s, .noPage)
  | (s, .ok (pa, _)) =>
    let wr := s.readPhys pa 8
    let rd := s.readPhys (pa + 8) 8
    if t.capacity < (wr + 1 + 2 ^ 64 - rd) % 2 ^ 64 then (s, .full) else (s.writePhys pa 8 (wr + 1), .taken wr)

/-- Write a record into its slot; false when the slot's page fails translation. -/
def State.putRecord (s : State) (core ctx : Nat) (t : TraceCtl) (i : Nat) (r : TraceRecord) : State × Bool :=
  match s.translate core ctx (virtOf t.bufva + 64 + 32 * (i % t.capacity)) { write := true } with
  | (s, .error _) => (s, false)
  | (s, .ok (pa, _)) => ((s.writePhys pa 32 r.toNat).modTrace ctx (fun t => { t with written := t.written + 1 }), true)

/-- Hold a record while its page is away: 128 records, the others are dropped (20 R486). -/
def State.holdRecord (s : State) (core ctx : Nat) (i : Option Nat) (r : TraceRecord) : State :=
  let h := s.hold core ctx
  if h.held.length < 128 then
    let s := s.setHold core ctx { h with held := h.held ++ [(i, r)], waiting := true }
    if h.waiting then s else s.push [.tracePageRetry core]
  else s.dropTrace core ctx 1

/-- Write one record with an index of its own or a new one. -/
def State.writeRecord (s : State) (core ctx : Nat) (t : TraceCtl) (i : Option Nat) (r : TraceRecord) : State :=
  match i with
  | some i =>
    let p := s.putRecord core ctx t i r
    if p.2 then p.1 else p.1.holdRecord core ctx (some i) r
  | none =>
    match s.takeIndex core ctx t with
    | (s, .noPage) => s.holdRecord core ctx none r
    | (s, .full) => s.dropTrace core ctx 1
    | (s, .taken i) =>
      let p := s.putRecord core ctx t i r
      if p.2 then p.1 else p.1.holdRecord core ctx (some i) r

/-- Once records can be written again, a gap record with the number dropped goes first (15 R398, 20 R486), with the CLK of the last of them. It is held like any
other when its slot's page is away. -/
def State.flushGap (s : State) (core ctx : Nat) (t : TraceCtl) : State :=
  let h := s.hold core ctx
  if h.gap = 0 then s
  else
    match s.takeIndex core ctx t with
    | (s, .taken i) =>
      let r := gapRecord core ctx h.gapAt h.gap
      let p := s.putRecord core ctx t i r
      let s := p.1.setHold core ctx { h with gap := 0 }
      if p.2 then s else s.holdRecord core ctx (some i) r
    | (s, _) => s

/-- A core writes a record of a context. -/
def State.trace (s : State) (core ctx kind : Nat) (r : TraceRecord) : State :=
  if !s.traceArmed ctx kind then s
  else
    match s.context ctx with
    | none => s
    | some c =>
      let h := s.hold core ctx
      if h.suspended then s
      else
        let s := if h.waiting then s else s.flushGap core ctx c.trace
        if (s.hold core ctx).waiting then s.holdRecord core ctx none r else s.writeRecord core ctx c.trace none r

/-- CLK of a record. -/
def recordClk (r : TraceRecord) : Nat := r.toNat / 2 ^ 64 % 2 ^ 64

/-- Try the pages of a context's held records again, in CLK order (15 R399): a gap record goes first where its records were dropped before them, else before the next
record. -/
def State.retryTrace (s : State) (core ctx : Nat) : State :=
  match s.context ctx with
  | none => s
  | some c =>
    let h := s.hold core ctx
    if !h.waiting then s
    else
      let s := s.setHold core ctx { h with held := [], waiting := false }
      let s := if h.held.all (fun e => decide (h.gapAt.toNat ≤ recordClk e.2)) then s.flushGap core ctx c.trace else s
      h.held.foldl (fun s e => if (s.hold core ctx).waiting then s.holdRecord core ctx e.1 e.2 else s.writeRecord core ctx c.trace e.1 e.2) s

/-- Every 64 us a core tries a page of the trace buffer again (20 R486). Whether the page is back is seen then; the next try comes from outside. -/
def execTracePageRetry (core : Nat) (s : State) : Host.Outcome State Fault Refusal :=
  let n := s.agenda.length
  let t := (Tab.keys (s.coreAt core).trace).foldl (fun s ctx => s.retryTrace core ctx) s
  .next { t with agenda := t.agenda.take n ++ (t.agenda.drop n).filter (fun i => i != .tracePageRetry core) }

/-- After 10 ms the held records are dropped and counted, and the core's tracing of the context is suspended (20 R486). -/
def execTraceHoldTimeout (core : Nat) (s : State) : Host.Outcome State Fault Refusal :=
  .next ((Tab.keys (s.coreAt core).trace).foldl (fun s ctx =>
    let h := s.hold core ctx
    if h.waiting then
      let s := s.dropTrace core ctx h.held.length
      s.setHold core ctx { s.hold core ctx with held := [], waiting := false, suspended := true }
    else s) s)

/-! ### The four kinds of record -/

/-- A mark (12 R350). -/
def State.traceMark (s : State) (g : Group) (pc x : Word64) : State :=
  s.trace g.place.core g.place.ctx 0 (traceRecord 1 g 0 (s.clkOf (dieOfCore g.place.core)) pc (x &&& 0xFFFF))

/-- A sample of one partition for one context (15 R399). -/
def State.traceSampleOf (s : State) (k ctx : Nat) : State :=
  match s.firstRanked ((s.residents k).filter (fun e => e.2.place.ctx == ctx)) with
  | none => s
  | some (_, g) =>
    match g.lowThread with
    | none => s
    | some L =>
      let w := g.choose
      let m := (w.map (·.mask)).getD (maskOf ((maskList g.live).filter (fun K => (g.thread K).pc == (g.thread L).pc && (g.thread K).wait == (g.thread L).wait)))
      let pc := (w.map (·.pc)).getD (g.thread L).pc
      s.trace g.place.core ctx 1 (traceRecord 2 g (BitVec.ofNat 8 (s.slotLeaf k)) (s.clkOf (dieOfCore g.place.core)) pc m)

/-- A sample period of a core ends (15 R397, R399). -/
def execTraceSample (core : Nat) (s : State) : Host.Outcome State Fault Refusal :=
  .next ((List.range 16).foldl (fun s p => (Tab.keys s.ctxs).foldl (fun s c => if s.traceArmed c 1 then s.traceSampleOf (16 * core + p) c else s) s) s)

/-- The number of a group state (02 R42, counted from Placing). -/
def GroupState.code : GroupState → BitVec 4
  | .placing => 0
  | .resident => 1
  | .saving _ => 2
  | .saved => 3
  | .offCore => 4
  | .restoring => 5
  | .escalated => 6
  | .ended => 7

/-- The records of what a step did to one group: a state change and a trap (15 R399). -/
def State.traceGroup (s : State) (old new : Group) : State :=
  let clk := s.clkOf (dieOfCore new.place.core)
  let s := if old.st.code = new.st.code then s
    else s.trace new.place.core new.place.ctx 2
      (traceRecord 3 new 0 clk ((new.lowThread.map (fun L => (new.thread L).pc)).getD 0) (0#56 ++ new.st.code ++ old.st.code))
  if (new.trap.inHandler && !old.trap.inHandler) || (new.trap.held && !old.trap.held) then
    s.trace new.place.core new.place.ctx 3 (traceRecord 4 new 0 clk new.trap.pc new.trap.cause)
  else s

/-- The trace records of a step: what it changed in each group of a traced context. -/
def State.traceStep (before after : State) : State :=
  if after.ctxs.any (fun e => e.2.trace.enable) then
    after.groups.foldl (fun s e => match before.group e.1 with
      | some old => s.traceGroup old e.2
      | none => s) after
  else after

end Sys2Proof.Machine
end

