-- ==== Sys2Proof/Machine/System.lean ====
section
/-! DEFINITION. System registers (07 R220, R221, 15 R395, R396, 17 R424), traps by instruction and their end (08 R237, 12 R344-R348), `exit`, service
calls, waystations and marks (12 R349, R350). -/
namespace Sys2Proof.Machine

/-! ### Reading system registers -/

/-- The block of a group. -/
def State.blockOf (s : State) (g : Group) : Option Block := s.blk g.place.blk

/-- Registers 0x000 to 0x00B of a group (07 R221). -/
def State.readPlace (s : State) (g : Group) (r : Nat) : Word64 :=
  if r = 1 then BitVec.ofNat 64 g.place.gidx
  else if r = 3 then BitVec.ofNat 64 g.width
  else if r = 4 then BitVec.ofNat 64 ((s.blockOf g).elim 0 (·.bx))
  else if r = 5 then BitVec.ofNat 64 ((s.blockOf g).elim 0 (·.byy))
  else if r = 6 then BitVec.ofNat 64 ((s.blockOf g).elim 0 (·.bz))
  else if r = 7 then BitVec.ofNat 64 g.place.bpart
  else if r = 8 then BitVec.ofNat 64 g.place.core
  else if r = 9 then BitVec.ofNat 64 g.place.part
  else if r = 10 then BitVec.ofNat 64 (dieOfCore g.place.core)
  else BitVec.ofNat 64 g.place.ctx

/-- Registers 0x010 to 0x015. -/
def State.readSlots (s : State) (g : Group) (r : Nat) : Word64 :=
  if r = 0x10 then s.clkOf (dieOfCore g.place.core)
  else if r = 0x11 then g.regs.iter
  else if r = 0x12 then zext 64 g.regs.qslot
  else zext 64 (Assoc.get (r - 0x12) g.regs.perm)

/-- Registers 0x020 to 0x060. -/
def State.readTrap (s : State) (g : Group) (r : Nat) : Word64 :=
  if r = 0x20 then g.trap.cause
  else if r = 0x21 then g.trap.pc
  else if r = 0x22 then g.trap.addr
  else if r = 0x23 then g.trap.mask
  else if r = 0x24 then BitVec.ofNat 64 g.trap.queue.length
  else if r = 0x25 then g.queueWord g.trap.qix.toNat
  else if r = 0x26 then g.trap.qix
  else if r = 0x28 then g.place.vec
  else if r = 0x30 then g.ustat
  else if r = 0x40 then g.regs.gang
  else if r = 0x50 then (s.irqOf g.place.ctx).pending
  else if r = 0x51 then (s.irqOf g.place.ctx).mask
  else ((s.context g.place.ctx).map (·.gen)).getD 1

/-- The sixteen counters of a partition (15 R395): the total is the number of clocks, and the leaves sum to it. -/
def State.slotCounters (s : State) (k : Nat) : Assoc 64 :=
  let p := s.part k
  let total : Word64 := BitVec.ofNat 64 s.clocks
  Assoc.set 15 total (Assoc.set 14 (total - (p.slots.foldl (fun n e => n + e.2) 0)) p.slots)

/-- Registers 0x100 to 0x111: zero in a context that is not debuggable (15 R395, R404). -/
def State.readCounters (s : State) (g : Group) (r : Nat) : Word64 :=
  if !s.debuggable g.place.ctx then 0
  else
    if r < 0x10F then Assoc.get (r - 0x100) (s.part g.partIndex).slotSnap
    else if r = 0x10F then BitVec.ofNat 64 s.clocks
    else if r = 0x110 then ((s.context g.place.ctx).map (·.trace.written)).getD 0
    else ((s.context g.place.ctx).map (·.trace.dropped)).getD 0

/-- A system register that is held per group. -/
def State.readSys (s : State) (g : Group) (r : Nat) : Word64 :=
  if r < 0x10 then s.readPlace g r
  else if r < 0x20 then s.readSlots g r
  else if r < 0x70 then s.readTrap g r
  else if r < 0x8C then artRegister (r - 0x70)
  else if r < 0xA0 then 0
  else if r = 0xC0 then g.regs.einj
  else if r < 0x112 then s.readCounters g r
  else if r < 0x124 then Assoc.get (r - 0x120) s.dieSkew
  else Assoc.get (r - 0x130) s.portSkew

/-- Physical lane of a thread (02 R30). -/
def Group.lane (g : Group) (L : Nat) : Nat := if g.width = 8 && g.place.upper then L + 8 else L % 16

/-- What a read of TRAPQ or SLOTTOTAL changes (07 R221, 15 R395). -/
def State.afterRead (s : State) (gi : Nat) (g : Group) (r : Nat) : State :=
  if r = 0x25 then s.modGroup gi (fun g => { g with trap := { g.trap with qix := (g.trap.qix + 8) &&& 0x7FF8 } })
  else if r = 0x10F && s.debuggable g.place.ctx then s.modPart g.partIndex (fun p => { p with slotSnap := s.slotCounters g.partIndex })
  else s

/-- Read a register that is held per group into a uniform register. -/
def State.readInto (s : State) (gi r d : Nat) (bundle : Mask) : State :=
  match s.group gi with
  | none => s
  | some g => (s.modGroup gi (fun h => (h.setS d (s.readSys g r)).noteSplit bundle)).afterRead gi g r

/-- A register is held per thread: TIDX and LANE. -/
def perThread (r : BitVec 11) : Bool := r == 0 || r == 2

/-- The operands of `rdsr` and `wrsr` (07 R220). -/
def useSr (r : BitVec 11) (d : BitVec 8) (w : Bool) : Use :=
  if perThread r then (if w then { vsrc := [{ reg := (field 0 6 d).toNat }] } else { vdst := [((field 0 6 d).toNat, 1)] })
  else if w then { ssrc := [d.toNat] } else { sdst := [d.toNat] }

/-- The write of `rdsr`: the register's value for the group, or each active thread's own. -/
def State.sysWrites (s : State) (r : BitVec 11) (d : BitVec 8) (g : Group) (ins : List LaneIn) : List RegWrite :=
  if perThread r then ins.map (fun i => .v i.L (field 0 6 d).toNat (BitVec.ofNat 32 (if r = 0 then i.L else g.lane i.L)) false false)
  else [.s d.toNat (s.readSys g r.toNat)]

/-- `rdsr` (12 R345, 07 R220): the register is read at the issue, and the result written 2 clocks after it (08 R245). -/
def execRdsr (r : BitVec 11) (d : BitVec 8) (sw : Bool) (s : State) : Host.Outcome State Fault Refusal :=
  issue
    { use := useSr r d false, sw := sw, checks := fun _ _ sel g => [operandStop g sel.mask (useSr r d false)], uniform := true
      effect := fun is sel e s =>
        match s.group sel.g with
        | none => (s, none)
        | some g =>
          let x := vectorEffect { use := useSr r d false, sw := sw, bound := 2, writes := fun g _ ins => s.sysWrites r d g ins } is sel e s
          (if perThread r then x.1 else x.1.afterRead sel.g g r.toNat, x.2) } s

/-- A read of TRAPQ into a uniform register (07 R221). -/
def execTrapqRead (g : Nat) (d : BitVec 8) (s : State) : Host.Outcome State Fault Refusal :=
  .next (s.readInto g 0x25 d.toNat (BitVec.allOnes 64))

/-- A read of SLOTTOTAL into a uniform register (15 R395). -/
def execSlottotalRead (g : Nat) (d : BitVec 8) (s : State) : Host.Outcome State Fault Refusal :=
  .next (s.readInto g 0x10F d.toNat (BitVec.allOnes 64))

/-! ### Writing system registers -/

/-- A write of TRAPQLEN: a smaller value discards the youngest entries (07 R221). -/
def Group.setQueueLength (g : Group) (x : Word64) : Group :=
  if x.toNat < g.trap.queue.length then { g with trap := { g.trap with queue := g.trap.queue.take x.toNat } } else g

/-- A write of TRAPQLEN. -/
def execTrapqlenWrite (g : Nat) (x : BitVec 64) (s : State) : Host.Outcome State Fault Refusal :=
  .next (s.modGroup g (fun g => g.setQueueLength x))

/-- A write of USTAT clears USPLIT (02 R41). -/
def Group.clearSplit (g : Group) : Group := { g with regs := { g.regs with usplit := false } }

/-- USPLIT is cleared by writing one. -/
def execUstatUsplitClear (g : Nat) (s : State) : Host.Outcome State Fault Refusal := .next (s.modGroup g Group.clearSplit)

/-- Slabs of a block on each core. -/
def State.slabsOf (s : State) (b : Nat) : Nat := ((s.manifestOf b).map (·.slabs)).getD 0

/-- A target outside the group's state, or a reserved kind, leaves EINJ as it was (17 R424). -/
def State.einjRefused (s : State) (g : Group) (x : Word64) : Bool :=
  let k := (field 52 4 x).toNat
  if 8 ≤ k then true
  else if k = 1 then decide (g.width ≤ (field 11 6 x).toNat) || decide (g.vLimit ≤ (field 0 6 x).toNat)
  else if k = 2 then decide (s.slabsOf g.place.blk ≤ (field 0 9 x).toNat)
  else if k = 7 then decide (g.width ≤ (field 0 6 x).toNat)
  else false

/-- EINJ of kind 1 flips one bit of a vector register; its error check does not see it. -/
def Group.flipReg (g : Group) (x : Word64) : Group :=
  g.modLanes (oneBit (field 11 6 x).toNat) (fun _ t =>
    { t with v := Assoc.set (field 0 6 x).toNat (t.vreg (field 0 6 x).toNat ^^^ BitVec.ofNat 32 (2 ^ (field 6 5 x).toNat)) t.v })

/-- EINJ of kind 2 flips one bit of an accumulator word. In a piece that nothing has accessed yet the bit of its zero is flipped, so the first read shows it
(DESIGN CHOICE, log 92). -/
def State.flipSlab (s : State) (g : Group) (x : Word64) : State :=
  let k := 1024 * (field 0 9 x).toNat + (field 9 10 x).toNat
  s.modBlk g.place.blk (fun b => b.modPart g.place.bpart (fun p =>
    { p with slabs := Assoc.set k (Assoc.get k p.slabs ^^^ BitVec.ofNat 32 (2 ^ (field 19 5 x).toNat)) p.slabs }))

/-- A write of EINJ (17 R424): kinds 1 and 2 act at once. -/
def State.writeEinj (s : State) (gi : Nat) (g : Group) (x : Word64) : State :=
  let x := x &&& 0x80F3FFFFFFFFFFFF#64
  if !s.debuggable g.place.ctx || s.einjRefused g x then s
  else
    let k := (field 52 4 x).toNat
    let s := s.modGroup gi (fun g => { g with regs := { g.regs with einj := x } })
    if bit x 63 && k = 1 then s.modGroup gi (fun g => (g.flipReg x).disarm)
    else if bit x 63 && k = 2 then (s.flipSlab g x).modGroup gi Group.disarm
    else s

/-- A write of EINJ. -/
def execEinjWrite (g : Nat) (x : BitVec 64) (s : State) : Host.Outcome State Fault Refusal :=
  match s.group g with
  | none => .next s
  | some gr => .next (s.writeEinj g gr x)

/-- A write of a system register; a write of a read-only one has no effect (00 R7, 12 R345). -/
def State.writeSys (s : State) (gi : Nat) (g : Group) (r : Nat) (x : Word64) : State :=
  if r = 0x21 then s.modGroup gi (fun g => { g with trap := { g.trap with pc := x } })
  else if r = 0x24 then s.modGroup gi (fun g => g.setQueueLength x)
  else if r = 0x26 then s.modGroup gi (fun g => { g with trap := { g.trap with qix := x &&& 0x7FF8 } })
  else if r = 0x30 then (if bit x 0 then s.modGroup gi Group.clearSplit else s)
  else if r = 0x51 then s.setImask g.place.ctx x
  else if r = 0xC0 then s.writeEinj gi g x
  else s

/-- `wrsr` (12 R345). -/
def execWrsr (r : BitVec 11) (d : BitVec 8) (sw : Bool) (s : State) : Host.Outcome State Fault Refusal :=
  issue
    { use := useSr r d true, sw := sw, checks := fun _ _ sel g => [operandStop g sel.mask (useSr r d true)], uniform := true
      effect := fun _ sel e s =>
        match s.group sel.g with
        | none => (s, none)
        | some g => (if perThread r then s else s.writeSys sel.g g r.toNat (e.uni.getD 0 0), none) } s

/-! ### Traps by instruction -/

/-- A `brk` of the debugged context is a precise stop when it is armed (08 R237, 15 R400, R404). -/
def brkArmed (s : State) (g : Group) : Bool :=
  s.dbg.armBrk && (field 32 16 s.dbg.tgt).toNat == g.place.ctx && s.debuggable g.place.ctx

/-- `brk` (08 R237): the trap, or, when it is armed, a stop after it. -/
def execBrk (c : BitVec 8) (sw : Bool) (s : State) : Host.Outcome State Fault Refusal :=
  issue
    { use := {}, sw := sw
      checks := fun s _ sel g => [if brkArmed s g then none else some { code := 0x1006, mask := sel.mask, addr := zext 64 c }]
      effect := fun _ sel _ s =>
        match s.group sel.g with
        | none => (s, none)
        | some g => (s.stopPartition g.partIndex g.place.ctx, none) } s

/-- `trap` (12 R348). -/
def execTrap (c : BitVec 8) (sw : Bool) (s : State) : Host.Outcome State Fault Refusal :=
  issue
    { use := {}, sw := sw, checks := fun _ _ sel _ => [some { code := 0x1007, mask := sel.mask, addr := zext 64 c }]
      effect := fun _ _ _ s => (s, none) } s

/-- `rett` (12 R346): outside a handler it is an illegal operand of kind 8. -/
def execRett (sw : Bool) (s : State) : Host.Outcome State Fault Refusal :=
  issue
    { use := {}, sw := sw
      checks := fun _ _ sel g => [if g.trap.inHandler then none else some (illegal sel.mask 8 0)]
      effect := fun _ sel _ => onGroup Group.endTrap sel } s

/-- `tmask` (12 R348). -/
def execTmask (sw : Bool) (s : State) : Host.Outcome State Fault Refusal :=
  issue
    { use := {}, sw := sw, checks := fun _ _ _ _ => []
      effect := fun _ sel _ => onGroup (fun g => { g with trap := { g.trap with tmasked := true } }) sel } s

/-- `tunmask` (12 R348). -/
def execTunmask (sw : Bool) (s : State) : Host.Outcome State Fault Refusal :=
  issue
    { use := {}, sw := sw, checks := fun _ _ _ _ => []
      effect := fun _ sel _ => onGroup (fun g => if g.trap.inHandler then g else { g with trap := { g.trap with tmasked := false } }) sel } s

/-! ### Exit, service calls, waystations and marks -/

/-- Hold a bundle until its compare entry is matched. -/
def State.awaitMatch (s : State) (sel : Sel) : State :=
  s.modGroup sel.g (fun g => g.modLanes sel.bundle (fun _ t => { t with wait := .gate, waitOn := convoyWait }))

/-- The signature of an instruction without an address or data. -/
def plainSignature (is : Issue) (sel : Sel) : Signature := { word := plainWord is, mask := sel.mask, addrs := [], data := [] }

/-- The `exit` that ends a convoy group's last live thread enters the compare buffer (21 R511). -/
def lastExit (sel : Sel) (g : Group) : Bool := g.place.paired && g.live &&& ~~~sel.mask == 0

/-- `exit` (08 R233, R234). -/
def execExit (sw : Bool) (s : State) : Host.Outcome State Fault Refusal :=
  issue
    { use := {}, sw := sw, checks := ctChecks {}, compared := true
      effect := fun is sel e s =>
        match s.group sel.g with
        | none => (s, none)
        | some g =>
          if lastExit sel g && (s.convoyOf sel.g).isSome then
            (s.modGroup sel.g (fun g => g.modLanes sel.mask (fun _ t => { t with pc := is.pc })) |>.awaitMatch sel).submit is sel e sw []
              (plainSignature is sel) 0 0 .exit (fun s => (s, none))
          else (s.exitOrHold is sel e sw, none) } s

/-- The data of a service call's signature: the number and v0-v7 (21 R511). -/
def svcData (g : Group) (sel : Sel) (n : BitVec 8) : List (List Word64) :=
  [zext 64 n] :: (maskList sel.mask).map (fun L => (List.range 8).map (fun r => zext 64 ((g.thread L).vreg r)))

/-- `svc` (12 R349): a device-scope release that waits at the gate; then the group goes to Off-core. -/
def execSvc (n : BitVec 8) (sw : Bool) (s : State) : Host.Outcome State Fault Refusal :=
  issue
    { use := {}, sw := sw, checks := fun _ _ _ _ => [], endsRunOn := fun _ _ _ => true, mem := true, compared := true
      effect := fun is sel e s =>
        match s.group sel.g with
        | none => (s, none)
        | some g =>
          let s := if g.place.paired && (s.convoyOf sel.g).isSome then s.awaitMatch sel else s
          s.submit is sel e sw [] { plainSignature is sel with data := svcData g sel n } 4 5 (.svc n)
            (fun s => (s.holdRelease g.place.core (heldOf s is sel g e sw 4 5 (.svc n)), none)) } s

/-- `ckpt` (12 R350): a waystation of a convoy; no effect in any other group. -/
def execCkpt (sw : Bool) (s : State) : Host.Outcome State Fault Refusal :=
  issue
    { use := {}, sw := sw, checks := fun _ _ _ _ => [], compared := true
      effect := fun is sel e s =>
        if (s.convoyOf sel.g).isSome then (s.awaitMatch sel).submit is sel e sw [] (plainSignature is sel) 0 0 .ckpt (fun s => (s, none))
        else (s, none) } s

/-- `prof.mark` (12 R350). -/
def execProfMark (a : BitVec 8) (sw : Bool) (s : State) : Host.Outcome State Fault Refusal :=
  issue
    { use := { ssrc := [a.toNat] }, sw := sw, checks := fun _ _ sel g => [operandStop g sel.mask { ssrc := [a.toNat] }]
      effect := fun is sel e s =>
        match s.group sel.g with
        | none => (s, none)
        | some g => (s.traceMark g is.pc (e.uni.getD 0 0), none) } s

end Sys2Proof.Machine
end

