-- ==== Sys2Proof/Machine/Tasks.lean ====
section
/-! DEFINITION. Tasks, dependence counters and launches (02 R46-R49, R53-R55, 12 R340): posting, signalling, and the check of a manifest with its
parameter block and its waybill (02 R48, R73, 12 R338). -/
namespace Sys2Proof.Machine

/-! ### Reading a context's memory on behalf of a dispatcher -/

/-- One byte of a context's virtual space, read on a die; none where it cannot be read (02 R48). -/
def State.readVirtByte (s : State) (die ctx V : Nat) : Option Nat :=
  match s.leafFor die ctx V with
  | .error _ => none
  | .ok l =>
    match l.check { read := true } with
    | some _ => none
    | none =>
      let pa := l.phys V
      if s.poisonedAt pa || (s.sector (sectorOf pa)).ecc == some .uncorrected || (s.sector (sectorOf pa)).ecc == some .misdirected then none
      else some (s.byteAt pa).toNat

/-- `n` bytes, little-endian, or the first address that cannot be read. -/
def State.readVirt (s : State) (die ctx : Nat) : Nat → Nat → Except Nat Nat
  | _, 0 => .ok 0
  | V, n + 1 =>
    match s.readVirtByte die ctx V with
    | none => .error V
    | some b =>
      match s.readVirt die ctx (V + 1) n with
      | .error a => .error a
      | .ok x => .ok (b + 256 * x)

/-- The die of a context's dispatcher (02 R54). -/
def State.homeDie (s : State) (ctx : Nat) : Nat := s.homeSlice ctx / 16

/-- A field of an image: `n` bytes from an offset. -/
def bytesAt (x off n : Nat) : Nat := x / 256 ^ off % 256 ^ n

/-! ### Manifests -/

/-- A role entry (02 R47). -/
def roleOf (x : Nat) : Role :=
  let flags := bytesAt x 4 1
  { wcode := BitVec.ofNat 2 (bytesAt x 0 1), groups := bytesAt x 1 1, base := bytesAt x 2 1, xmax := bytesAt x 3 1, gang := flags % 2 == 1,
    handler := flags / 2 % 2 == 1, paired := flags / 4 % 2 == 1, redundant := flags / 8 % 2 == 1, ucount := bytesAt x 5 1,
    entry := BitVec.ofNat 64 (bytesAt x 8 8), vec := BitVec.ofNat 64 (bytesAt x 16 8) }

/-- A role entry is in range, with its zero fields zero (02 R47). -/
def roleOk (x : Nat) : Bool :=
  let r := roleOf x
  bytesAt x 0 1 < 4 && 1 ≤ r.groups && r.groups ≤ 64 && 16 ≤ r.base && r.base ≤ 64 && r.base % 8 == 0 && r.xmax ≤ 48 && r.xmax % 8 == 0
    && r.base + r.xmax ≤ 64 && bytesAt x 4 1 < 16 && 32 ≤ r.ucount && r.ucount ≤ 160 && r.ucount % 16 == 0 && bytesAt x 6 2 == 0
    && bytesAt x 8 8 % 2 == 0 && bytesAt x 16 8 % 2 == 0 && bytesAt x 24 8 == 0

/-- A manifest from its 192 bytes (02 R46). -/
def manifestFrom (x : Nat) : Manifest :=
  { gx := bytesAt x 0 4, gy := bytesAt x 4 4, gz := bytesAt x 8 4, units := bytesAt x 12 2, slabs := bytesAt x 14 2, objects := bytesAt x 16 1, cores := bytesAt x 17 1,
    slack := bytesAt x 20 2, waybill := BitVec.ofNat 64 (bytesAt x 24 8)
    roles := (List.range (min 4 (bytesAt x 18 1))).map (fun i => roleOf (bytesAt x (64 + 32 * i) 32)) }

/-- A paired role is declared. -/
def Manifest.pairedRoles (m : Manifest) : Bool := m.roles.any (·.paired)

/-- The restrictions of convoys (02 R46, R73). -/
def Manifest.pairedOk (m : Manifest) : Bool :=
  if m.pairedRoles then
    8 ≤ m.slack && m.slack ≤ 256 && m.units == 0 && m.slabs == 0 && m.objects == 0 && m.waybill == 0 && m.roles.all (fun r => !r.gang)
  else m.slack == 0

/-- Ranges and zero fields of a manifest (02 R46, R47). -/
def manifestRanges (x : Nat) : Bool :=
  let m := manifestFrom x
  1 ≤ m.gx && 1 ≤ m.gy && 1 ≤ m.gz && m.units ≤ 128 && m.slabs ≤ 384 && m.objects ≤ 128 && 1 ≤ m.cores && m.cores ≤ 4
    && 1 ≤ bytesAt x 18 1 && bytesAt x 18 1 ≤ 4 && bytesAt x 19 1 == 0 && bytesAt x 22 2 == 0 && bytesAt x 32 32 == 0
    && (List.range 4).all (fun i => if i < bytesAt x 18 1 then roleOk (bytesAt x (64 + 32 * i) 32) else bytesAt x (64 + 32 * i) 32 == 0)

/-- Partitions of a core in service (01 R23). -/
def State.inService (s : State) (core : Nat) : Nat := ((List.range 16).filter (fun p => !s.fenced.contains (16 * core + p))).length

/-- Cores of the dies of a mask. -/
def maskCores (m : BitVec 4) : List Nat := (List.range 192).filter (fun c => m.getLsbD (dieOfCore c))

/-- The rules of 02 R48 on roles. -/
def State.rolesOk (s : State) (dies : BitVec 4) (m : Manifest) : Bool :=
  let avail := ((maskCores dies).map s.inService).foldl max 0
  m.roles.all (fun r => (!r.gang || (r.wcode == 1 && decide (r.groups ≤ avail))) && (!r.redundant || r.paired))
    && (m.roles.filter (·.handler)).length ≤ 1

/-- Bytes of the record of a group of a width code. -/
def recordBytes (w : BitVec 2) : Nat := 26368 + 320 * (8 * 2 ^ w.toNat)

/-- The record sizes a block reserves on its cores, each in whole 4 KiB (02 R63, R64, R69). -/
def Manifest.blockReserve (m : Manifest) : List Nat :=
  (List.range m.cores).flatMap (fun _ =>
    m.roles.flatMap (fun r => (List.replicate (if r.paired then 2 * r.groups else r.groups) (alignUp (recordBytes r.wcode) 4096)))
      ++ [alignUp (9216 + 4096 * (m.units + m.slabs) + 8 * m.slabs) 4096])

/-- The waybill header and stage table (12 R338, 02 R48). -/
def waybillOk (x : Nat) : Bool :=
  let n := bytesAt x 0 1
  1 ≤ n && n ≤ 16 && bytesAt x 1 63 == 0
    && (List.range 16).all (fun t =>
      let c := bytesAt x (64 + 4 * t + 2) 2
      if t < n then 1 ≤ c && c ≤ 256 else bytesAt x (64 + 4 * t) 4 == 0)

/-- What the check of a manifest gives: the launch's data, or the address the record names (02 R48). -/
def State.checkManifest (s : State) (ctx : Nat) (t : Task) : Except Nat (Manifest × List Word64) :=
  let die := s.homeDie ctx
  let ma := virtOf t.manifest
  match s.readVirt die ctx ma 192 with
  | .error a => .error a
  | .ok x =>
    let m := manifestFrom x
    match s.readVirt die ctx (virtOf t.params) 120 with
    | .error a => .error a
    | .ok ps =>
      let c := (s.context ctx).getD {}
      let fine := manifestRanges x && m.pairedOk && s.rolesOk c.dieMask m && decide (m.blockReserve.sum ≤ c.saveSize)
      if !fine then .error ma
      else
        let l := (List.range 15).map (fun i => BitVec.ofNat 64 (bytesAt ps (8 * i) 8))
        if m.waybill = 0 then .ok (m, l)
        else
          match s.readVirt die ctx (virtOf m.waybill) 128 with
          | .error a => .error a
          | .ok w => if waybillOk w then .ok (m, l) else .error ma

/-! ### Tasks and counters (02 R53, R54, 12 R340) -/

/-- A record of the dispatcher of a context. -/
def taskReport (s : State) (ctx : Nat) (code : BitVec 16) (a b : Word64) : Report :=
  let k := s.homeSlice ctx
  { code := code, path := diePath (k / 16) 0xA 0, ctx := BitVec.ofNat 16 ctx, slice := k, detail := detail4 a b 0 0 }

/-- The launch of a task whose counter reached zero: checked, then handed to the block distributor of the dispatcher's die; or rejected. -/
def State.taskReady (s : State) (ctx slot : Nat) (t : Task) : State :=
  match s.checkManifest ctx t with
  | .error a =>
    (s.modCtx ctx (fun c => { c with tasks := Tab.del slot c.tasks })).report (taskReport s ctx 0x7A01 t.record (BitVec.ofNat 64 a))
  | .ok (m, l) =>
    let id := Tab.fresh s.launches
    let die := s.homeDie ctx
    let s := { s with launches := Tab.put id { ctx := ctx, slot := slot, manifestAddr := t.manifest, man := m, params := l, signal := t.signal, endCounter := t.endCounter } s.launches }
    (s.modDie die (fun d => { d with ready := d.ready ++ [id] })).push [.blockDistribute die]

/-- A dependence counter is signalled (02 R54). -/
def State.signalCounter (s : State) (ctx : Nat) (ctr : BitVec 12) : State :=
  match (s.context ctx).bind (fun c => Tab.get? ctr.toNat c.counters) with
  | none => s.report (taskReport s ctx 0x7A02 (zext 64 ctr) 0)
  | some p =>
    if p.count = 0 then s.report (taskReport s ctx 0x7A02 (zext 64 ctr) 0)
    else if 1 < p.count then s.modCtx ctx (fun c => { c with counters := Tab.put ctr.toNat { p with count := p.count - 1 } c.counters })
    else
      let s := s.modCtx ctx (fun c => { c with counters := Tab.del ctr.toNat c.counters })
      match (s.context ctx).bind (fun c => Tab.get? p.slot c.tasks) with
      | some t => s.taskReady ctx p.slot t
      | none => s

/-- A signal reaches the dispatcher (02 R54). -/
def execCounterSignal (ctx : Nat) (ctr : BitVec 12) (s : State) : Host.Outcome State Fault Refusal := .next (s.signalCounter ctx ctr)

/-- The lowest free task-queue slot (13 R371). -/
def Context.freeSlot (c : Context) : Option Nat := (List.range 1024).find? (fun i => (Tab.get? i c.tasks).isNone)

/-- Every slot of the task queue is held: a post waits (12 R340). -/
def State.tasksFull (s : State) (ctx : Nat) : Bool := ((s.context ctx).map (fun c => decide (1024 ≤ c.tasks.length))).getD false

/-- Post a task record's image (02 R53, R54, 12 R340). -/
def State.postRecord (s : State) (ctx : Nat) (a : Word64) (x : Nat) : State :=
  let ctr := BitVec.ofNat 12 (bytesAt x 16 2)
  if bytesAt x 16 2 / 4096 != 0 || bytesAt x 20 2 / 4096 % 8 != 0 || bytesAt x 22 42 != 0 then s.report (taskReport s ctx 0x7A01 a 0)
  else
    match s.context ctx with
    | none => s
    | some c =>
      if (Tab.get? ctr.toNat c.counters).isSome then s.report (taskReport s ctx 0x7A04 a (zext 64 ctr))
      else
        match c.freeSlot with
        | none => s
        | some slot =>
          let t : Task :=
            { record := a, manifest := BitVec.ofNat 64 (bytesAt x 0 8), params := BitVec.ofNat 64 (bytesAt x 8 8), counter := ctr,
              signal := if bytesAt x 20 2 / 32768 = 1 then some (BitVec.ofNat 12 (bytesAt x 20 2)) else none
              endCounter := BitVec.ofNat 12 (bytesAt x 20 2), initial := bytesAt x 18 2 }
          let s := s.modCtx ctx (fun c => { c with tasks := Tab.put slot t c.tasks })
          if bytesAt x 18 2 = 0 then s.taskReady ctx slot t
          else s.modCtx ctx (fun c => { c with counters := Tab.put ctr.toNat { count := bytesAt x 18 2, slot := slot } c.counters })

/-- Post the task record at an address of a context (12 R340). -/
def State.postTask (s : State) (ctx : Nat) (a : Word64) : State :=
  match s.readVirt (s.homeDie ctx) ctx (virtOf a) 64 with
  | .error _ => s.report (taskReport s ctx 0x7A01 a 0)
  | .ok x => s.postRecord ctx a x

/-- A uniform release of the engine instructions: held at the gate, or entered in the compare buffer of a convoy (02 R74). -/
def uniformRelease (u : Use) (sw : Bool) (kind : Nat) (scope : BitVec 5) (more : Issue → Sel → Group → Option Stop) (act : List Word64 → Act) : Op :=
  { use := u, sw := sw, mem := true, compared := true, checks := fun _ is sel g => [operandStop g sel.mask u, more is sel g]
    effect := fun is sel e s =>
      match s.group sel.g with
      | none => (s, none)
      | some g =>
        let sig : Signature := { word := plainWord is, mask := sel.mask, addrs := [], data := [e.uni] }
        s.submit is sel e sw [] sig kind scope (act e.uni)
          (fun s => (s.holdRelease g.place.core (heldOf s is sel g e sw kind scope (act e.uni)), none)) }

/-- `task.post` (12 R340). -/
def execTaskPost (a : BitVec 8) (sw : Bool) (s : State) : Host.Outcome State Fault Refusal :=
  issue (uniformRelease { ssrc := [a.toNat] } sw 4 5
    (fun is sel g => if (uniSrc is g a 0).toNat % 64 != 0 then some { code := 0x1004, mask := sel.mask, addr := uniSrc is g a 0 } else none)
    (fun l => .post (l.getD 0 0))) s

/-- `task.sig` (12 R340). -/
def execTaskSig (a : BitVec 8) (sw : Bool) (s : State) : Host.Outcome State Fault Refusal :=
  issue (uniformRelease { ssrc := [a.toNat] } sw 4 5
    (fun is sel g => if field 12 52 (uniSrc is g a 0) != 0 then some (illegal sel.mask 7 ((uniSrc is g a 0).toNat % 256)) else none)
    (fun l => .sig (l.getD 0 0))) s

end Sys2Proof.Machine
end

