-- ==== Sys2Proof/Machine/Mx.lean ====
section
/-! DEFINITION. Gangs (11 R302-R305), the rendezvous (R306-R310, 19 R458, R459), descriptors (R311-R314) and MX operations with their completion
(R315-R325, R328, 06 R196-R204, 21 R497-R505, R508-R510), coefficient registers (R324). -/
namespace Sys2Proof.Machine

/-! ### Gangs (11 R302-R305) -/

/-- The member count a gang word names. -/
def gangCount (x : Word64) : Nat := (field 0 3 x).toNat

/-- Member field i. -/
def gangMember (x : Word64) (i : Nat) : Nat := (field (8 + 8 * i) 8 x).toNat

/-- The members a gang word lists. -/
def gangList (x : Word64) : List Nat := (List.range (gangCount x)).map (gangMember x)

/-- Zero fields of a source of `gang.set` are zero (11 R303). -/
def gangZeros (x : Word64) : Bool :=
  field 56 8 x == 0 && field 3 5 x == 0 && (List.range 6).all (fun i => i < gangCount x || gangMember x i == 0)

/-- The group of a block on a core with a group index. -/
def State.groupOn (s : State) (blk core gidx : Nat) : Option (Nat × Group) :=
  s.groups.find? (fun e => e.2.place.blk == blk && e.2.place.core == core && e.2.place.gidx == gidx)

/-- The groups the source names. -/
def State.gangGroups (s : State) (g : Group) (l : List Nat) : List (Nat × Group) := l.filterMap (fun i => s.groupOn g.place.blk g.place.core i)

/-- Leaders of the other gangs of the block on the core, of ended groups too (DESIGN CHOICE, log 108). -/
def State.gangLeaders (s : State) (gi : Nat) (g : Group) : List Nat :=
  ((s.groups.filter (fun e => e.1 != gi && e.2.place.blk == g.place.blk && e.2.place.core == g.place.core)).filterMap (fun e => e.2.regs.gangIdx.head?)).eraseDups

/-- `gang.set` may form the gang (11 R304). -/
def State.gangFine (s : State) (gi : Nat) (g : Group) (x : Word64) : Bool :=
  let l := gangList x
  let gs := s.gangGroups g l
  let c := gangCount x
  gangZeros x && (c == 0 || (c == 2 || c == 4 || c == 6) && gs.length == c && l.eraseDups.length == c && gs.all (fun e => e.2.place.gangCapable)
    && ((gs.map (fun e => e.2.place.part)).eraseDups).length == c && l.contains g.place.gidx
    && decide (((l.headD 0 :: s.gangLeaders gi g).eraseDups).length ≤ 8))

/-- The placement of a member: its partition and its first row. -/
def memberByte (g : Group) : Nat := 16 * (g.place.part % 16) + g.place.rows.headD 0 % 16

/-- GANG from the members' placements (11 R302). -/
def packGang (l : List Group) : Word64 :=
  BitVec.ofNat 64 (l.length + (l.zipIdx.map (fun e => memberByte e.1 * 2 ^ (8 + 8 * e.2))).sum)

/-- `gang.set` (11 R304). -/
def State.setGang (s : State) (gi : Nat) (x : Word64) : State :=
  match s.group gi with
  | none => s
  | some g =>
    s.modGroup gi (fun h => { h with regs := { h.regs with gang := packGang ((s.gangGroups g (gangList x)).map Prod.snd), gangIdx := gangList x } })

/-- Rewrite GANG from the present placements (11 R302). -/
def State.repackGangs (s : State) (blk core : Nat) : State :=
  { s with groups := s.groups.map (fun e =>
      if e.2.place.blk = blk ∧ e.2.place.core = core ∧ e.2.regs.gangIdx ≠ [] then
        (e.1, { e.2 with regs := { e.2.regs with gang := packGang ((s.gangGroups e.2 e.2.regs.gangIdx).map Prod.snd) } })
      else e) }

/-- `gang.set` (11 R303, R304). -/
def execGangSet (a : BitVec 8) (sw : Bool) (s : State) : Host.Outcome State Fault Refusal :=
  issue
    { use := { ssrc := [a.toNat] }, sw := sw
      checks := fun s is sel g => [operandStop g sel.mask { ssrc := [a.toNat] },
        if s.gangFine sel.g g (uniSrc is g a 0) then none else some (illegal sel.mask 8 a.toNat)]
      effect := fun is sel _ s =>
        match s.group sel.g with
        | none => (s, none)
        | some g => (s.setGang sel.g (uniSrc is g a 0), none) } s

/-- `gang.get` (11 R305). -/
def execGangGet (d : BitVec 8) (sw : Bool) (s : State) : Host.Outcome State Fault Refusal :=
  issue
    { use := { sdst := [d.toNat] }, sw := sw, checks := fun _ _ sel g => [operandStop g sel.mask { sdst := [d.toNat] }]
      effect := fun _ sel _ => onGroup (fun g => (g.setS d.toNat g.regs.gang).noteSplit sel.bundle) sel } s

/-! ### MX words and descriptors (11 R311-R315) -/

/-- Fields of an MX word. -/
def mxFn (w : BitVec 32) : Nat := (field 28 4 w).toNat
def mxVb (w : BitVec 32) : Nat := (field 22 6 w).toNat
def mxVa (w : BitVec 32) : Nat := (field 16 6 w).toNat
def mxSd (w : BitVec 32) : Nat := (field 8 8 w).toNat

/-- The instruction: fn4 with its descriptor. -/
structure MxDesc where
  fn : Nat
  va : Nat
  vb : Nat
  d0 : Word64
  d1 : Word64
  d2 : Word64
deriving DecidableEq, Repr

namespace MxDesc
/-- Descriptor fields (11 R311). -/
def bar (d : MxDesc) : Nat := (field 50 14 d.d0).toNat
def quint (d : MxDesc) : Bool := bit d.d0 49
def frob (d : MxDesc) : Bool := bit d.d0 48
def count (d : MxDesc) : Nat := (field 40 8 d.d0).toNat
def scb (d : MxDesc) : Nat := (field 38 2 d.d0).toNat
def sca (d : MxDesc) : Nat := (field 36 2 d.d0).toNat
def fb (d : MxDesc) : Nat := (field 31 4 d.d0).toNat
def fa (d : MxDesc) : Nat := (field 27 4 d.d0).toNat
def aw (d : MxDesc) : Nat := (field 18 9 d.d0).toNat
def src (d : MxDesc) : Nat := (field 9 9 d.d0).toNat
def ad (d : MxDesc) : Nat := (field 0 9 d.d0).toNat
def base (d : MxDesc) : Nat := (field 0 20 d.d1).toNat
def extent (d : MxDesc) : Nat := (field 20 20 d.d1).toNat
def stride (d : MxDesc) : Nat := (field 40 16 d.d1).toNat
def aTensor (d : MxDesc) : BitVec 8 := field 0 8 d.d2
def aFirst (d : MxDesc) : Nat := (field 8 20 d.d2).toNat
def bTensor (d : MxDesc) : BitVec 8 := field 28 8 d.d2
def bFirst (d : MxDesc) : Nat := (field 36 20 d.d2).toNat

/-- An operation that multiplies. -/
def multiplies (d : MxDesc) : Bool := d.fn ≤ 3
/-- `mpoly` or `miter`. -/
def iterates (d : MxDesc) : Bool := d.fn == 4 || d.fn == 5
/-- It reads AD, AS or the workspace, and writes them. -/
def usesAd (d : MxDesc) : Bool := [0, 1, 2, 3, 4, 6, 7, 8, 9, 12].contains d.fn
def usesSrc (d : MxDesc) : Bool := d.fn == 3 || (d.fn == 4 && d.count != 0) || [5, 8, 9, 10, 11].contains d.fn
def usesAw (d : MxDesc) : Bool := (d.fn == 4 && d.count != 0) || d.fn == 5
def readsD1 (d : MxDesc) : Bool := d.fn == 2 || d.fn == 11 || d.fn == 12
/-- Tiles of workspace. -/
def workTiles (d : MxDesc) : Nat := if d.fn = 5 then (if d.quint then 3 else 2) else 1
/-- Scale sources read: value, bit place, format. -/
def scaleSources (d : MxDesc) : List (Nat × Nat × Nat) :=
  (if d.fn ≤ 2 then [(d.sca, 36, d.fa)] else []) ++ (if d.fn ≤ 3 then [(d.scb, 38, d.fb)] else [])
/-- Registers of a run (11 R315). -/
def run (f sc : Nat) : Nat := if f = 4 ∧ sc = 0 then 17 else if f = 5 ∧ sc = 0 then 18 else 16
end MxDesc

/-- The slab regions an operation names: first slab, slabs, and bit place of its field. -/
def MxDesc.regions (d : MxDesc) (sl : Nat) : List (Nat × Nat × Nat) :=
  (if d.usesAd then [(d.ad, sl, 0)] else []) ++ (if d.usesSrc then [(d.src, sl, 9)] else []) ++ (if d.usesAw then [(d.aw, sl * d.workTiles, 18)] else [])

/-- Two regions share a slab. -/
def overlap (a b : Nat × Nat × Nat) : Bool := decide (a.1 < b.1 + b.2.1) && decide (b.1 < a.1 + a.2.1)

/-- The first region that meets an earlier one. -/
def firstOverlap : List (Nat × Nat × Nat) → List (Nat × Nat × Nat) → Option Nat
  | _, [] => none
  | seen, r :: rs => if seen.any (overlap r) then some r.2.2 else firstOverlap (r :: seen) rs

/-- The format rules of 11 R314: the failing field's bit. -/
def MxDesc.badFormat (d : MxDesc) : Option Nat :=
  let aOk := if d.fn ≤ 2 then decide (d.fa ≤ 6) else if d.fn ≤ 5 then decide (d.fa ≤ 7)
    else if d.fn = 11 ∨ d.fn = 12 then d.fa == 0 || d.fa == 1 || d.fa == 7 else true
  let bOk := if d.fn ≤ 2 then decide (d.fb ≤ 6) && kOf d.fb == kOf d.fa
    else if d.fn = 3 then (if d.fa = 7 then d.fb == 7 else decide (d.fb ≤ 6) && kOf d.fb == kOf d.fa)
    else if d.fn ≤ 5 then d.fb == d.fa else true
  if !aOk then some 27 else if !bOk then some 31 else none

/-- A read scale source that is reserved, or 1 with a format that is no block format. -/
def MxDesc.badScale (d : MxDesc) : Option Nat :=
  (d.scaleSources.find? (fun e => decide (2 ≤ e.1))).or (d.scaleSources.find? (fun e => e.1 == 1 && e.2.2 != 4 && e.2.2 != 5)) |>.map (·.2.1)

/-- Bytes of a scratchpad row (11 R317, R325). -/
def MxDesc.rowBytes (d : MxDesc) (n : Nat) : Nat :=
  if d.fn = 2 then 64 + (if d.sca = 0 then (if d.fa = 4 then 4 else if d.fa = 5 then 8 else 0) else 0)
  else n * (if d.fa = 7 then 4 else 2)

/-- The slab part of check 3: a tile past the slab count, or regions that overlap. -/
def MxDesc.badSlabs (d : MxDesc) (sl slabs : Nat) : Option Nat :=
  let rs := d.regions sl
  match rs.find? (fun r => decide (slabs < r.1 + r.2.1)) with
  | some r => some r.2.2
  | none =>
    if d.fn = 3 ∨ d.fn = 4 ∨ d.fn = 5 ∨ ((d.fn = 8 ∨ d.fn = 9) ∧ d.ad ≠ d.src) then firstOverlap [] rs else none

/-- COUNT8 fails (11 R313). -/
def MxDesc.badCount (d : MxDesc) (n : Nat) : Bool :=
  (d.fn == 5 && d.count == 0) || (d.fn == 4 && decide (15 < d.count)) || (d.fn == 3 && decide (n ≤ kOf d.fa * d.count))

/-- D1 fails: the failing bit. -/
def MxDesc.badD1 (d : MxDesc) (n : Nat) : Option Nat :=
  if !d.readsD1 then none
  else if field 56 8 d.d1 != 0 then some 56
  else if d.base % 4 ≠ 0 then some 0
  else if d.stride % 4 ≠ 0 ∨ (d.fn = 11 ∧ d.stride < d.rowBytes n) then some 40
  else none

/-- Check 3 of 11 R307 but for the barrier object: 64w + b of the failing field (11 R313, in its order). -/
def MxDesc.badFields (d : MxDesc) (n slabs : Nat) : Option Nat :=
  if bit d.d0 35 then some 35
  else (d.badFormat.or (d.badScale.or (d.badSlabs (n * n / 1024) slabs))).or (if d.badCount n then some 40 else none)

/-- The last parts of check 3: BAR, D1, D2. -/
def MxDesc.badTail (d : MxDesc) (n : Nat) (barBad : Bool) : Option Nat :=
  if barBad then some 50
  else
    match d.badD1 n with
    | some b => some (64 + b)
    | none => if d.scaleSources.any (fun e => e.1 == 1) && field 56 8 d.d2 != 0 then some (128 + 56) else none

/-- Check 4: excess bytes (11 R317). -/
def MxDesc.excess (d : MxDesc) (n units : Nat) : Nat :=
  if d.readsD1 then d.base + (n - 1) * d.stride + d.rowBytes n - min (d.base + d.extent) (4096 * units) else 0

/-! ### Operations in the state -/

/-- Change an operation. -/
def State.modMx (s : State) (id : Nat) (f : MxOp → MxOp) : State := { s with mxops := Tab.modify id f s.mxops }

/-- Members of an operation's gang edge: n = 16 G. -/
def MxOp.edge (o : MxOp) : Nat := 16 * o.members.length

/-- The descriptor of an operation: the leader's word and the words its rendezvous read. -/
def MxOp.desc (o : MxOp) : MxDesc :=
  match o.arrived.find? (fun a => some a.g == o.members.head?) with
  | some a => { fn := mxFn a.entry.word, va := mxVa a.entry.word, vb := mxVb a.entry.word, d0 := a.d0, d1 := a.d1, d2 := a.d2 }
  | none => { fn := 6, va := 0, vb := 0, d0 := 0, d1 := 0, d2 := 0 }

/-- Two operations are of one gang. -/
def MxOp.sameGang (a b : MxOp) : Bool := a.blk == b.blk && a.part == b.part && a.members.head? == b.members.head?

/-- Operations of the gang in flight. -/
def State.gangRunning (s : State) (o : MxOp) : List (Nat × MxOp) := s.mxops.filter (fun e => e.2.running && e.2.sameGang o)

/-- Wake the groups of a block that were turned away. -/
def State.retryBlock (s : State) (b : Nat) : State := (s.blockGroups b).foldl (fun s k => s.modGroup k Group.wakeTurned) s

/-- Slabs an operation in flight reads or writes: (first, slabs). -/
def MxOp.slabsOf (o : MxOp) : List (Nat × Nat) := (o.desc.regions (o.edge * o.edge / 1024)).map (fun r => (r.1, r.2.1))

/-- Slabs it writes. -/
def MxOp.slabsWritten (o : MxOp) : List (Nat × Nat) :=
  let d := o.desc
  let sl := o.edge * o.edge / 1024
  (if d.usesAd then [(d.ad, sl)] else []) ++ (if d.fn = 5 then [(d.src, sl)] else []) ++ (if d.usesAw then [(d.aw, sl * d.workTiles)] else [])

/-- A slab lies in one of the ranges. -/
def inRanges (k : Nat) (l : List (Nat × Nat)) : Bool := l.any (fun r => decide (r.1 ≤ k) && decide (k < r.1 + r.2))

/-- Two lists of slab ranges meet. -/
def rangesMeet (a b : List (Nat × Nat)) : Bool := a.any (fun x => b.any (fun y => decide (x.1 < y.1 + y.2) && decide (y.1 < x.1 + x.2)))

/-! ### Arrival (11 R306) -/

/-- The groups a gang names, leader first. -/
def State.gangMembers (s : State) (g : Group) : List Nat := (s.gangGroups g g.regs.gangIdx).map Prod.fst

/-- The waiting operation of a gang that a member has not reached yet: the oldest. Gangs are told apart by their leaders (DESIGN CHOICE, log 107). -/
def State.openRendezvous (s : State) (gi : Nat) (g : Group) (members : List Nat) : Option Nat :=
  (s.mxops.find? (fun e => !e.2.running && e.2.blk == g.place.blk && e.2.part == g.place.bpart && e.2.members.head? == members.head?
    && e.2.members.contains gi && !e.2.arrived.any (fun a => a.g == gi))).map Prod.fst

/-- Every member has arrived. -/
def MxOp.full (o : MxOp) : Bool := o.members.all (fun m => o.arrived.any (fun a => a.g == m))

/-- The word of an MX instruction (11 R315). -/
def mxWord (fn : BitVec 4) (b a : BitVec 6) (d : BitVec 8) (sw : Bool) : BitVec 32 := fn ++ b ++ a ++ d ++ 0x3E#6 ++ ofBool 1 sw ++ 1#1

/-- A bundle arrives: its threads wait, at the instruction unless it was re-injected. -/
def mxArrive (word : BitVec 32) (is : Issue) (sel : Sel) (e : ReplayEntry) (s : State) : State × Option LaneStop :=
  match s.group sel.g with
  | none => (s, none)
  | some g =>
    let e := { e with word := word, short := false }
    let members := s.gangMembers g
    let a : Arrival := { g := sel.g, bundle := sel.bundle, entry := e, replay := is.replay.isSome, gang := g.regs.gang
                         d0 := g.sget (mxSd word), d1 := g.sget (mxSd word + 1), d2 := g.sget (mxSd word + 2) }
    let id := (s.openRendezvous sel.g g members).getD (s.nextId + 1)
    let s := if (s.openRendezvous sel.g g members).isSome then s.modMx id (fun o => { o with arrived := o.arrived ++ [a] })
      else { s with nextId := id + 1,
                    mxops := Tab.put id { blk := g.place.blk, part := g.place.bpart, ctx := g.place.ctx, core := g.place.core, members := members,
                                          arrived := [a] } s.mxops }
    let s := s.modGroup sel.g (fun g => g.modLanes sel.bundle (fun _ t =>
      { t with wait := .mx, waitOn := id, pc := if is.replay.isSome then t.pc else is.pc }))
    (match Tab.get? id s.mxops with
     | some o => if o.full then s.push [.mxRendezvous id] else s
     | none => s, none)

/-- An MX instruction as an issue: only a gang may issue it. -/
def mxOp (fn : BitVec 4) (b a : BitVec 6) (d : BitVec 8) (sw : Bool) : Op :=
  { use := {}, sw := sw, mem := true
    checks := fun _ _ sel g => [if gangCount g.regs.gang = 0 then some (illegal sel.mask 8 0) else none]
    effect := mxArrive (mxWord fn b a d sw) }

/-! ### The checks of the rendezvous (11 R307) -/

/-- Read the descriptor words of every member. -/
def State.readDescriptors (s : State) (o : MxOp) : MxOp :=
  { o with arrived := o.arrived.map (fun a =>
      match s.group a.g with
      | some g => { a with gang := g.regs.gang, d0 := g.sget (mxSd a.entry.word), d1 := g.sget (mxSd a.entry.word + 1), d2 := g.sget (mxSd a.entry.word + 2) }
      | none => a) }

/-- The arrival of a member. -/
def MxOp.arrivalOf (o : MxOp) (m : Nat) : Option Arrival := o.arrived.find? (fun a => a.g == m)

/-- The first difference from the leader: 1 GANG, 2 word, 3-5 descriptor words. -/
def arrivalDiff (a b : Arrival) : Nat :=
  if a.gang ≠ b.gang then 1
  else if a.entry.word &&& ~~~2#32 ≠ b.entry.word &&& ~~~2#32 then 2
  else if a.d0 ≠ b.d0 then 3 else if a.d1 ≠ b.d1 then 4 else if a.d2 ≠ b.d2 then 5 else 0

/-- Check 1: the lowest member that differs, with its first difference. -/
def MxOp.mismatch (o : MxOp) : Option Word64 :=
  match o.members.zipIdx.findSome? (fun e =>
    match o.arrivalOf e.1, o.members.head?.bind o.arrivalOf with
    | some a, some l => if arrivalDiff l a ≠ 0 then some (arrivalDiff l a + 256 * e.2) else none
    | _, _ => none) with
  | some x => some (BitVec.ofNat 64 x)
  | none => none

/-- The registers an MX instruction names. -/
def MxDesc.uses (d : MxDesc) (sd : Nat) : Use :=
  { vsrc := (if d.fn ≤ 1 then [{ reg := d.va, cnt := MxDesc.run d.fa d.sca }] else []) ++ (if d.fn ≤ 3 then [{ reg := d.vb, cnt := MxDesc.run d.fb d.scb }] else [])
    ssrc := [sd, sd + 1, sd + 2] }

/-- Check 2: registers of every member. -/
def State.mxRegisters (s : State) (o : MxOp) : Option Word64 :=
  o.arrived.findSome? (fun a =>
    match s.group a.g with
    | some g => (operandStop g a.entry.mask (o.desc.uses (mxSd a.entry.word))).map (·.addr)
    | none => none)

/-- The completion object fails: past the block's objects, or of the bytes kind. -/
def State.mxBarBad (s : State) (o : MxOp) : Bool :=
  let b := o.desc.bar
  b != 0x3FFF && (decide (((s.manifestOf o.blk).map (·.objects)).getD 0 ≤ b) || bit (s.readBar o.blk { part := o.part, off := 32 * b }).control 1)

/-- Checks 1 to 4 in order: the trap and its address. -/
def State.mxCheck (s : State) (o : MxOp) : Option (BitVec 16 × Word64) :=
  let d := o.desc
  let n := o.edge
  match o.mismatch with
  | some x => some (0x1101, x)
  | none =>
    match s.mxRegisters o with
    | some x => some (0x1002, x)
    | none =>
      match (d.badFields n (s.slabsOf o.blk)).or (d.badTail n (s.mxBarBad o)) with
      | some b => some (0x1002, operandAddr 6 b)
      | none => if d.excess n (s.unitsOf o.blk) = 0 then none else some (0x1103, BitVec.ofNat 64 (d.excess n (s.unitsOf o.blk)))

/-- Leave the rendezvous' wait. -/
def Group.leaveMx (g : Group) (id : Nat) (f : Thread → Thread) : Group :=
  g.modLanes (g.which (fun t => t.wait == .mx && t.waitOn == id)) (fun _ t => { f t with wait := .none })

/-- A member traps with the MX instruction at the head of its queue (11 R307, 19 R459). -/
def State.trapArrival (s : State) (id : Nat) (code : BitVec 16) (addr : Word64) (a : Arrival) : State :=
  match s.group a.g with
  | none => s
  | some g =>
    let s := s.modGroup a.g (fun g => g.leaveMx id (fun t => t))
    s.stopWaiting a.g a.bundle { code := code, mask := a.entry.mask, addr := addr } a.entry.pc (a.entry :: if a.replay then g.pendingEntries a.bundle else [])

/-- Every arrived member traps, and the rendezvous is gone. -/
def State.failRendezvous (s : State) (id : Nat) (o : MxOp) (code : BitVec 16) (addr : Word64) : State :=
  let s := { s with mxops := Tab.del id s.mxops }
  o.arrived.foldl (fun s a => s.trapArrival id code addr a) s

/-! ### Staging (11 R306, R316) -/

/-- The words of a run of one member's sixteen threads: key 4096 * member + 64 * thread + index. -/
def stageMember (g : Group) (i reg cnt : Nat) : List (Nat × Word32 × Bool) :=
  (List.range 16).flatMap (fun t => (List.range cnt).map (fun j =>
    (4096 * i + 64 * t + j, (g.thread t).vreg (reg + j), (g.thread t).poison.getLsbD (reg + j))))

/-- The staged words of a run of every member. -/
def State.stageRun (s : State) (o : MxOp) (reg cnt : Nat) : List (Nat × Word32 × Bool) :=
  o.members.zipIdx.flatMap (fun e =>
    match s.group e.1 with
    | some g => stageMember g e.2 reg cnt
    | none => [])

/-- The staging buffers of an operation that reads registers. -/
def State.stage (s : State) (o : MxOp) : MxOp :=
  let d := o.desc
  let A := if d.fn ≤ 1 then s.stageRun o d.va (MxDesc.run d.fa d.sca) else []
  let B := if d.fn ≤ 3 then s.stageRun o d.vb (MxDesc.run d.fb d.scb) else []
  { o with runA := A.foldl (fun t e => Assoc.set e.1 e.2.1 t) [], badA := (A.filter (·.2.2)).map (·.1)
           runB := B.foldl (fun t e => Assoc.set e.1 e.2.1 t) [], badB := (B.filter (·.2.2)).map (·.1) }

/-- The scale-cache blocks an operation looks up: whether B's, the row or column, the block within it, tensor and number. -/
def MxDesc.lookups (d : MxDesc) (n : Nat) : List (Bool × Nat × Nat × BitVec 8 × Nat) :=
  let bl := kOf d.fa / 32
  let a := if d.fn ≤ 2 ∧ d.sca = 1 ∧ (d.fa = 4 ∨ d.fa = 5) then
      (List.range n).flatMap (fun r => (List.range bl).map (fun c => (false, r, c, d.aTensor, d.aFirst + r * bl + c))) else []
  let bb := kOf d.fb / 32
  let b := if d.fn ≤ 3 ∧ d.scb = 1 ∧ (d.fb = 4 ∨ d.fb = 5) then
      (List.range n).flatMap (fun r => (List.range bb).map (fun c => (true, r, c, d.bTensor, d.bFirst + r * bb + c))) else []
  a ++ b

/-- Fills on their way for the scales that miss (06 R202). -/
def State.missFills (s : State) (o : MxOp) : List Instr :=
  ((o.desc.lookups o.edge).filter (fun l => ((s.coreAt o.core).scaleEntry o.ctx l.2.2.2.1 l.2.2.2.2).isNone
    && (s.scaleAddr o.ctx l.2.2.2.1 l.2.2.2.2).isSome)).map (fun l => .scaleFill o.core l.2.2.2.1 (o.ctx * 2 ^ 20 + l.2.2.2.2))

/-! ### The rendezvous -/

/-- The conditions of the rendezvous (11 R306, R308): every member on its core and not stopped, no older rendezvous of the gang, no iteration
in flight, a free staging slot. -/
def State.mxReady (s : State) (id : Nat) (o : MxOp) : Bool :=
  let run := s.gangRunning o
  o.full && !o.running
    && !s.mxops.any (fun e => decide (e.1 < id) && !e.2.running && e.2.sameGang o)
    && run.all (fun e => !e.2.desc.iterates)
    && decide ((run.filter (fun e => e.2.desc.multiplies || !e.2.begun)).length < 2)
    && o.members.all (fun m => match s.group m with
        | some g => g.st == .resident && !s.partitionStopped g.partIndex
        | none => false)

/-- Set ITER of every member (11 R322). -/
def State.setIter (s : State) (o : MxOp) (resid : Word32) (active : Bool) (phase done : Nat) : State :=
  let x : Word64 := resid ++ 0#20 ++ ofBool 1 active ++ BitVec.ofNat 3 phase ++ BitVec.ofNat 8 done
  o.members.foldl (fun s m => s.modGroup m (fun g => { g with regs := { g.regs with iter := x } })) s

/-- The rendezvous completes: registers are staged, the members go on, the completion object counts the operation (11 R306, R328); its first array clock comes
10 clocks later (R327). -/
def State.startMx (s : State) (id : Nat) (o : MxOp) : State :=
  let d := o.desc
  let fills := s.missFills o
  let o := { s.stage o with running := true, seq := s.nextId + 1 }
  let s := { s with mxops := Tab.put id o s.mxops, nextId := s.nextId + 1 }
  let s := if d.bar = 0x3FFF then s else s.engineStart o.blk o.part d.bar
  let s := if d.iterates then s.setIter o 0 true 0 0 else s
  let s := o.arrived.foldl (fun s a => s.modGroup a.g (fun g => g.leaveMx id (fun t => if a.replay then t else { t with pc := t.pc + 4 }))) s
  (s.push fills).later 10 (.mxCompletion id [])

/-- The register words that a rendezvous reads of a member: the descriptor first. -/
def Arrival.words (a : Arrival) : Use := { ssrc := [mxSd a.entry.word, mxSd a.entry.word + 1, mxSd a.entry.word + 2] }

/-- The coefficients an operation uses, of its leader (11 R320, R321, R325). -/
def MxDesc.coefficients (d : MxDesc) : List Nat :=
  if d.fn = 7 then [0] else if d.fn = 4 then List.range (d.count + 1) else if d.fn = 5 then [0, 1] ++ (if d.quint then [2] else []) ++ [13, 14, 15] else []

/-- The registers that are staged of a member, and the coefficients of the leader. -/
def MxOp.staging (o : MxOp) (a : Arrival) : Use :=
  { vsrc := (o.desc.uses 0).vsrc, ksrc := if o.members.head? = some a.g then o.desc.coefficients else [] }

/-- A member's group escalates for a word without a poison bit (19 R451): it leaves the rendezvous. -/
def State.escalateArrival (s : State) (id : Nat) (a : Arrival) : State :=
  ((s.withdrawArrivals a.g a.bundle).modGroup a.g (fun g => g.leaveMx id (fun t => t))).escalate a.g a.bundle 0x3002 a.entry.pc a.entry.mask 0

/-- The register bank's checks of the words a rendezvous reads, of all the threads it reads (19 R450, R451); whether a group escalated. -/
def State.mxBank (s : State) (id : Nat) (o : MxOp) (u : Arrival → Use) : State × Bool :=
  o.arrived.foldl (fun r a =>
    match r.1.group a.g with
    | none => r
    | some g =>
      let b := bankReads a.g (u a) (maskOf (List.range g.width)) r.1 g.flow.regErrors
      if b.2 then (b.1.escalateArrival id a, true) else (b.1, r.2)) (s, false)

/-- The rendezvous of an operation (11 R306, R307). -/
def State.rendezvous (s : State) (id : Nat) : State :=
  match Tab.get? id s.mxops with
  | none => s
  | some o =>
    if !s.mxReady id o then s
    else
      match s.mxBank id o Arrival.words with
      | (s, true) => s
      | (s, false) =>
        let o := s.readDescriptors o
        match s.mxCheck o with
        | some (c, x) => s.failRendezvous id o c x
        | none =>
          match s.mxBank id o o.staging with
          | (s, true) => s
          | (s, false) => s.startMx id o

/-- A rendezvous may complete (11 R306). -/
def execMxRendezvous (id : Nat) (s : State) : Host.Outcome State Fault Refusal := .next (s.rendezvous id)

/-- The rendezvous of a gang that wait are looked at again. -/
def State.retryGang (s : State) (o : MxOp) : State :=
  s.push ((s.mxops.filter (fun e => !e.2.running && e.2.full && e.2.sameGang o)).map (fun e => .mxRendezvous e.1))

/-- Clocks count towards the gang timeout (19 R458): every member Resident or ended, none held or stopped, no operation in flight. -/
def State.gangCounts (s : State) (o : MxOp) : Bool :=
  !o.running && (s.gangRunning o).isEmpty
    && o.members.all (fun m => match s.group m with
        | some g => g.st == .ended || (g.st == .resident && !g.trap.held && !s.partitionStopped g.partIndex)
        | none => true)

/-- Members that arrived, bit i for member i. -/
def MxOp.arrivedBits (o : MxOp) : Nat := ((o.members.zipIdx.filter (fun e => (o.arrivalOf e.1).isSome)).map (fun e => 2 ^ e.2)).sum

/-- The gang timeout (11 R307, 19 R458). -/
def execGangTimeout (id : Nat) (s : State) : Host.Outcome State Fault Refusal :=
  match Tab.get? id s.mxops with
  | none => .next s
  | some o => .next (if s.gangCounts o then s.failRendezvous id o 0x1102 (BitVec.ofNat 64 o.arrivedBits) else s)

/-! ### Slabs -/

/-- Words `lo` to `lo + l.length - 1` of a sparse table replaced by a list. -/
def spliceWords (lo : Nat) (l : List Word32) (t : Assoc 32) : Assoc 32 :=
  (t.filter (fun e => decide (e.1 < lo))) ++ ((l.zipIdx.filter (fun e => e.1 != 0)).map (fun e => (lo + e.2, e.1)))
    ++ (t.filter (fun e => decide (lo + l.length ≤ e.1)))

/-- An operation's part of its block. -/
def State.mxPart (s : State) (o : MxOp) : BlockPart := (s.blockPart o.blk o.part).getD { core := o.core }

/-- The tile at a slab (11 R311). -/
def BlockPart.tile (p : BlockPart) (a n : Nat) : Tile :=
  { words := (List.range (n * n)).map (fun i => Assoc.get (1024 * a + i) p.slabs)
    poison := (List.range (n * n / 16)).filter (fun g => p.slabPoison.contains (64 * a + g)) }

/-- Write a tile with its poison. -/
def BlockPart.putTile (p : BlockPart) (a n : Nat) (t : Tile) : BlockPart :=
  { p with slabs := spliceWords (1024 * a) t.words p.slabs
           slabPoison := (p.slabPoison.filter (fun g => !(decide (64 * a ≤ g) && decide (g < 64 * a + n * n / 16)))) ++ t.poison.map (fun g => 64 * a + g)
           slabErr := p.slabErr.filter (fun e => !(decide (1024 * a ≤ e.1) && decide (e.1 < 1024 * a + n * n))) }

/-- Write a tile of the operation's part. -/
def State.putTile (s : State) (o : MxOp) (a : Nat) (t : Tile) : State :=
  s.modBlk o.blk (fun b => b.modPart o.part (fun p => p.putTile a o.edge t))

/-- Read a word range of the accumulator: errors are corrected or poison their granule, and are recorded (21 R505). -/
def State.checkSlabs (s : State) (ctx blk part core lo hi : Nat) : State :=
  match s.blockPart blk part with
  | none => s
  | some p =>
    let l := p.slabErr.filter (fun e => decide (lo ≤ e.1) && decide (e.1 < hi))
    let s := l.foldl (fun s e => s.report
      { code := if e.2 then 0x3201 else 0x3202, path := corePath core 2 0, ctx := BitVec.ofNat 16 ctx, slice := s.homeSlice ctx,
        detail := detail4 (BitVec.ofNat 64 (e.1 / 1024 + 512 * (e.1 % 1024))) (if e.2 then 0 else 1) 0 0 }) s
    if l.isEmpty then s
    else s.modBlk blk (fun b => b.modPart part (fun p =>
      { p with slabErr := p.slabErr.filter (fun e => !l.contains e)
               slabPoison := (p.slabPoison ++ ((l.filter (fun (e : Nat × Bool) => !e.2)).map (fun (e : Nat × Bool) => e.1 / 16))).eraseDups }))

/-- The error checks of the tiles an operation reads. -/
def State.checkTiles (s : State) (o : MxOp) : State :=
  o.slabsOf.foldl (fun s r => s.checkSlabs o.ctx o.blk o.part o.core (1024 * r.1) (1024 * (r.1 + r.2))) s

/-! ### Operands -/

/-- Rows or columns with the poison of each. -/
structure Operand where
  rows : List (List FVal)
  bad : List Bool
  flags : MxFlags := {}
deriving DecidableEq, Repr

/-- The 512 bits and the inline scale bytes of one staged row. -/
def stagedRow (t : Assoc 32) (i cnt lo : Nat) : Nat :=
  (List.range cnt).foldl (fun a j => a + (Assoc.get (4096 * (i / 16) + 64 * (i % 16) + lo + j) t).toNat * 2 ^ (32 * j)) 0

/-- A staged row has a poisoned word. -/
def stagedBad (l : List Nat) (i cnt : Nat) : Bool := (List.range cnt).any (fun j => l.contains (4096 * (i / 16) + 64 * (i % 16) + j))

/-- The halfwords of inline scales. -/
def inlineScales (x : Nat) : List Nat := (List.range 4).map (fun c => x / 2 ^ (16 * c) % 65536)

/-- The scales of a row or column: from the scale cache when they were looked up there, else inline. -/
def scalesOf (look : List (Bool × Nat × Nat × ScaleRead)) (isB : Bool) (r inl : Nat) (sc : Nat) : List Nat :=
  if sc = 1 then (List.range 4).map (fun c =>
    match look.find? (fun e => e.1 == isB && e.2.1 == r && e.2.2.1 == c) with
    | some e => e.2.2.2.scale.toNat
    | none => 0xFFFF)
  else inlineScales inl

/-- A poisoned scale was used by the row or column. -/
def scaleBad (look : List (Bool × Nat × Nat × ScaleRead)) (isB : Bool) (r : Nat) : Bool :=
  look.any (fun e => e.1 == isB && e.2.1 == r && e.2.2.2.poison)

/-- A staged operand. -/
def MxOp.staged (o : MxOp) (t : Assoc 32) (bad : List Nat) (f sc : Nat) (isB : Bool) (look : List (Bool × Nat × Nat × ScaleRead)) : Operand :=
  let rs := List.range o.edge
  let cnt := MxDesc.run f sc
  let poison := rs.any (fun i => stagedBad bad i cnt)
  { rows := rs.map (fun i => rowElements f (stagedRow t i 16 0) (scalesOf look isB i (stagedRow t i 2 16) sc))
    bad := rs.map (fun i => stagedBad bad i cnt || scaleBad look isB i), flags := { poisonIn := poison } }

/-- Rows of A in scratchpad (11 R317). -/
def State.scratchRows (s : State) (o : MxOp) (d : MxDesc) (look : List (Bool × Nat × Nat × ScaleRead)) : State × Operand :=
  let rd := fun r => s.readScratch o.blk { part := o.part, off := d.base + r * d.stride } (d.rowBytes o.edge)
  let c : State × List Bool := (List.range o.edge).foldl (fun (a : State × List Bool) r =>
    let x := a.1.checkScratch o.ctx o.blk { part := o.part, off := d.base + r * d.stride } (d.rowBytes o.edge)
    (x.1, a.2 ++ [x.2])) (s, [])
  (c.1,
   { rows := (List.range o.edge).map (fun r => rowElements d.fa (rd r % 2 ^ 512) (scalesOf look false r (rd r / 2 ^ 512) d.sca))
     bad := c.2.zipIdx.map (fun (e : Bool × Nat) => e.1 || scaleBad look false e.2), flags := { poisonIn := c.2.any id } })

/-- The strip of the feedback tile (11 R318). -/
def stripRows (n : Nat) (d : MxDesc) (X : Tile) : Operand :=
  let K := kOf d.fa
  let r := (List.range n).map (fun r => convertRun d.fa ((List.range K).map (fun i => if K * d.count + i < n then X.at (r * n + K * d.count + i) else 0)))
  let bad := (List.range n).map (fun r => X.poison.any (fun g => 16 * g / n == r && decide (16 * g % n < K * d.count + K)
    && decide (K * d.count < 16 * g % n + 16)))
  { rows := r.map Prod.fst, bad := bad, flags := (orFlags (r.map Prod.snd)).or { poisonIn := bad.any id } }

/-! ### Scale lookups (06 R202-R204, 21 R503, R504) -/

/-- EINJ of kind 5 of a member names the scale (17 R424). -/
def State.injectsScale (s : State) (o : MxOp) (tensor : BitVec 8) (b : Nat) : Option Nat :=
  o.members.find? (fun m => match s.group m with
    | some g => g.armed 5 && field 0 8 g.regs.einj == tensor && (field 8 20 g.regs.einj).toNat == b
    | none => false)

/-- The matrix pipeline of an operation's leader, as an agent (01 R22, 05 R159). -/
def MxOp.pipeline (o : MxOp) (s : State) : Nat := matrixAgent o.core (((o.members.head?.bind s.group).map (·.place.part)).getD 0)

/-- One lookup, with an injection that acts on it. -/
def State.mxLookup (s : State) (o : MxOp) (tensor : BitVec 8) (b : Nat) : State × ScaleRead :=
  let r := s.lookScale (o.pipeline s) o.core o.ctx tensor b
  match r.1.injectsScale o tensor b, r.1.scaleAddr o.ctx tensor b with
  | some m, some pa =>
    ((r.1.modGroup m Group.disarm).report (scaleReport o.ctx 0x3102 pa true), { r.2 with poison := r.2.found })
  | _, _ => r

/-- Every lookup of the operation. -/
def State.mxLookups (s : State) (o : MxOp) : List (Bool × Nat × Nat × BitVec 8 × Nat) → State × List (Bool × Nat × Nat × ScaleRead)
  | [] => (s, [])
  | l :: ls =>
    let r := s.mxLookup o l.2.2.2.1 l.2.2.2.2
    let t := r.1.mxLookups o ls
    (t.1, (l.1, l.2.1, l.2.2.1, r.2) :: t.2)

/-- Poisoned entries that were looked up are discarded (21 R504). -/
def State.dropPoisoned (s : State) (o : MxOp) (ls : List (Bool × Nat × Nat × BitVec 8 × Nat)) (rs : List (Bool × Nat × Nat × ScaleRead)) : State :=
  (ls.zip rs).foldl (fun s e => if e.2.2.2.2.poison then s.modCore o.core (fun c => c.dropScale o.ctx e.1.2.2.2.1 e.1.2.2.2.2) else s) s

/-- The flags of the lookups. -/
def lookFlags (rs : List (Bool × Nat × Nat × ScaleRead)) : MxFlags :=
  { scaleNf := rs.any (fun e => !e.2.2.2.found), scaleErr := rs.any (·.2.2.2.poison), scaleCor := rs.any (·.2.2.2.cor),
    poisonIn := rs.any (·.2.2.2.poison) }

/-- VALUE of an operation that used poisoned scales: the lowest block number, A before B (21 R503). -/
def scaleValue (ls : List (Bool × Nat × Nat × BitVec 8 × Nat)) (rs : List (Bool × Nat × Nat × ScaleRead)) : Word32 :=
  let l := ((ls.zip rs).filter (fun e => e.2.2.2.2.poison)).map (fun e => 2 * e.1.2.2.2.2 + (if e.1.1 then 1 else 0))
  match leastOf l with
  | none => 0
  | some k => BitVec.ofNat 32 (k / 2 % 2 ^ 20 + 2 ^ 20 * (k % 2))

/-! ### What each operation does -/

/-- What an operation leaves for its status. -/
structure MxResult where
  flags : MxFlags := {}
  outcome : Nat := 0
  done : Nat := 0
  value : Word32 := 0
  iterTrap : Bool := false
deriving DecidableEq, Repr

/-- The leader's coefficients. -/
def State.leaderK (s : State) (o : MxOp) (i : Nat) : Word32 :=
  match o.members.head?.bind s.group with
  | some g => g.kget i
  | none => 0

/-- Words of the accumulator that a shadow disagreement names, within a tile at slab a: its granules. -/
def marksOf (bad : List Nat) (n a : Nat) : List Nat := badGranules bad (1024 * a) (n * n)

/-- The multiply instructions (11 R316-R318). -/
def State.runMultiply (s : State) (o : MxOp) (d : MxDesc) (bad : List Nat) : State × MxResult :=
  let n := o.edge
  let ls := d.lookups n
  let lk := s.mxLookups o ls
  let ab := if d.fn = 2 then lk.1.scratchRows o d lk.2
    else if d.fn = 3 then (lk.1, stripRows n d ((lk.1.mxPart o).tile d.src n))
    else (lk.1, o.staged o.runA o.badA d.fa d.sca false lk.2)
  let A := ab.2
  let B := o.staged o.runB o.badB d.fb d.scb true lk.2
  let old : Tile := if d.fn = 1 then { words := [] } else (ab.1.mxPart o).tile d.ad n
  let p := matProduct n (min (chunkOf d.fa) (chunkOf d.fb)) A.rows B.rows old.words
  let t : Tile := { words := p.1, poison := productPoison n (fun r => A.bad.getD r false) (fun c => B.bad.getD c false) old.poison }
  let t := t.taint (marksOf bad n d.ad)
  let fl := (((p.2.or A.flags).or B.flags).or (lookFlags lk.2)).or { poisonIn := !old.poison.isEmpty }
  ((ab.1.putTile o d.ad t).dropPoisoned o ls lk.2,
   { flags := fl, outcome := if t.poison.isEmpty then 0 else 4, value := scaleValue ls lk.2 })

/-- The buffer that holds Y after `j` steps of an `mpoly`: the last is AD (11 R320). -/
def MxDesc.polyBuffer (d : MxDesc) (j : Nat) : Nat := if (d.count - j) % 2 = 0 then d.ad else d.aw

/-- The result of an `mpoly` that has made its last step (21 R508). -/
def State.polyResult (s : State) (o : MxOp) (d : MxDesc) (p : MxProgress) : MxResult :=
  let bad := fun a => !((s.mxPart o).tile a o.edge).poison.isEmpty
  { flags := p.flags, outcome := if bad d.ad || (d.count != 0 && bad d.aw) then 4 else 0, done := d.count }

/-- One leg of `mpoly` (11 R320), by its phase: the setting of k[d]·I, a product, or its addition. The result comes with the last one. -/
def State.runPoly (s : State) (o : MxOp) (d : MxDesc) (bad : List Nat) : State × MxProgress × Option MxResult :=
  let n := o.edge
  let p := o.progress
  if p.phase = 0 then
    let s := s.putTile o (d.polyBuffer 0) ((diagTile n (s.leaderK o d.count)).taint (marksOf bad n (d.polyBuffer 0)))
    if d.count = 0 then (s, p, some (s.polyResult o d p)) else (s, { p with phase := 1 }, none)
  else
    let dest := d.polyBuffer (p.done + 1)
    if p.phase = 1 then
      let a := tileProduct n d.fa false ((s.mxPart o).tile (d.polyBuffer p.done) n) ((s.mxPart o).tile d.src n)
      (s.putTile o dest (a.1.taint (marksOf bad n dest)), { p with phase := 2, flags := p.flags.or a.2 }, none)
    else
      let r := addDiag n (s.leaderK o (d.count - 1 - p.done)) ((s.mxPart o).tile dest n)
      let s := s.putTile o dest (r.1.taint (marksOf bad n dest))
      let p := { p with done := p.done + 1, flags := p.flags.or r.2 }
      if p.done = d.count then (s, p, some (s.polyResult o d p)) else (s, { p with phase := 1 }, none)

/-- The tiles of a `miter` with its progress. -/
def State.iterRun (s : State) (o : MxOp) (d : MxDesc) : IterRun :=
  let n := o.edge
  let sl := n * n / 1024
  let tile := fun a => (s.mxPart o).tile a n
  { x := tile d.src, w0 := tile d.aw, w1 := tile (d.aw + sl), w2 := if d.quint then tile (d.aw + 2 * sl) else { words := [] }
    flags := o.progress.flags, prev := o.progress.prev, grow := o.progress.grow, done := o.progress.done, resid := o.progress.resid }

/-- One leg of `miter` (11 R321, 21 R508, R509), by its phase: a product, or the combination of an iteration with its tests. -/
def State.runIter (s : State) (o : MxOp) (d : MxDesc) (bad : List Nat) : State × MxProgress × Option MxResult :=
  let n := o.edge
  let sl := n * n / 1024
  let p := o.progress
  let k := s.leaderK o
  if p.phase < 3 then
    let dest := d.aw + p.phase * sl
    let t := (s.iterRun o d).product n d.fa p.phase (marksOf bad n dest)
    (s.putTile o dest (if p.phase = 0 then t.w0 else if p.phase = 1 then t.w1 else t.w2),
      { p with phase := if p.phase < (if d.quint then 2 else 1) then p.phase + 1 else 3, flags := t.flags }, none)
  else
    let t := (s.iterRun o d).combineWith n d.quint d.frob k (marksOf bad n d.src)
    let s := s.putTile o d.src t.x
    let p := { p with done := t.done, resid := t.resid, prev := t.prev, grow := t.grow, flags := t.flags }
    if t.stop || t.done = d.count then
      (s, p, some { flags := t.flags, outcome := t.outcome, done := t.done, value := t.resid, iterTrap := t.outcome == 3 && k 13 != 0 })
    else (s, { p with phase := 0 }, none)

/-- A tile operation that writes AD. -/
def State.finishTile (s : State) (o : MxOp) (d : MxDesc) (bad : List Nat) (t : Flagged Tile) : State × MxResult :=
  let t' := t.1.taint (marksOf bad o.edge d.ad)
  (s.putTile o d.ad t', { flags := t.2, outcome := if t'.poison.isEmpty then 0 else 4 })

/-- A word with a NaN made canonical (06 R185). -/
def canonWord (x : Word32) : Word32 := if (valOf x).isNan then nan32 else x

/-- `acc.tr`: the transpose, its NaNs canonical (06 R185, 11 R325), a granule poisoned when it holds an element of a poisoned one (21 R505). -/
def transposeTile (n : Nat) (X : Tile) : Flagged Tile :=
  let idx := fun e => e % n * n + e / n
  ({ words := (List.range (n * n)).map (fun e => canonWord (X.at (idx e)))
     poison := (List.range (n * n / 16)).filter (fun g => (List.range 16).any (fun i => X.poison.contains (idx (16 * g + i) / 16))) },
   (specialIf (X.words.map valOf)).or { poisonIn := !X.poison.isEmpty })

/-- `acc.norm` (11 R325). -/
def normResult (X : Tile) (frob : Bool) : MxResult :=
  if X.poison.isEmpty then
    let r := residualOf frob (X.words.map valOf)
    { flags := (specialIf (X.words.map valOf)).or r.2, value := r.1 }
  else { flags := (specialIf (X.words.map valOf)).or { poisonIn := true }, outcome := 4, value := nan32 }

/-- One element of `acc.out`: its code and flags. -/
def outElement (f : Nat) (x : Word32) : Flagged Nat :=
  let v := valOf x
  if f = 7 then ((canonWord x).toNat, specialIf [v])
  else
    let fm := if f = 0 then bf16 else f16
    let r := fm.round .rn v
    (r, { special := !v.isFin, overflow := v.isFin && !(fm.decode r).isFin })

/-- `acc.out`: rows to scratchpad; an element of a poisoned granule is +0. Every element is read (06 R197). -/
def State.runOut (s : State) (o : MxOp) (d : MxDesc) : State × MxResult :=
  let n := o.edge
  let X := (s.mxPart o).tile d.src n
  let es := if d.fa = 7 then 4 else 2
  let el := fun e => outElement d.fa (if X.poison.contains (e / 16) then 0 else X.at e)
  let s := (List.range n).foldl (fun s r =>
    let p : Spot := { part := o.part, off := d.base + r * d.stride }
    ((s.engineScratch o.blk p (n * es)).scratchWrote o.core o.blk p (n * es)).writeScratch o.blk p (n * es)
      (((List.range n).map (fun c => (el (r * n + c)).1 * 2 ^ (8 * es * c))).sum)) s
  (s, { flags := (orFlags ((List.range (n * n)).map (fun e => (el e).2))).or ((specialIf (X.words.map valOf)).or { poisonIn := !X.poison.isEmpty }),
        outcome := if X.poison.isEmpty then 0 else 4 })

/-- `acc.in`: rows from scratchpad, exact; an element of an uncorrected word poisons its granule. -/
def State.runIn (s : State) (o : MxOp) (d : MxDesc) (bad : List Nat) : State × MxResult :=
  let n := o.edge
  let es := if d.fa = 7 then 4 else 2
  let spot := fun e => ({ part := o.part, off := d.base + e / n * d.stride + es * (e % n) } : Spot)
  let errs := (List.range (n * n)).filter (fun e => (s.scratchErrors o.blk (spot e) es).any (fun x => !x.2))
  let vals := (List.range (n * n)).map (fun e =>
    let x := s.readScratch o.blk (spot e) es
    if d.fa = 7 then (canonWord (BitVec.ofNat 32 x), valOf (BitVec.ofNat 32 x))
    else
      let v := (if d.fa = 0 then bf16 else f16).decode x
      (w32 (f32.round .rn v), v))
  let s := (List.range n).foldl (fun s r => (s.checkScratch o.ctx o.blk { part := o.part, off := d.base + r * d.stride } (n * es)).1) s
  s.finishTile o d bad
    ({ words := vals.map Prod.fst, poison := (errs.map (· / 16)).eraseDups }, (specialIf (vals.map Prod.snd)).or { poisonIn := !errs.isEmpty })

/-- The tile operations (11 R325). -/
def State.runTile (s : State) (o : MxOp) (d : MxDesc) (bad : List Nat) : State × MxResult :=
  let n := o.edge
  let X := (s.mxPart o).tile d.ad n
  let Y := (s.mxPart o).tile d.src n
  if d.fn = 6 then s.finishTile o d bad ({ words := List.replicate (n * n) 0 }, {})
  else if d.fn = 7 then
    s.finishTile o d bad (tileMap (fun l => (valOf (s.leaderK o 0)).mul (l.headD .nan)) [valOf (s.leaderK o 0)] [X] (n * n))
  else if d.fn = 8 then s.finishTile o d bad (tileMap (fun l => (l.headD .nan).add (l.getD 1 .nan)) [] [X, Y] (n * n))
  else if d.fn = 9 then s.finishTile o d bad (transposeTile n Y)
  else if d.fn = 10 then (s, normResult Y d.frob)
  else if d.fn = 11 then s.runOut o d
  else s.runIn o d bad

/-- Run an operation, or one leg of an `mpoly` or `miter`: what it leaves is there once it is done. -/
def State.runMx (s : State) (o : MxOp) (bad : List Nat) : State × MxProgress × Option MxResult :=
  let d := o.desc
  let s := s.checkTiles o
  if d.fn = 4 then s.runPoly o d bad
  else if d.fn = 5 then s.runIter o d bad
  else
    let r := if d.fn ≤ 3 then s.runMultiply o d bad else s.runTile o d bad
    (r.1, o.progress, some r.2)

/-! ### Duration (11 R327) -/

/-- Array clocks of one tile product of `mpoly` and `miter`. -/
def MxDesc.productClocks (d : MxDesc) (G : Nat) : Nat := G * G * (if d.fa = 7 then 32 else if d.fa ≤ 1 then 4 else if d.fa = 5 then 1 else 2)

/-- Array clocks of an operation, or of a leg of `mpoly` and `miter` in a phase. -/
def MxDesc.arrayClocks (d : MxDesc) (G phase : Nat) : Nat :=
  if d.fn ≤ 3 then (if d.fn = 3 ∧ d.fa = 7 then 32 * G else 8 * G)
  else if d.fn = 4 then (if phase = 1 then d.productClocks G else 2 * G)
  else if d.fn = 5 then (if phase < 3 then d.productClocks G else 2 * G)
  else if d.fn = 9 then 4 * G
  else if d.fn = 11 ∨ d.fn = 12 then G * G * (if d.fa = 7 then 4 else 2)
  else 2 * G

/-! ### Completion (11 R328, 21 R497, R500, R501, R509) -/

/-- The accumulating status after a completion. -/
def statusUpdate (acc : Word64) (r : MxResult) (past : Bool) : Word64 :=
  let old := (field 1 3 acc).toNat
  let out := if old = 4 then 4 else r.outcome
  let cnt := (field 12 4 acc).toNat
  let fl := field 16 16 acc ||| r.flags.bits r.iterTrap ||| (if past then 0x0400 else 0)
  r.value ++ fl ++ BitVec.ofNat 4 (min (cnt + 1) 15) ++ BitVec.ofNat 8 r.done ++ BitVec.ofNat 3 out ++ field 0 1 acc

/-- The completion of an operation onto its object, which carries the pipeline's TIME (05 R178). -/
def State.completeOn (s : State) (o : MxOp) (b : Nat) (r : MxResult) : State :=
  let p : Spot := { part := o.part, off := 32 * b }
  let x := s.readBar o.blk p
  let a := o.pipeline s
  let s := (s.message o.core a).tick a
  let s :=
    if x.pending = 0 then
      (s.writeBar o.blk p { x with acc := statusUpdate x.acc r true }).report
        { code := 0x8101, path := corePath o.core 1 0, ctx := BitVec.ofNat 16 o.ctx, slice := s.homeSlice o.ctx,
          detail := detail4 (BitVec.ofNat 64 p.off) 0 0 0 }
    else s.updateBar o.blk p (({ x with acc := statusUpdate x.acc r false } : BarObj).take 1) (s.timeOf a)
  s.engineEnd o.blk o.part b

/-- The trap of a diverged iteration becomes pending at every member that has not ended (21 R509, R510). -/
def State.divergeMembers (s : State) (o : MxOp) (r : MxResult) : State :=
  let x : Word64 := 0#24 ++ BitVec.ofNat 8 r.done ++ r.value
  (o.members.foldl (fun s m => s.modGroup m (fun g =>
    if g.st == .ended then g else { g with trap := { g.trap with divergePending := true, divergeAddr := x } })) s).push (o.members.map .iterationDivergedTrap)

/-- An operation waits for another, whose rendezvous completed before its own: of the same gang, or one whose slabs it shares, stopped or not (11 R309, R328). -/
def MxOp.behind (o e : MxOp) : Bool :=
  e.running && decide (e.seq < o.seq) && e.blk == o.blk && e.part == o.part
    && (e.sameGang o || rangesMeet e.slabsWritten o.slabsOf || rangesMeet e.slabsOf o.slabsWritten)

/-- An older operation must complete first. -/
def State.mxBehind (s : State) (o : MxOp) : Bool := s.mxops.any (fun e => o.behind e.2)

/-- A leg that is a product (11 R320, R321). -/
def MxDesc.atProduct (d : MxDesc) (phase : Nat) : Bool := (d.fn == 4 && phase == 1) || (d.fn == 5 && decide (phase < 3))

/-- The stop of an iteration for a save (02 R60, 11 R323): it stands at the start of its next product, at once when that is what it is to begin with, else once
the legs before it have run. An operation that waits for this one and must complete before the save goes first (log 38). -/
def execMxEvictionStop (id : Nat) (s : State) : Host.Outcome State Fault Refusal :=
  match Tab.get? id s.mxops with
  | none => .next s
  | some o =>
    if !o.running || !o.desc.iterates || o.stopped || (o.desc.fn == 4 && o.desc.count == 0) then .next s
    else if s.mxops.any (fun e => e.2.running && e.2.behind o) then .next (s.later 1 (.mxEvictionStop id))
    else .next (s.modMx id (fun o => { o with asked := true, stopped := !o.begun && o.desc.atProduct o.progress.phase }))

/-! ### The divergence trap (21 R510) -/

/-- Waits a divergence trap ends. -/
def divergeWaits (w : Wait) : Bool := w == .barWait || w == .gbar || w == .bsync || w == .uirqWait

/-- The bundle of waiting threads that takes the trap, with the address of its instruction. -/
def Group.divergeBundle (g : Group) : Option (Mask × Word64) :=
  match maskList (g.which (fun t => !t.exited && divergeWaits t.wait)) with
  | [] => none
  | L :: _ =>
    let t := g.thread L
    some (g.which (fun u => !u.exited && u.wait == t.wait && u.pc == t.pc), if t.wait == .gbar then t.pc - 4 else t.pc)

/-- Take a pending divergence trap. -/
def State.takeDiverge (s : State) (gi : Nat) : State :=
  match s.group gi with
  | none => s
  | some g =>
    if !g.trap.divergePending || g.st != .resident || g.trap.held then s
    else
      let st := fun m => ({ code := 0x1104, mask := m, addr := g.trap.divergeAddr } : Stop)
      let clear := fun (g : Group) => { g with trap := { g.trap with divergePending := false, divergeAddr := 0 } }
      match g.divergeBundle with
      | some (m, pc) =>
        (s.modGroup gi (fun g => (clear g).modLanes m (fun _ t => { t with wait := .none, pc := pc }))).takeStop gi m (st m) pc []
      | none =>
        match g.choose with
        | none => s
        | some w =>
          if (g.runOn w.mask).isSome then s.endRunOn gi w.mask
          else (s.modGroup gi clear).takeStop gi w.mask (st w.mask) w.pc (if w.entry.isSome then g.pendingEntries w.mask else [])

/-- The divergence trap at a member (21 R510). -/
def execIterationDivergedTrap (g : Nat) (s : State) : Host.Outcome State Fault Refusal := .next (s.takeDiverge g)

/-! ### The instructions -/

/-- `mma` (11 R315, R316). The arrival is the instruction's; the rendezvous and the completion do the rest. -/
def execMma (d : BitVec 8) (a b : BitVec 6) (sw : Bool) (s : State) : Host.Outcome State Fault Refusal := issue (mxOp 0 b a d sw) s
/-- `mma.z` (11 R315, R316). -/
def execMmaZ (d : BitVec 8) (a b : BitVec 6) (sw : Bool) (s : State) : Host.Outcome State Fault Refusal := issue (mxOp 1 b a d sw) s
/-- `mma.s` (11 R317). -/
def execMmaS (d : BitVec 8) (b : BitVec 6) (sw : Bool) (s : State) : Host.Outcome State Fault Refusal := issue (mxOp 2 b 0 d sw) s
/-- `mma.f` (11 R318). -/
def execMmaF (d : BitVec 8) (b : BitVec 6) (sw : Bool) (s : State) : Host.Outcome State Fault Refusal := issue (mxOp 3 b 0 d sw) s
/-- `mpoly` (11 R319, R320). -/
def execMpoly (d : BitVec 8) (sw : Bool) (s : State) : Host.Outcome State Fault Refusal := issue (mxOp 4 0 0 d sw) s
/-- `miter` (11 R319, R321). -/
def execMiter (d : BitVec 8) (sw : Bool) (s : State) : Host.Outcome State Fault Refusal := issue (mxOp 5 0 0 d sw) s
/-- `acc.zero` (11 R325). -/
def execAccZero (d : BitVec 8) (sw : Bool) (s : State) : Host.Outcome State Fault Refusal := issue (mxOp 6 0 0 d sw) s
/-- `acc.scale` (11 R325). -/
def execAccScale (d : BitVec 8) (sw : Bool) (s : State) : Host.Outcome State Fault Refusal := issue (mxOp 7 0 0 d sw) s
/-- `acc.add` (11 R325). -/
def execAccAdd (d : BitVec 8) (sw : Bool) (s : State) : Host.Outcome State Fault Refusal := issue (mxOp 8 0 0 d sw) s
/-- `acc.tr` (11 R325). -/
def execAccTr (d : BitVec 8) (sw : Bool) (s : State) : Host.Outcome State Fault Refusal := issue (mxOp 9 0 0 d sw) s
/-- `acc.norm` (11 R325). -/
def execAccNorm (d : BitVec 8) (sw : Bool) (s : State) : Host.Outcome State Fault Refusal := issue (mxOp 10 0 0 d sw) s
/-- `acc.out` (11 R325). -/
def execAccOut (d : BitVec 8) (sw : Bool) (s : State) : Host.Outcome State Fault Refusal := issue (mxOp 11 0 0 d sw) s
/-- `acc.in` (11 R325). -/
def execAccIn (d : BitVec 8) (sw : Bool) (s : State) : Host.Outcome State Fault Refusal := issue (mxOp 12 0 0 d sw) s

/-! ### Coefficient registers (11 R310, R324) -/

/-- An `acc.scale`, `mpoly` or `miter` of the group's gang is in flight. -/
def State.coefficientsBusy (s : State) (gi : Nat) : Bool :=
  s.mxops.any (fun e => e.2.running && e.2.members.contains gi && [4, 5, 7].contains e.2.desc.fn)

/-- `kset` (11 R324). -/
def execKset (k : BitVec 4) (a : BitVec 8) (sw : Bool) (s : State) : Host.Outcome State Fault Refusal :=
  issue
    { use := { ssrc := [a.toNat], kdst := [k.toNat] }, sw := sw
      checks := fun _ _ sel g => [operandStop g sel.mask { ssrc := [a.toNat] }]
      instead := fun s is sel _ => if s.coefficientsBusy sel.g then some (s.holdBack is sel 6) else none
      effect := fun is sel _ => onGroup (fun g => g.setK k.toNat (lowWord (uniSrc is g a 0))) sel } s

/-- `kget` (11 R324). -/
def execKget (d : BitVec 8) (k : BitVec 4) (sw : Bool) (s : State) : Host.Outcome State Fault Refusal :=
  issue
    { use := { sdst := [d.toNat], ksrc := [k.toNat] }, sw := sw, checks := fun _ _ sel g => [operandStop g sel.mask { sdst := [d.toNat] }]
      effect := fun _ sel _ => onGroup (fun g => (g.setS d.toNat (zext 64 (g.kget k.toNat))).noteSplit sel.bundle) sel } s

end Sys2Proof.Machine
end

