-- ==== Sys2Proof/Machine/Acc.lean ====
section
/-! DEFINITION. Register access to slabs: `acc.ld` and `acc.st` (11 R326, R309, 21 R506, R507). -/
namespace Sys2Proof.Machine

/-- Registers of a form: 16 words, or 8 packed ones. -/
def accRegs (f : BitVec 3) : Nat := if f = 0 then 16 else 8

/-- The granule of the slab store a thread addresses: 16 words from 256 q + 16 (L mod 16). -/
def accGranule (slab : BitVec 9) (q : BitVec 2) (L : Nat) : Nat := 64 * slab.toNat + 16 * q.toNat + L % 16

/-- The slab lies within the block's slabs. -/
def slabStop (s : State) (slab : BitVec 9) (sel : Sel) (g : Group) : Option Stop :=
  if s.slabsOf g.place.blk ≤ slab.toNat then some (illegal sel.mask 4 slab.toNat) else none

/-- The checks before any poison: slab, run, hazard. -/
def accChecks (u : Use) (slab : BitVec 9) (s : State) (sel : Sel) (g : Group) : List (Option Stop) :=
  [slabStop s slab sel g, operandStop g sel.mask u, hazardStop g sel.bundle u]

/-- An operation in flight has not finished with the slab (11 R309): one that writes it, or, for a store, one that reads it too. -/
def State.slabBusy (s : State) (g : Group) (slab : Nat) (store : Bool) : Bool :=
  s.mxops.any (fun e => e.2.running && e.2.blk == g.place.blk && e.2.part == g.place.bpart
    && (inRanges slab e.2.slabsWritten || (store && inRanges slab e.2.slabsOf)))

/-- Wait for the slab. -/
def accWait (slab : BitVec 9) (store : Bool) (s : State) (is : Issue) (sel : Sel) (g : Group) : Option State :=
  if s.slabBusy g slab.toNat store then some (s.holdBack is sel) else none

/-- Active threads that read a poisoned granule. -/
def State.accPoisoned (s : State) (slab : BitVec 9) (q : BitVec 2) (sel : Sel) (g : Group) : List Nat :=
  match s.blockPart g.place.blk g.place.bpart with
  | none => []
  | some p => (maskList sel.mask).filter (fun L => p.slabPoison.contains (accGranule slab q L))

/-- The poisoned accumulator word (21 R506, 18 R434): the lowest such word. -/
def accPoisonStop (s : State) (slab : BitVec 9) (q : BitVec 2) (sel : Sel) (g : Group) : Option Stop :=
  if s.slabBusy g slab.toNat false then none
  else
    match leastOf ((s.accPoisoned slab q sel g).map (fun L => 256 * q.toNat + 16 * (L % 16))) with
    | none => none
    | some w => some { code := 0x1201, mask := maskOf (s.accPoisoned slab q sel g), addr := 0#45 ++ BitVec.ofNat 10 w ++ slab }

/-- The error check of the words a group reads, once nothing stops or delays it (21 R505). -/
def accErrors (u : Use) (slab : BitVec 9) (q : BitVec 2) (s : State) (sel : Sel) : State :=
  match s.group sel.g with
  | none => s
  | some g =>
    if (firstStop (accChecks u slab s sel g)).isSome || s.slabBusy g slab.toNat false then s
    else (maskList sel.mask).foldl (fun s L =>
      s.checkSlabs g.place.ctx g.place.blk g.place.bpart g.place.core (16 * accGranule slab q L) (16 * accGranule slab q L + 16)) s

/-- Words of a thread's granule. -/
def State.accWords (s : State) (g : Group) (slab : BitVec 9) (q : BitVec 2) (L : Nat) : List Word32 :=
  match s.blockPart g.place.blk g.place.bpart with
  | none => []
  | some p => (List.range 16).map (fun m => Assoc.get (16 * accGranule slab q L + m) p.slabs)

/-- One accumulator word rounded to a 16-bit format. -/
def toHalf (f : BitVec 3) (x : Word32) : BitVec 16 := BitVec.ofNat 16 ((if f = 1 then bf16 else f16).round .rn (valOf x))

/-- A 16-bit code as an exact binary32 word. -/
def fromHalf (f : BitVec 3) (x : BitVec 16) : Word32 := w32 (f32.round .rn ((if f = 1 then bf16 else f16).decode x.toNat))

/-- The registers `acc.ld` writes from sixteen words. -/
def accPack (f : BitVec 3) (ws : List Word32) : List Word32 :=
  if f = 0 then ws else (List.range 8).map (fun m => toHalf f (ws.getD (2 * m + 1) 0) ++ toHalf f (ws.getD (2 * m) 0))

/-- The sixteen words `acc.st` stores from its registers. -/
def accUnpack (f : BitVec 3) (rs : List Word32) : List Word32 :=
  if f = 0 then rs else rs.flatMap (fun r => [fromHalf f (field 0 16 r), fromHalf f (field 16 16 r)])

/-- `acc.ld` (11 R326). -/
def accLdEffect (v : BitVec 6) (slab : BitVec 9) (q : BitVec 2) (f : BitVec 3) (sw : Bool) (is : Issue) (sel : Sel) (e : ReplayEntry) (s : State) :
    State × Option LaneStop :=
  match s.group sel.g with
  | none => (s, none)
  | some g =>
    let ws := (maskList sel.mask).flatMap (fun L => laneLoad v.toNat (accPack f (s.accWords g slab q L)) L false false)
    let o : Outstanding := { id := g.flow.nextId, kind := .matrix, entry := e, bundle := sel.bundle, writes := ws, sw := sw, replay := is.replay.isSome }
    ((s.modGroup sel.g (fun g => g.putOutstanding o)).later 16 (.vectorWriteback sel.g g.flow.nextId 0), none)

/-- `acc.ld`: its ordering against MX operations is that of 11 R309. -/
def execAccLd (v : BitVec 6) (slab : BitVec 9) (q : BitVec 2) (f : BitVec 3) (sw : Bool) (s : State) : Host.Outcome State Fault Refusal :=
  let u : Use := { vdst := [(v.toNat, accRegs f)] }
  let s := match s.issue with
    | some is => is.sels.foldl (accErrors u slab q) s
    | none => s
  issue
    { use := u, sw := sw
      checks := fun s _ sel g => accChecks u slab s sel g ++ [accPoisonStop s slab q sel g]
      instead := accWait slab false
      effect := accLdEffect v slab q f sw } s

/-- One thread's store: sixteen words and the poison of its granule (21 R507). -/
def BlockPart.accStore (p : BlockPart) (gr : Nat) (ws : List Word32) (poison : Bool) : BlockPart :=
  { p with slabs := spliceWords (16 * gr) ws p.slabs
           slabPoison := (p.slabPoison.filter (fun x => x != gr)) ++ (if poison then [gr] else [])
           slabErr := p.slabErr.filter (fun e => e.1 / 16 != gr) }

/-- The poison of the registers a thread stores. -/
def Group.runPoison (g : Group) (v : BitVec 6) (f : BitVec 3) (L : Nat) : Bool :=
  (List.range (accRegs f)).any (fun m => (g.thread L).poison.getLsbD (v.toNat + m))

/-- `acc.st` (11 R326): in ascending thread index, so that the highest wins. -/
def accStEffect (u : Use) (v : BitVec 6) (slab : BitVec 9) (q : BitVec 2) (f : BitVec 3) (is : Issue) (sel : Sel) (_ : ReplayEntry) (s : State) :
    State × Option LaneStop :=
  match s.group sel.g with
  | none => (s, none)
  | some g =>
    ((maskList sel.mask).foldl (fun s L =>
      s.modBlk g.place.blk (fun b => b.modPart g.place.bpart (fun p =>
        p.accStore (accGranule slab q L) (accUnpack f (g.gather u is.replay L).v) (g.runPoison v f L)))) s, none)

/-- `acc.st`. -/
def execAccSt (v : BitVec 6) (slab : BitVec 9) (q : BitVec 2) (f : BitVec 3) (sw : Bool) (s : State) : Host.Outcome State Fault Refusal :=
  let u : Use := { vsrc := [{ reg := v.toNat, cnt := accRegs f }] }
  issue
    { use := u, sw := sw
      checks := fun s _ sel g => accChecks u slab s sel g
      instead := accWait slab true
      effect := accStEffect u v slab q f } s

end Sys2Proof.Machine
end

