-- ==== Sys2Proof/Machine/Copy.lean ====
section
/-! DEFINITION. The copy engine: records, the request queue and the channels (12 R331-R339, 20 R478-R480, 03 R108, 04 R148-R150). -/
namespace Sys2Proof.Machine

/-! ### Records (12 R331) -/

namespace CopyRecord
def kind (r : CopyRecord) : Nat := (field 0 4 r.w0).toNat
def pin (r : CopyRecord) : Nat := (field 4 3 r.w0).toNat
def steal (r : CopyRecord) : Bool := bit r.w0 7
def rows (r : CopyRecord) : Nat := (field 8 16 r.w0).toNat
def rowBytes (r : CopyRecord) : Nat := (field 24 16 r.w0).toNat
def bar (r : CopyRecord) : Nat := (field 40 14 r.w0).toNat
def scales (r : CopyRecord) : Bool := bit r.w0 54
def hasCounter (r : CopyRecord) : Bool := bit r.w3 63
def counter (r : CopyRecord) : BitVec 12 := field 32 12 r.w3
def srcStride (r : CopyRecord) : Nat := (field 0 32 r.w3).toNat
/-- Destination stride: ROWBYTES when W3 names a counter. -/
def dstStride (r : CopyRecord) : Nat := if r.hasCounter then r.rowBytes else (field 32 32 r.w3).toNat
/-- Bytes the record moves, and those not yet delivered. -/
def total (r : CopyRecord) : Nat := r.rows * r.rowBytes
def left (r : CopyRecord) : Nat := r.total - (r.row * r.rowBytes + r.col)
/-- Bytes of the current segment (12 R332). -/
def segment (r : CopyRecord) : Nat := min 256 (r.rowBytes - r.col)
end CopyRecord

/-- Scratchpad form (12 R331). -/
def scratchForm (a : Word64) : Bool := field 60 4 a == 2 && field 22 38 a == 0

/-- A global pointer plus an offset: bits [63:56] stay. -/
def plusPtr (p : Word64) (off : Nat) : Word64 := field 56 8 p ++ (field 0 56 p + BitVec.ofNat 56 off)

/-- The scratchpad location of a record's address, resolved from the core of the kick; none outside the allocation (03 R92). -/
def State.copySpot (s : State) (r : CopyRecord) (a : Word64) (off size : Nat) : Option Spot :=
  match s.blk r.blk with
  | none => none
  | some b =>
    let n := (field 20 2 a).toNat
    let o := (field 0 20 a).toNat + off
    if b.parts.length ≤ n || decide (4096 * s.unitsOf r.blk < o + size) then none
    else (namedPart r.part b.parts.length n).map (fun p => { part := p, off := o })

/-- The index word of row i of a gather. -/
def State.gatherIndex (s : State) (r : CopyRecord) (i : Nat) : Nat := s.readScratch r.blk { part := r.part, off := r.srcStride + 4 * i } 4

/-- Byte offset of a source row from W1 (12 R332). -/
def State.srcOffset (s : State) (r : CopyRecord) (i : Nat) : Nat :=
  if r.kind = 0 then i * r.rowBytes else if r.kind = 2 then s.gatherIndex r i * r.rowBytes else i * r.srcStride

/-- Byte offset of a destination row from W2. -/
def CopyRecord.dstOffset (r : CopyRecord) (i : Nat) : Nat := if r.kind = 0 ∨ r.kind = 2 then i * r.rowBytes else i * r.dstStride

/-! ### The check of a record (12 R334) -/

/-- An address is a global pointer or in scratchpad form. -/
def addressOk (a : Word64) : Bool := scratchForm a || pointerForm a

/-- Rows of one side that lie in scratchpad are within the allocation. -/
def State.rowsFit (s : State) (r : CopyRecord) (a : Word64) (off : Nat → Nat) : Bool :=
  !scratchForm a || (List.range r.rows).all (fun i => (s.copySpot r a (off i) r.rowBytes).isSome)

/-- Zero fields, ROWS and ROWBYTES. -/
def CopyRecord.fieldsOk (r : CopyRecord) : Bool :=
  r.kind ≤ 5 && field 55 9 r.w0 == 0 && r.rows != 0 && r.rowBytes != 0 && (!r.hasCounter || field 44 19 r.w3 == 0)

/-- The further conditions of 12 R332. The index list of a gather lies in the allocation (DESIGN CHOICE, log 109). -/
def State.copyConditions (s : State) (r : CopyRecord) : Bool :=
  if r.kind = 0 then r.w3 == 0 || (r.hasCounter && field 0 32 r.w3 == 0)
  else if r.kind = 2 then r.srcStride % 4 == 0 && decide (r.srcStride + 4 * r.rows ≤ 4096 * s.unitsOf r.blk)
  else if r.kind = 3 then scratchForm r.w1 && field 20 2 r.w1 != 0 && scratchForm r.w2 && field 20 2 r.w2 == 0
  else if 4 ≤ r.kind then !scratchForm r.w2 && r.rowBytes % 4 == 0 && r.w1.toNat % 4 == 0 && r.w2.toNat % 4 == 0
  else true

/-- BAR names no object, or a byte-count object of the block. -/
def State.copyBarOk (s : State) (r : CopyRecord) : Bool :=
  r.bar == 0x3FFF || (decide (r.bar < ((s.manifestOf r.blk).map (·.objects)).getD 0)
    && bit (s.readBar r.blk { part := r.part, off := 32 * r.bar }).control 1)

/-- The check of a record. -/
def State.copyOk (s : State) (r : CopyRecord) : Bool :=
  r.fieldsOk && addressOk r.w1 && addressOk r.w2 && s.copyConditions r && s.rowsFit r r.w1 (s.srcOffset r) && s.rowsFit r r.w2 r.dstOffset
    && s.copyBarOk r

/-! ### Credits (12 R333, 20 R478, R480) -/

/-- Flags of a status word that a credit sets, as bit numbers of ACC. -/
def rejectedBit : Nat := 20
def revokedBit : Nat := 21
def faultedBit : Nat := 22
def poisonedBit : Nat := 23

/-- ACC with bytes counted, with the flags of a condition, and with one more operation when the segment is the last. -/
def creditAcc (acc : Word64) (b : Nat) (flag : Option Nat) (last : Bool) : Word64 :=
  let bytes := min ((field 32 32 acc).toNat + b) (2 ^ 32 - 1)
  let ops := (field 12 4 acc).toNat
  let ops := if last then min (ops + 1) 15 else ops
  let acc : Word64 := BitVec.ofNat 32 bytes ++ field 16 16 acc ++ BitVec.ofNat 4 ops ++ field 0 12 acc
  match flag with
  | some f => setBit acc f true
  | none => acc

/-- Credit bytes to the record's object. -/
def State.credit (s : State) (r : CopyRecord) (b : Nat) (flag : Option Nat) (last : Bool) : State :=
  if r.bar = 0x3FFF then s
  else
    let p : Spot := { part := r.part, off := 32 * r.bar }
    let o := s.readBar r.blk p
    let time := s.timeOf (channelAgent r.chCore r.ch)
    if o.pending < b then
      (s.updateBar r.blk p ({ o with acc := setBit (creditAcc o.acc b flag false) 24 true, pending := 0 } : BarObj).flip time).report
        { code := 0x8702, path := corePath r.chCore 7 r.ch, ctx := BitVec.ofNat 16 r.ctx, slice := s.homeSlice r.ctx,
          detail := detail4 (BitVec.ofNat 64 p.off) (BitVec.ofNat 64 (b - o.pending)) 0 0 }
    else s.updateBar r.blk p (({ o with acc := creditAcc o.acc b flag last } : BarObj).take b) time

/-! ### The queue and the channels (12 R335, R336) -/

/-- Change a record. -/
def State.modCopy (s : State) (k : Nat) (f : CopyRecord → CopyRecord) : State := { s with copies := Tab.modify k f s.copies }

/-- Records that count against a core's request queue. -/
def State.queuedOn (s : State) (core : Nat) : Nat := (s.copies.filter (fun e => e.2.core == core)).length

/-- Records of a channel. -/
def State.onChannel (s : State) (core ch : Nat) : List (Nat × CopyRecord) := s.copies.filter (fun e => e.2.chCore == core && e.2.ch == ch)

/-- The channel with the fewest records, the lowest number first. -/
def State.shortest (s : State) (core : Nat) : Nat :=
  (List.range 8).foldl (fun b c => if (s.onChannel core c).length < (s.onChannel core b).length then c else b) 0

/-- The record's object counts it as an engine operation (02 R70). -/
def State.countsOn (s : State) (r : CopyRecord) : Bool :=
  r.bar != 0x3FFF && decide (r.bar < ((s.manifestOf r.blk).map (·.objects)).getD 0)

/-- The channels with an empty queue of the other cores of the cluster (12 R336). -/
def State.idleChannels (s : State) (core : Nat) : List (Nat × Nat) :=
  (coresFrom (core / 4 * 4) 4).flatMap (fun c =>
    if c = core then [] else ((List.range 8).filter (fun ch => (s.onChannel c ch).isEmpty)).map (fun ch => (c, ch)))

/-- Append a record to a channel of its core; its object gains an engine operation (02 R70). A stealable record that finds its channel busy is offered to the
idle channels of the cluster. -/
def State.enqueue (s : State) (r : CopyRecord) : State :=
  let ch := if r.steal then s.shortest r.core else r.pin
  let k := Tab.fresh s.copies
  let s := { s with copies := Tab.put k { r with chCore := r.core, ch := ch } s.copies }
  let s := if s.countsOn r then s.engineStart r.blk r.part r.bar else s
  let busy := decide (1 < (s.onChannel r.core ch).length)
  s.push (.copyRecordStart r.core ch :: if busy && r.steal then (s.idleChannels r.core).map (fun c => .copyRecordStart c.1 c.2) else [])

/-- `cpy.wp` of the channel, for the block's part on the channel's core (12 R337). -/
def State.noteProgress (s : State) (r : CopyRecord) (done : Bool) : State :=
  s.modBlk r.blk (fun b => { b with parts := b.parts.map (fun p =>
    if p.core = r.chCore then { p with wp := Assoc.set r.ch (ofBool 1 done ++ 0#9 ++ r.name ++ BitVec.ofNat 32 r.delivered) p.wp } else p) })

/-- Wake the threads that wait for room on a core. -/
def State.roomOn (s : State) (core : Nat) : State := (s.wakeGate core).retryCore core

/-- A record is gone from the queue: its operation ends, its counter is signalled, the channel goes on. -/
def State.endRecord (s : State) (k : Nat) (r : CopyRecord) : State :=
  let s := { s with copies := Tab.del k s.copies }
  let s := if s.countsOn r then s.engineEnd r.blk r.part r.bar else s
  let s := if r.hasCounter then s.push [.counterSignal r.ctx r.counter] else s
  (s.roomOn r.core).push [.copyRecordStart r.chCore r.ch, .blockEnd r.blk]

/-- The record ends before its last byte: what is not delivered is credited with a flag (20 R479). -/
def State.abortRecord (s : State) (k : Nat) (r : CopyRecord) (flag : Nat) : State :=
  ((s.credit r r.left (some flag) true).noteProgress { r with delivered := r.delivered } true).endRecord k r

/-- The record of a rejected or revoked record: its scratchpad address, or its global address in the waybill (12 R334, R338). -/
def copyLog (s : State) (r : CopyRecord) (code : BitVec 16) (a : Word64) : Report :=
  { code := code, path := corePath r.chCore 7 r.ch, ctx := BitVec.ofNat 16 r.ctx, slice := s.homeSlice r.ctx, detail := detail4 a 0 0 0 }

/-- The address a record is known by. -/
def CopyRecord.place (r : CopyRecord) : Word64 := if bit r.name 0 then r.at_ else zext 64 r.name

/-- A malformed record: no access; a valid byte-count object is credited (12 R334). -/
def State.rejectRecord (s : State) (k : Nat) (r : CopyRecord) : State :=
  let s := s.report (copyLog s r 0x8701 r.place)
  if s.copyBarOk r then s.abortRecord k r rejectedBit else (s.noteProgress r true).endRecord k r

/-- The record a channel takes: its own oldest, else the oldest stealable one queued at another core of the cluster; none that `cpy.cancel` is withdrawing. -/
def State.nextRecord (s : State) (core ch : Nat) : Option (Nat × CopyRecord) :=
  if (s.onChannel core ch).any (·.2.active) then none
  else if (s.onChannel core ch).isEmpty then
    s.copies.find? (fun e => !e.2.active && e.2.steal && e.2.cancel == 0 && e.2.chCore != core && clusterOfCore e.2.chCore == clusterOfCore core)
  else (s.onChannel core ch).find? (fun e => e.2.cancel == 0)

/-- A channel takes its next record and checks it (12 R334, R336); its clock follows the kick (05 R178). -/
def execCopyRecordStart (core : Nat) (ch : Nat) (s : State) : Host.Outcome State Fault Refusal :=
  match s.nextRecord core ch with
  | none => .next s
  | some (k, r) =>
    let r := { r with chCore := core, ch := ch, active := true }
    let s := ({ s with copies := Tab.put k r s.copies }).message r.core (channelAgent core ch)
    if !s.copyOk r then .next (s.rejectRecord k r)
    else .next ((s.noteProgress r false).push [.copySegmentCredit core ch])

/-! ### One segment (12 R332, 20 R479) -/

/-- A piece of a segment: bytes from an offset of the segment that lie in one 64-byte sector, with their pointer. -/
abbrev Piece := Nat × Nat × Word64

/-- Cut `n` bytes from a pointer at 64-byte boundaries. -/
def piecesFrom (p : Word64) : Nat → Nat → Nat → List Piece
  | 0, _, _ => []
  | fuel + 1, off, n =>
    if n = 0 then []
    else
      let q := plusPtr p off
      let len := min n (64 - q.toNat % 64)
      (off, len, q) :: piecesFrom p fuel (off + len) (n - len)

/-- Pieces of `n` bytes. -/
def pieces (p : Word64) (n : Nat) : List Piece := piecesFrom p 6 0 n

/-- A piece that passed its checks: offset, bytes, physical address, and the HOME and PINCORE of its page. -/
structure Landed where
  off : Nat
  len : Nat
  pa : Nat
  home : BitVec 2 := 0
  pin : Nat := 0
deriving DecidableEq, Repr

/-- A piece at the physical address that its leaf gives. -/
def landed (p : Piece) (pa : Nat) (l : Leaf) : Landed := { off := p.1, len := p.2.1, pa := pa, home := pteHome l.entry, pin := ptePin l.entry }

/-- What stops a segment. -/
structure CopyStop where
  code : BitVec 16
  ptr : Word64
  pa : Nat := 0
deriving DecidableEq, Repr

/-- The error check of a channel's read. -/
def State.copyEcc (s : State) (ctx pa : Nat) (ptr : Word64) : State :=
  match s.storedError pa with
  | some e => s.decodeSector ctx 0 pa ptr e false
  | none => s

/-- Translate and check the pieces of one side. -/
def State.landPieces (s : State) (core ctx : Nat) (need : Need) : List Piece → State × (CopyStop ⊕ List Landed)
  | [] => (s, .inr [])
  | p :: ps =>
    match s.translate core ctx (virtOf p.2.2) need with
    | (s, .error f) => (s, .inl { code := f.code ||| 0x0700, ptr := p.2.2 })
    | (s, .ok (pa, l)) =>
      let s := s.copyEcc ctx pa p.2.2
      if s.tagMismatch pa p.2.2 l then (s, .inl { code := 0x3603, ptr := p.2.2, pa := pa })
      else
        match s.landPieces core ctx need ps with
        | (s, .inr ls) => (s, .inr (landed p pa l :: ls))
        | (s, .inl c) => (s, .inl c)

/-- Bytes of a source with the poison of each. -/
abbrev CopyData := List (Nat × Bool)

/-- Bytes of a landed piece; those of a peer are free. -/
def State.pieceData (s : State) (l : Landed) : CopyData :=
  (List.range l.len).map (fun i =>
    if regionOf l.pa = 2 then ((Config.freeWord (s.free + l.off + i)).toNat % 256, false)
    else ((s.byteAt (l.pa + i)).toNat, s.poisonedAt l.pa || (regionOf l.pa == 1 && !s.cxlUp)))

/-- Bytes of a scratchpad source: those of a word with an uncorrected error are poisoned. -/
def State.scratchData (s : State) (r : CopyRecord) (p : Spot) (n : Nat) : State × CopyData :=
  let bad := (s.scratchErrors r.blk p n).filter (fun e => !e.2)
  ((s.checkScratch r.ctx r.blk p n).1,
   (List.range n).map (fun i => (s.readScratch r.blk { p with off := p.off + i } 1, bad.any (fun e => e.1 == (p.off + i) / 4))))

/-- Value of bytes, the first lowest. -/
def dataValue (d : CopyData) : Nat := d.foldr (fun b a => b.1 + 256 * a) 0

/-- The sums of the destination's words and the source's, with the poison of the source (12 R332, 04 R150): a word may lie in two pieces. -/
def State.sumData (s : State) (bf : Bool) (d : CopyData) (l : List Landed) : CopyData :=
  let old := (l.flatMap s.pieceData).map Prod.fst
  d.zipIdx.map (fun (e : (Nat × Bool) × Nat) =>
    let i := e.2 / 4 * 4
    let x := BitVec.ofNat 32 (dataValue ((d.drop i).take 4))
    let y := BitVec.ofNat 32 (dataValue (((old.drop i).take 4).map (fun b => (b, false))))
    let z := if bf then halves (fun x y => bf16.addCode x y) y x else fadd y x
    (z.toNat / 256 ^ (e.2 % 4) % 256, e.1.2))

/-- The agent that writes a record's destination: the channel, or for an addition the reduction unit of the home slice (01 R13, 04 R150). -/
def CopyRecord.writer (r : CopyRecord) (pa : Nat) : Nat := if 4 ≤ r.kind then reductionAgent (homeSliceOf pa) else channelAgent r.chCore r.ch

/-- Write a piece of a destination (03 R108): poisoned source bytes poison its sector; POISONED also for a contained line (20 R479). It enters the kicking
core's written-line sets (05 R176). The channel owns a line while the segment runs, and with `keep` while it waits for a peer (DEDUCED, log 110). -/
def State.putPiece (s : State) (r : CopyRecord) (keep : Bool) (l : Landed) (d : CopyData) : State × Bool :=
  let d := (d.drop l.off).take l.len
  let k := sectorOf l.pa
  if regionOf l.pa = 2 then (s, d.any (·.2))
  else
    let write := fun (s : State) =>
      let s := (s.showCode l.pa l.len).writeMem l.pa l.len (dataValue d)
      if d.any (·.2) then s.modSector k (fun t => { t with poison := true }) else s
    let agent := r.writer l.pa
    let s := s.message (channelAgent r.chCore r.ch) (homeAgent k)
    let s := if keep then s.agentKeeps agent l.pa l.home l.pin write else s.agentWrite agent l.pa l.home l.pin write
    ((s.message (homeAgent k) (channelAgent r.chCore r.ch)).engineWrote r.core l.pa, d.any (·.2) || (s.containedAt l.pa).isSome)

/-- An engine owns a sector that the segment is about to write: the directory grants it once that one has finished (03 R108). -/
def State.destBusy (s : State) (_ : CopyRecord) (l : List Landed) : Bool := l.any (fun x => s.engineOwns (sectorOf x.pa))

/-- The sectors of a segment's pieces at their homes. -/
def keptSectors (l : List Landed) : List Nat := ((l.filter (fun x => regionOf x.pa != 2)).map (fun x => sectorOf x.pa)).eraseDups

/-- The engines give back the sectors that a segment has kept: the accesses that wait for them go on (03 R108). -/
def State.releaseKept (s : State) (ks : List Nat) : State :=
  if ks.isEmpty then s
  else
    let s := ks.foldl (fun s k => match s.sectorOwner k with
      | some a => if isEngine a then s.returnAgent a k else s
      | none => s) s
    let s := { s with groups := s.groups.map (fun (e : Nat × Group) => (e.1, e.2.wakeTurned)) }
    s.push ((s.copies.filter (fun (e : Nat × CopyRecord) => e.2.active)).map (fun (e : Nat × CopyRecord) => .copySegmentCredit e.2.chCore e.2.ch))

/-- Write the pieces of a destination. -/
def State.putPieces (s : State) (r : CopyRecord) (keep : Bool) (d : CopyData) : List Landed → State × Bool
  | [] => (s, false)
  | l :: ls =>
    let a := s.putPiece r keep l d
    let b := a.1.putPieces r keep d ls
    (b.1, a.2 || b.2)

/-- Fill the scales of the blocks a source piece holds (06 R202). -/
def State.copyScales (s : State) (r : CopyRecord) (l : Landed) : State :=
  (s.windows.map Prod.snd).foldl (fun s w =>
    match w.blockBytes with
    | none => s
    | some B =>
      let lo := windowAddr w.base
      if w.serves r.ctx (field 8 8 w.ctl) && decide (lo ≤ l.pa) && decide (l.pa < windowAddr w.limit) then
        (List.range (l.len / B + 2)).foldl (fun s i =>
          let b := (l.pa - lo) / B + i
          if lo + B * b < l.pa + l.len then s.fillScale (channelAgent r.chCore r.ch) r.chCore r.ctx (field 8 8 w.ctl) b else s) s
      else s) s

/-- A record that `cpy.cancel` waits for has stopped: the instruction looks again (12 R339). -/
def State.cancelStep (s : State) (r : CopyRecord) : State := if r.cancel = 0 then s else (s.roomOn r.core).roomOn r.chCore

/-- Hold the record on a condition until a disposition is given (20 R479). -/
def State.suspendRecord (s : State) (k : Nat) (r : CopyRecord) (c : CopyStop) : State :=
  let base : Report :=
    if c.code = 0x3603 then memReport s r.ctx 0 0x3603 (64 * sectorOf c.pa) 2 (tagOf c.ptr) false
    else { code := c.code, slice := s.homeSlice r.ctx, detail := detail4 c.ptr r.place 0 0 }
  let rep := { base with path := corePath r.chCore 7 r.ch, ctx := BitVec.ofNat 16 r.ctx, auto := none }
  let key := s.nextKey rep.slice
  ((s.modCopy k (fun r => { r with held := true, heldKey := key })).report rep).cancelStep r

/-- A segment cannot be accessed: a revoked page ends the record, any other condition holds it. -/
def State.copyFault (s : State) (k : Nat) (r : CopyRecord) (c : CopyStop) : State :=
  if c.code = 0x2704 then
    (((s.report { (copyLog s r 0x2704 c.ptr) with detail := detail4 c.ptr r.place 0 0 }).report (copyLog s r 0x8703 r.place))).abortRecord k r revokedBit
  else s.suspendRecord k r c

/-- The segment is confirmed: credited, and the record advances or is complete (12 R333). -/
def State.creditSegment (s : State) (k : Nat) (r : CopyRecord) (poison : Bool) : State :=
  let b := r.segment
  let rowDone := r.col + b = r.rowBytes
  let r' := { r with delivered := r.delivered + b, row := if rowDone then r.row + 1 else r.row, col := if rowDone then 0 else r.col + b, remote := [],
                     cancel := if r.cancel = 0 then 0 else 2 }
  let last := r'.row = r.rows
  let s := (s.credit r b (if poison then some poisonedBit else none) last).noteProgress r' last
  if last then s.endRecord k r' else ({ s with copies := Tab.put k r' s.copies }).cancelStep r'

/-- The source bytes of a segment, from global memory or scratchpad. -/
def State.copySource (s : State) (r : CopyRecord) : State × (CopyStop ⊕ (CopyData × List Landed)) :=
  let off := s.srcOffset r r.row + r.col
  if scratchForm r.w1 then
    match s.copySpot r r.w1 off r.segment with
    | some p =>
      let d := s.scratchData r p r.segment
      (d.1, .inr (d.2, []))
    | none => (s, .inr ([], []))
  else
    match s.landPieces r.chCore r.ctx { read := true } (pieces (plusPtr r.w1 off) r.segment) with
    | (s, .inl c) => (s, .inl c)
    | (s, .inr l) =>
      let s := if r.scales then l.foldl (fun s x => s.copyScales r x) s else s
      (l.foldl (fun s x => if regionOf x.pa = 2 then s else s.agentRead (channelAgent r.chCore r.ch) x.pa x.home x.pin) s, .inr (l.flatMap s.pieceData, l))

/-- Write a segment to scratchpad: zero for the poisoned bytes (20 R479). -/
def State.putScratch (s : State) (r : CopyRecord) (d : CopyData) : State × Bool :=
  match s.copySpot r r.w2 (r.dstOffset r.row + r.col) r.segment with
  | some p => (((s.engineScratch r.blk p d.length).scratchWrote r.core r.blk p d.length).writeScratch r.blk p d.length (dataValue (d.map (fun b => if b.2 then (0, true) else b))), d.any (·.2))
  | none => (s, false)

/-- Pieces at a peer. -/
def peerPieces (l : List Landed) : List Landed := l.filter (fun x => regionOf x.pa == 2)

/-- The requests for the peers' pieces, each of at most 256 bytes between 256-byte boundaries (13 R383), by their lowest piece. -/
def peerRequests (l : List Landed) : List Landed :=
  (((peerPieces l).map (fun x => x.pa / 256)).eraseDups).filterMap (fun u => (peerPieces l).find? (fun x => x.pa / 256 == u))

/-- Send a segment's requests to peers; the record waits for them, and keeps the POISONED of the segment. -/
def State.requestSegment (s : State) (k : Nat) (r : CopyRecord) (poison : Bool) (l : List Landed) : State :=
  (peerRequests l).foldl (fun s x =>
    let id := s.nextId + 1
    (s.modCopy k (fun r => { r with remote := r.remote ++ [id] })).sendRemote (dieOfCore r.chCore) (peerOf x.pa) { host := false, g := r.g, mask := 0, ctx := r.ctx, pa := x.pa, ptr := r.w1, kind := 3 })
    ({ s with free := s.free + 256 }.modCopy k (fun x => { x with spoiled := poison }))

/-- The segment's bytes are there: credited at once, or once the peers have answered. -/
def State.afterSegment (s : State) (k : Nat) (r : CopyRecord) (poison : Bool) (l : List Landed) : State :=
  if (peerPieces l).isEmpty then s.creditSegment k r poison else s.requestSegment k r poison l

/-- Move one segment: its accesses perform, and it is credited at once, or once the peers have answered. It waits for a line that another engine owns. -/
def State.moveSegment (s : State) (k : Nat) (r : CopyRecord) : State :=
  match s.copySource r with
  | (s, .inl c) => s.copyFault k r c
  | (s, .inr (d, src)) =>
    if scratchForm r.w2 then
      let w := s.putScratch r d
      w.1.afterSegment k r w.2 src
    else
      match s.landPieces r.chCore r.ctx { write := true } (pieces (plusPtr r.w2 (r.dstOffset r.row + r.col)) r.segment) with
      | (s, .inl c) => s.copyFault k r c
      | (s, .inr l) =>
        if s.destBusy r l then s
        else
          let s := if (peerPieces (src ++ l)).isEmpty then s else s.modCopy k (fun x => { x with kept := keptSectors l })
          let w := s.putPieces r (!(peerPieces (src ++ l)).isEmpty) (if 4 ≤ r.kind then s.sumData (r.kind == 5) d l else d) l
          w.1.afterSegment k r w.2 (src ++ l)

/-- The record a channel is performing. -/
def State.activeOn (s : State) (core ch : Nat) : Option (Nat × CopyRecord) := (s.onChannel core ch).find? (fun e => e.2.active)

/-- After a segment: the channel goes on with the next one; a record of a block that is saved whole stops on a row boundary, or inside its last
row (02 R59). -/
def State.nextSegment (s : State) (k core ch : Nat) : State :=
  match Tab.get? k s.copies with
  | some r =>
    let stops := ((s.blk r.blk).map (·.savingWhole)).getD false && (r.col == 0 || r.row + 1 == r.rows)
    if r.held || !r.remote.isEmpty || r.cancel == 2 || stops then s else s.push [.copySegmentCredit core ch]
  | none => s

/-- A segment of the channel's record is moved and credited (12 R332, R333). -/
def execCopySegmentCredit (core : Nat) (ch : Nat) (s : State) : Host.Outcome State Fault Refusal :=
  match s.activeOn core ch with
  | none => .next s
  | some (k, r) => if r.held || !r.remote.isEmpty || r.cancel == 2 then .next s else .next ((s.moveSegment k r).nextSegment k core ch)

/-- A peer answered a request of a segment: with the last answer it is credited, or the record ends with FAULTED (20 R479), and its lines are given back. -/
def State.copyAnswered (s : State) (id : Nat) (failed : Bool) : State :=
  match s.copies.find? (fun e => e.2.remote.contains id) with
  | none => s
  | some (k, r) =>
    let r := { r with remote := r.remote.filter (fun x => x != id), failed := r.failed || failed }
    if !r.remote.isEmpty then s.modCopy k (fun _ => r)
    else
      let s := s.releaseKept r.kept
      let r' := { r with kept := [], spoiled := false }
      if r.failed then s.abortRecord k r' faultedBit
      else ((s.creditSegment k r' r.spoiled).nextSegment k r.chCore r.ch).roomOn r.core

/-! ### Kick, stage, watch, cancel -/

/-- A record read from scratchpad. -/
def State.scratchRecord (s : State) (gi : Nat) (g : Group) (a : Nat) : CopyRecord :=
  let w := fun i => BitVec.ofNat 64 (s.readScratch g.place.blk { part := g.place.bpart, off := a + 8 * i } 8)
  { w0 := w 0, w1 := w 1, w2 := w 2, w3 := w 3, name := BitVec.ofNat 22 a, g := gi, blk := g.place.blk, part := g.place.bpart, ctx := g.place.ctx,
    core := g.place.core, chCore := g.place.core, ch := 0 }

/-- A kick takes its records in ascending address order (12 R335). -/
def State.kick (s : State) (gi : Nat) (g : Group) (a n : Nat) : State :=
  (List.range n).foldl (fun s i => s.enqueue (s.scratchRecord gi g (a + 32 * i))) s

/-- The conditions of `cpy.kick` in the order of 18 R435. -/
def kickStops (d a : BitVec 8) (s : State) (is : Issue) (sel : Sel) (g : Group) : List (Option Stop) :=
  let p := uniSrc is g d 0
  let n := uniSrc is g a 1
  let x : Stop := { code := 0x1301, mask := sel.mask, addr := p }
  [operandStop g sel.mask { ssrc := [d.toNat, a.toNat] },
   if n = 0 ∨ 256 < n.toNat ∨ field 20 2 p ≠ 0 then some (illegal sel.mask 7 (n.toNat % 256)) else none,
   if p.toNat % 32 ≠ 0 then some { x with code := 0x1004 } else none,
   if field 22 42 p ≠ 0 ∨ 4096 * s.unitsOf g.place.blk < p.toNat + 32 * n.toNat then some x else none]

/-- `cpy.kick` (12 R335): a core-scope release that waits at the gate, and for room in the queue. -/
def execCpyKick (d a : BitVec 8) (sw : Bool) (s : State) : Host.Outcome State Fault Refusal :=
  issue
    { use := { ssrc := [d.toNat, a.toNat] }, sw := sw, mem := true, checks := kickStops d a
      effect := fun is sel e s =>
        match s.group sel.g with
        | none => (s, none)
        | some g =>
          let s := s.holdRelease g.place.core
            (heldOf s is sel g e sw 15 2 (.kick (uniSrc is g d 0).toNat (uniSrc is g a 1).toNat))
          (s.modGroup sel.g (fun g => g.modLanes (g.which (fun t => t.wait == .gate && t.waitOn == s.nextId - 1) &&& sel.bundle)
            (fun _ t => { t with wait := .copy })), none) } s

/-- The waybill of a block's launch. -/
def State.waybillOf (s : State) (b : Nat) : Word64 := ((s.manifestOf b).map (·.waybill)).getD 0

/-- A stage of the waybill's table: first record and count; none when the header cannot be read. -/
def State.stageEntry (s : State) (g : Group) (t : Nat) : Option (Nat × Nat × Nat) :=
  match s.readVirt (dieOfCore g.place.core) g.place.ctx (virtOf (s.waybillOf g.place.blk)) 128 with
  | .error _ => none
  | .ok x => some (bytesAt x 0 1, bytesAt x (64 + 4 * t) 2, bytesAt x (64 + 4 * t + 2) 2)

/-- Past the last stage (12 R338): no waybill, or as many stages released as its header counts. -/
def stageStop (s : State) (sel : Sel) (g : Group) : Option Stop :=
  let t := ((s.blk g.place.blk).map (·.stages)).getD 0
  if s.waybillOf g.place.blk = 0 || decide (16 ≤ t) then some (illegal sel.mask 7 t)
  else match s.stageEntry g t with
    | some (n, _, _) => if n ≤ t then some (illegal sel.mask 7 t) else none
    | none => none

/-- A record of the waybill: its global addresses are relative to s15 at block start; none when it cannot be read in full (12 R338). -/
def State.waybillRecord (s : State) (gi : Nat) (g : Group) (i : Nat) : Option CopyRecord :=
  let a := s.waybillOf g.place.blk + BitVec.ofNat 64 (128 + 32 * i)
  let s15 := (((s.blk g.place.blk).bind (fun b => Tab.get? b.launch s.launches)).map (fun l => l.params.getD 14 0)).getD 0
  let rel := fun (x : Word64) => if scratchForm x then x else x + s15
  match s.readVirt (dieOfCore g.place.core) g.place.ctx (virtOf a) 32 with
  | .error _ => none
  | .ok x =>
    let w := fun j => BitVec.ofNat 64 (bytesAt x (8 * j) 8)
    some { w0 := w 0, w1 := rel (w 1), w2 := rel (w 2), w3 := w 3, name := BitVec.ofNat 22 (1 + 32 * i), at_ := a, g := gi, blk := g.place.blk,
           part := g.place.bpart, ctx := g.place.ctx, core := g.place.core, chCore := g.place.core, ch := 0 }

/-- A record of a stage that cannot be read in full, or the header itself: 0x8701 with its address (12 R338). No channel has it; the path's number is 0 (DESIGN CHOICE,
log 102). -/
def State.unreadRecord (s : State) (g : Group) (a : Word64) : State :=
  s.report { code := 0x8701, path := corePath g.place.core 7 0, ctx := BitVec.ofNat 16 g.place.ctx, slice := s.homeSlice g.place.ctx, detail := detail4 a 0 0 0 }

/-- Records of a stage; the header itself unreadable counts as one unreadable record. -/
def State.stageCount (s : State) (g : Group) (t : Nat) : Nat :=
  match s.stageEntry g t with
  | some (_, _, c) => c
  | none => 1

/-- Release the block's next stage (12 R338). -/
def State.releaseStage (s : State) (gi : Nat) (g : Group) : State :=
  let t := ((s.blk g.place.blk).map (·.stages)).getD 0
  let s := s.modBlk g.place.blk (fun b => { b with stages := b.stages + 1 })
  match s.stageEntry g t with
  | some (_, first, c) => (List.range c).foldl (fun s i =>
      match s.waybillRecord gi g (first + i) with
      | some r => s.enqueue r
      | none => s.unreadRecord g (s.waybillOf g.place.blk + BitVec.ofNat 64 (128 + 32 * (first + i)))) s
  | none => s.unreadRecord g (s.waybillOf g.place.blk)

/-- `cpy.stage` (12 R338). -/
def execCpyStage (sw : Bool) (s : State) : Host.Outcome State Fault Refusal :=
  issue
    { use := {}, sw := sw, mem := true, checks := fun s _ sel g => [stageStop s sel g]
      effect := fun is sel e s =>
        match s.group sel.g with
        | none => (s, none)
        | some g =>
          let s := s.holdRelease g.place.core
            (heldOf s is sel g e sw 15 2 .stage)
          (s.modGroup sel.g (fun g => g.modLanes (g.which (fun t => t.wait == .gate && t.waitOn == s.nextId - 1) &&& sel.bundle)
            (fun _ t => { t with wait := .copy })), none) } s

/-- `cpy.wp` (12 R337): a block-scope acquire. -/
def execCpyWp (d : BitVec 8) (c : BitVec 3) (sw : Bool) (s : State) : Host.Outcome State Fault Refusal :=
  issue
    { use := { sdst := [d.toNat] }, sw := sw, mem := true, checks := fun _ _ sel g => [operandStop g sel.mask { sdst := [d.toNat] }]
      effect := fun _ sel _ s =>
        match s.group sel.g with
        | none => (s, none)
        | some g =>
          let x := ((s.blockPart g.place.blk g.place.bpart).map (fun p => Assoc.get c.toNat p.wp)).getD 0
          ((s.plainEvent sel.g g.place.core sel.mask 16 1 (s.classOf g 1)).modGroup sel.g (fun g => (g.setS d.toNat x).noteSplit sel.bundle), none) } s

/-- Records of a block in a core's request queue, stolen ones among them, and in its channels (12 R339). -/
def State.blockCopies (s : State) (b core : Nat) : List (Nat × CopyRecord) :=
  s.copies.filter (fun e => e.2.blk == b && (e.2.core == core || e.2.chCore == core))

/-- A record in flight finishes its segment (12 R339). -/
def State.finishSegment (s : State) (k : Nat) : State :=
  match Tab.get? k s.copies with
  | some r => if r.active && !r.held && r.remote.isEmpty then s.moveSegment k r else s
  | none => s

/-- Take a record out of the queue; its channel goes on. -/
def State.withdraw (s : State) (e : Nat × CopyRecord) : State :=
  ({ s with copies := Tab.del e.1 s.copies }).push (if e.2.active then [.copyRecordStart e.2.chCore e.2.ch] else [])

/-- No engine operation is outstanding on an object any more; the engine mark stays (02 R70). -/
def State.clearOps (s : State) (r : CopyRecord) : State :=
  if s.countsOn r then s.modBlk r.blk (fun k => k.modPart r.part (fun q => { q with bars := Tab.modify r.bar (fun m => { m with outstanding := 0 }) q.bars })) else s

/-- Withdraw every record of a block kicked on a core, as far as it has come; how many they are. -/
def State.cancelCopies (s : State) (b core : Nat) : State × Nat :=
  let l := s.blockCopies b core
  let s := l.foldl (fun s e => (s.withdraw e).clearOps e.2) s
  ((s.roomOn core).push [.blockEnd b], l.length)

/-- A record in flight whose current segment is not finished yet (12 R339). -/
def CopyRecord.inFlight (r : CopyRecord) : Bool := r.active && !r.held && r.cancel != 2

/-- The block's records go no further than their current segments. -/
def State.askCancel (s : State) (b core : Nat) : State :=
  (s.blockCopies b core).foldl (fun s e => s.modCopy e.1 (fun r => { r with cancel := max r.cancel 1 })) s

/-- `cpy.cancel` (12 R339): the bundle waits while a record in flight finishes its current segment. -/
def execCpyCancel (d : BitVec 8) (sw : Bool) (s : State) : Host.Outcome State Fault Refusal :=
  issue
    { use := { sdst := [d.toNat] }, sw := sw, checks := fun _ _ sel g => [operandStop g sel.mask { sdst := [d.toNat] }]
      instead := fun s is sel g =>
        if (s.blockCopies g.place.blk g.place.core).any (·.2.inFlight) then some ((s.askCancel g.place.blk g.place.core).holdBack is sel 7) else none
      effect := fun _ sel _ s =>
        match s.group sel.g with
        | none => (s, none)
        | some g =>
          let r := s.cancelCopies g.place.blk g.place.core
          (r.1.modGroup sel.g (fun g => (g.setS d.toNat (BitVec.ofNat 64 r.2)).noteSplit sel.bundle), none) } s

end Sys2Proof.Machine
end

