-- ==== Sys2Proof/Machine/Place.lean ====
section
/-! DEFINITION. Occupancy and placement (02 R50, R51, R55, R56, R63, R72, 15 R404): what fits where, the groups of a block at their start (02 R44), the
reservation of save records, and the distribution of a launch's blocks. -/
namespace Sys2Proof.Machine

/-! ### Rows and registers of a partition (02 R50, R51) -/

/-- The half-rows a group holds. -/
def Group.halves (g : Group) : List (Nat × Bool) :=
  if g.width = 8 then [(g.place.rows.headD 0, g.place.upper)] else g.place.rows.flatMap (fun r => [(r, false), (r, true)])

/-- Half-rows in use. -/
def halvesUsed (gs : List Group) : List (Nat × Bool) := gs.flatMap Group.halves

/-- Rows of which neither half is in use. -/
def freeRows (gs : List Group) : List Nat := (List.range Config.rows).filter (fun r => (halvesUsed gs).all (fun h => h.1 != r))

/-- The lowest free half-row, the lower half before the upper. -/
def freeHalf (gs : List Group) : Option (Nat × Bool) :=
  ((List.range Config.rows).flatMap (fun r => [(r, false), (r, true)])).find? (fun h => !(halvesUsed gs).contains h)

/-- Register words on every lane, and uniform registers, are within the limits of 02 R50. -/
def registersFit (gs : List Group) : Bool :=
  let x := (gs.map (fun g => g.place.xmax)).foldl max 0
  (List.range 16).all (fun l => decide (laneWordsUsed gs l + x ≤ Config.laneWords))
    && decide ((gs.map (fun g => g.place.ucount)).sum ≤ Config.partitionUniforms)

/-- A group takes its rows on a partition, if it fits beside the groups there. -/
def seatRows (gs : List Group) (g : Group) : Option Group :=
  if registersFit (g :: gs) then
    (if g.width = 8 then (freeHalf gs).map (fun h => { g with place := { g.place with rows := [h.1], upper := h.2 } })
     else
       let r := (freeRows gs).take (g.width / 16)
       if r.length = g.width / 16 then some { g with place := { g.place with rows := r, upper := false } } else none)
  else none

/-- Two groups of one part of a block are members of one gang, whichever of its members has named it (11 R302). -/
def State.sameGang (s : State) (g h : Group) : Bool :=
  s.groups.any (fun e => e.2.place.blk == g.place.blk && e.2.place.bpart == g.place.bpart && e.2.st != .ended
    && e.2.regs.gangIdx.contains g.place.gidx && e.2.regs.gangIdx.contains h.place.gidx)

/-- Groups that need partitions of their own: of the same gang-capable role of one block (02 R50), or members of one gang (11 R302). -/
def State.apart (s : State) (g h : Group) : Bool :=
  g.place.gangCapable && h.place.blk == g.place.blk && h.place.core == g.place.core && (h.place.role == g.place.role || s.sameGang g h)

/-- A group takes a partition of its core: the one with the fewest rows in use, the lowest number first (02 R51). -/
def State.seat (s : State) (occ : List Group) (g : Group) : Option Group :=
  let core := g.place.core
  let cands := (List.range Config.partitions).filterMap (fun p =>
    let on := occ.filter (fun h => h.place.core == core && h.place.part == p)
    if s.fenced.contains (16 * core + p) || on.any (s.apart g) then none
    else (seatRows on { g with place := { g.place with part := p } }).map (fun h => ((halvesUsed on).length, h)))
  (cands.foldl (fun b c => match b with
    | none => some c
    | some d => if c.1 < d.1 then some c else some d) none).map Prod.snd

/-- Every group of a list takes its place, in order; none when one finds none. -/
def State.seatAll (s : State) : List Group → List Group → Option (List Group)
  | _, [] => some []
  | occ, g :: gs =>
    match s.seat occ g with
    | none => none
    | some h => (s.seatAll (h :: occ) gs).map (fun l => h :: l)

/-! ### A core's other resources -/

/-- The block's scratchpad and slabs are held on its cores. -/
def Block.holdsStorage (b : Block) : Bool := b.st == .placing || b.st == .resident || b.st == .saving || b.st == .restoring

/-- The blocks that hold storage on a core. -/
def State.blocksOn (s : State) (core : Nat) : List (Nat × Block) := s.blks.filter (fun e => e.2.holdsStorage && e.2.parts.any (fun p => p.core == core))

/-- The groups that occupy a core. -/
def State.groupsOn (s : State) (core : Nat) : List (Nat × Group) := s.groups.filter (fun e => e.2.place.core == core && e.2.occupies)

/-- Scratchpad units and slabs of a block on each of its cores. -/
def State.storageOf (s : State) (b : Nat) : Nat × Nat := ((s.manifestOf b).map (fun m => (m.units, m.slabs))).getD (0, 0)

/-- The units and slabs fit beside those of the blocks on the core (02 R50). -/
def State.storageFits (s : State) (core units slabs : Nat) : Bool :=
  let l := (s.blocksOn core).map (fun e => s.storageOf e.1)
  decide ((l.map Prod.fst).sum + units ≤ Config.scratchUnits) && decide ((l.map Prod.snd).sum + slabs ≤ Config.slabs)

/-- Only blocks of the same kind, debuggable or not, are on the core (15 R404). -/
def State.kindFits (s : State) (core ctx : Nat) : Bool :=
  (s.blocksOn core).all (fun e => s.debuggable e.2.ctx == s.debuggable ctx) && (s.groupsOn core).all (fun e => s.debuggable e.2.place.ctx == s.debuggable ctx)

/-- The core is kept for another block, for which groups were evicted from it (02 R57, R61). -/
def State.keptFrom (s : State) (core b : Nat) : Bool :=
  match s.room with
  | some (x, c) => c == core && x != b
  | none => false

/-- The priority of a context: 0 is the highest. -/
def State.priorityOf (s : State) (ctx : Nat) : Nat := ((s.context ctx).map (·.priority)).getD 0

/-- Every partition of the core is fenced: no block is placed there (01 R23). -/
def State.coreFenced (s : State) (core : Nat) : Bool := (List.range Config.partitions).all (fun p => s.fenced.contains (16 * core + p))

/-- Work that is still to return before new work of a priority is placed on a core, of the same or a higher priority: Saved groups and blocks of its die (02
R62), and Off-core groups of the core itself (02 R45); but not that of a block which has lost every place (log 27). -/
def State.awaited (s : State) (core prio : Nat) : Bool :=
  let lost := fun (g : Group) => (s.blk g.place.blk).any (fun b => b.moved && b.st == .saved)
  s.groups.any (fun e => ((e.2.st == .saved && dieOfCore e.2.place.core == dieOfCore core) || (e.2.st == .offCore && e.2.place.core == core))
      && decide (s.priorityOf e.2.place.ctx ≤ prio) && !lost e.2)
    || s.blks.any (fun e => e.2.st == .saved && !e.2.moved && e.2.parts.any (fun p => dieOfCore p.core == dieOfCore core) && decide (s.priorityOf e.2.ctx ≤ prio))

/-! ### The groups of a block -/

/-- Index in the part, role number and role of each group, in manifest role order and in group order within a role (02 R29). -/
def Manifest.groupList (m : Manifest) : List (Nat × Nat × Role) :=
  ((m.roles.zipIdx.flatMap (fun e => List.replicate e.1.groups (e.2, e.1))).zipIdx).map (fun e => (e.2, e.1))

/-- A group at its start (02 R44): zero registers, the parameter words in s1-s15, identity slots, traps unmasked, every thread at the entry PC;
its passed mark is G - 1 (03 R115). -/
def groupStart (ctx blk core bpart gidx role : Nat) (r : Role) (rear : Bool) (params : List Word64) (gen : Word64) : Group :=
  { st := .placing
    place := { ctx := ctx, blk := blk, core := core, wcode := r.wcode, role := BitVec.ofNat 2 role, gidx := gidx, bpart := bpart, base := r.base,
               xmax := r.xmax, ucount := r.ucount, gangCapable := r.gang, handler := r.handler, paired := r.paired, redundant := r.redundant,
               rear := rear, entry := r.entry, vec := r.vec }
    regs := { s := params.zipIdx.foldl (fun m e => Assoc.set (e.2 + 1) e.1 m) [], qslot := 0x06030501 }
    sched := { passed := gen - 1 }
    threads := List.replicate (8 * 2 ^ r.wcode.toNat) { pc := r.entry } }

/-- The groups of a block on one core; a rear block has those of the paired roles. -/
def State.newGroups (s : State) (b : Nat) (x : Block) (m : Manifest) (core bpart : Nat) (rear : Bool) : List Group :=
  let params := ((Tab.get? x.launch s.launches).map (·.params)).getD []
  let gen := ((s.context x.ctx).map (·.gen)).getD 1
  (m.groupList.filter (fun e => !rear || e.2.2.paired)).map (fun e => groupStart x.ctx b core bpart e.1 e.2.1 e.2.2 rear params gen)

/-- The groups of a block on a core with their places, when they fit there and nothing is to return there first (02 R45, R50, R51). -/
def State.fitCore (s : State) (b : Nat) (x : Block) (m : Manifest) (core bpart : Nat) (rear : Bool) : Option (List Group) :=
  if s.keptFrom core b || s.awaited core (s.priorityOf x.ctx) || !s.kindFits core x.ctx || !s.storageFits core m.units m.slabs then none
  else s.seatAll ((s.groupsOn core).map Prod.snd) (s.newGroups b x m core bpart rear)

/-- The cores of a block with its groups on each: the lowest-numbered cores of a list that fit. -/
def State.fitCores (s : State) (b : Nat) (x : Block) (m : Manifest) (rear : Bool) : List Nat → List (Nat × List Group) → Option (List (Nat × List Group))
  | [], acc => if acc.length = m.cores then some acc else none
  | c :: cs, acc =>
    if acc.length = m.cores then some acc
    else
      match s.fitCore b x m c acc.length rear with
      | some gs => s.fitCores b x m rear cs (acc ++ [(c, gs)])
      | none => s.fitCores b x m rear cs acc

/-- The cores of a cluster. -/
def clusterCores (k : Nat) : List Nat := (List.range 4).map (fun i => 4 * k + i)

/-- The clusters of a die. -/
def dieClusters (d : Nat) : List Nat := (List.range 12).map (fun i => 12 * d + i)

/-- Where a block goes: its cores, and those of the rear block of a convoy. -/
structure Plan where
  parts : List (Nat × List Group)
  rear : Option (List (Nat × List Group)) := none

/-- Where a block goes in a cluster. The rear block of a convoy goes to other cores of the same die (02 R72): those of the lowest-numbered
cluster of the die where it fits. -/
def State.planIn (s : State) (b : Nat) (x : Block) (m : Manifest) (k : Nat) : Option Plan :=
  match s.fitCores b x m false (clusterCores k) [] with
  | none => none
  | some l =>
    if m.pairedRoles then
      (dieClusters (k / 12)).findSome? (fun k' =>
        (s.fitCores b x m true ((clusterCores k').filter (fun c => !(l.map Prod.fst).contains c)) []).map (fun r => { parts := l, rear := some r }))
    else some { parts := l }

/-! ### Save records (02 R63) -/

/-- The lowest 4 KiB-aligned room of `n` bytes in an area, beside what is taken. -/
def firstFit (base size : Nat) (taken : List (Nat × Nat)) (n : Nat) : Option Nat :=
  let cands := (alignUp base 4096 :: taken.map (fun t => alignUp (t.1 + t.2) 4096)).filter (fun a =>
    decide (base ≤ a) && decide (a + n ≤ base + size) && taken.all (fun t => decide (a + n ≤ t.1) || decide (t.1 + t.2 ≤ a)))
  leastOf cands

/-- Room for records of several sizes, in order. -/
def fitRecords (base size : Nat) : List (Nat × Nat) → List Nat → Option (List Nat)
  | _, [] => some []
  | taken, n :: ns =>
    match firstFit base size taken n with
    | none => none
    | some a => (fitRecords base size ((a, n) :: taken) ns).map (fun l => a :: l)

/-- Bytes of a group's record, with the waystation record of a paired group behind it (02 R63, R77). -/
def Group.reserve (g : Group) : Nat := (if g.place.paired then 2 else 1) * alignUp (recordBytes g.place.wcode) 4096

/-- Bytes of a block record (02 R69). -/
def Manifest.blockRecord (m : Manifest) : Nat := alignUp (9216 + 4096 * (m.units + m.slabs) + 8 * m.slabs) 4096

/-- The sizes of the records of a list of cores: those of the groups of each, then its block record. -/
def recordSizes (m : Manifest) (parts : List (Nat × List Group)) : List Nat := parts.flatMap (fun p => p.2.map Group.reserve ++ [m.blockRecord])

/-- The records of a plan. -/
def State.planRecords (s : State) (x : Block) (m : Manifest) (p : Plan) : Option (List Nat) :=
  match s.context x.ctx with
  | none => none
  | some c =>
    fitRecords c.saveBase c.saveSize (c.reserved.map (fun r => (r.2.1, r.2.2))) (recordSizes m p.parts ++ ((p.rear.map (recordSizes m)).getD []))

/-! ### Placing -/

/-- The parts of a block and its groups with the addresses of their records. -/
def assignRecords : List (Nat × List Group) → List Nat → List (BlockPart × List Group)
  | [], _ => []
  | (c, gs) :: rest, l =>
    ({ core := c, record := (l.drop gs.length).headD 0 }, gs.zipIdx.map (fun e => { e.1 with place := { e.1.place with record := (l.drop e.2).headD 0 } }))
      :: assignRecords rest (l.drop (gs.length + 1))

/-- Put a group into the module. -/
def State.addGroup (s : State) (g : Group) : State :=
  let id := s.nextId + 1
  { s with nextId := id + 1, groups := Tab.put id { g with sched := { g.sched with placedAt := id } } s.groups }

/-- Put a block's parts, groups and reservations into the module (02 R42: Placing). -/
def State.install (s : State) (b : Nat) (m : Manifest) (ctx : Nat) (parts : List (Nat × List Group)) (addrs : List Nat) : State :=
  let l := assignRecords parts addrs
  let res := (addrs.zip (recordSizes m parts)).map (fun e => (b, e.1, e.2))
  let s := s.modBlk b (fun x => { x with st := .placing, parts := l.map Prod.fst })
  let s := s.modCtx ctx (fun c => { c with reserved := c.reserved ++ res })
  let s := (l.flatMap Prod.snd).foldl State.addGroup s
  (parts.map Prod.fst).foldl (fun s c => s.dropScalesOf c ctx) s

/-- The convoys of two blocks: group g of the lead with group g of the rear. Before the first waystation the snapshot is the group's start (21
R512). -/
def State.pairGroups (s : State) (lead rear slack : Nat) : State :=
  (s.groups.filter (fun e => e.2.place.blk == lead && e.2.place.paired)).foldl (fun s e =>
    match s.groups.find? (fun f => f.2.place.blk == rear && f.2.place.gidx == e.2.place.gidx && f.2.place.bpart == e.2.place.bpart) with
    | none => s
    | some f =>
      { s with convoys := Tab.put e.1 { lead := e.1, rear := f.1, slack := slack, snapLead := some e.2, snapRear := some f.2 } s.convoys }) s

/-- Place a block by its plan. -/
def State.placeBlock (s : State) (b : Nat) (x : Block) (m : Manifest) (p : Plan) (addrs : List Nat) : State :=
  let s := if (s.room.map Prod.fst) = some b then { s with room := none } else s
  let s := s.install b m x.ctx p.parts (addrs.take (recordSizes m p.parts).length)
  match p.rear with
  | none => s.push [.blockResident b]
  | some r =>
    let t := s.nextId + 1
    let s := { s with nextId := t + 1, blks := Tab.put t { x with rear := true, twin := some b } s.blks }
    let fix := fun (e : Nat × List Group) => (e.1, e.2.map (fun g => { g with place := { g.place with blk := t } }))
    let s := s.install t m x.ctx (r.map fix) (addrs.drop (recordSizes m p.parts).length)
    ((s.modBlk b (fun x => { x with twin := some t })).pairGroups b t m.slack).push [.blockResident b]

/-! ### Distribution (02 R55) -/

/-- Coordinates of block n of a grid, X fastest and Z slowest. -/
def gridAt (m : Manifest) (n : Nat) : Nat × Nat × Nat := (n % m.gx, n / m.gx % m.gy, n / (m.gx * m.gy))

/-- Blocks of a grid. -/
def Manifest.gridSize (m : Manifest) : Nat := m.gx * m.gy * m.gz

/-- A cluster's queue of blocks. -/
def State.queue (s : State) (k : Nat) : List Nat := (Tab.get? k s.queues).getD []

/-- The die mask of a context. -/
def State.dieMaskOf (s : State) (ctx : Nat) : BitVec 4 := ((s.context ctx).map (·.dieMask)).getD 0

/-- The priority of a block. -/
def State.blockPriority (s : State) (b : Nat) : Nat := ((s.blk b).map (fun x => s.priorityOf x.ctx)).getD 0

/-- Put a block behind those of its priority (02 R55). -/
def State.queueBlock (s : State) (l : List Nat) (b : Nat) : List Nat :=
  let p := s.blockPriority b
  l.filter (fun x => decide (s.blockPriority x ≤ p)) ++ b :: l.filter (fun x => !decide (s.blockPriority x ≤ p))

/-- Clusters of the dies of a mask. -/
def maskClusters (m : BitVec 4) : List Nat := (List.range 48).filter (fun k => m.getLsbD (k / 12))

/-- The next cluster of the round-robin whose queue has room: its place in the list, and the cluster. -/
def State.nextCluster (s : State) (l : List Nat) (turn : Nat) : Option (Nat × Nat) :=
  ((List.range l.length).map (fun i => (turn + i) % l.length)).findSome? (fun i =>
    match l[i]? with
    | some k => if (s.queue k).length < 64 then some (i, k) else none
    | none => none)

/-- The launch whose blocks are dealt: of the highest priority, the earliest ready. -/
def State.dealtLaunch (s : State) (die : Nat) : Option (Nat × Launch) :=
  ((s.die die).ready.filterMap (fun k => (Tab.get? k s.launches).map (fun l => (k, l)))).foldl (fun b e => match b with
    | none => some e
    | some d => if s.priorityOf e.2.ctx < s.priorityOf d.2.ctx then some e else some d) none

/-- Deal one block of a launch to the next cluster with room. -/
def State.deal (s : State) (die id : Nat) (l : Launch) : State :=
  let cs := maskClusters (s.dieMaskOf l.ctx)
  match s.nextCluster cs l.turn with
  | none => s
  | some (i, k) =>
    let b := s.nextId + 1
    let at_ := gridAt l.man l.dealt
    let s := { s with nextId := b + 1
                      blks := Tab.put b { ctx := l.ctx, launch := id, bx := at_.1, byy := at_.2.1, bz := at_.2.2, st := .queued, cluster := k } s.blks
                      launches := Tab.put id { l with dealt := l.dealt + 1, turn := (i + 1) % cs.length } s.launches }
    let s := { s with queues := Tab.put k (s.queueBlock (s.queue k) b) s.queues }
    let s := if l.dealt + 1 = l.man.gridSize then s.modDie die (fun d => { d with ready := d.ready.filter (fun x => x != id) }) else s
    s.push [.blockPlace k, .blockDistribute die]

/-- The block distributor of a die deals one block (02 R55). -/
def execBlockDistribute (die : Nat) (s : State) : Host.Outcome State Fault Refusal :=
  match s.dealtLaunch die with
  | none => .next s
  | some (id, l) => .next (s.deal die id l)

end Sys2Proof.Machine
end

