-- ==== Sys2Proof/Machine/Save.lean ====
section
/-! DEFINITION. Eviction (02 R57-R61, 19 R452, R453, 21 R516) and the saves of groups and blocks (02 R59, R63-R71, 19 R452-R456, 05 R177). -/
namespace Sys2Proof.Machine

/-! ### Quiescing the copy engine (02 R59) -/

/-- A record in flight goes on to the end of its row, but not inside its last row. -/
def State.finishRow (k : Nat) : Nat → State → State
  | 0, s => s
  | n + 1, s =>
    match Tab.get? k s.copies with
    | some r =>
      if r.active && !r.held && r.remote.isEmpty && r.col != 0 && decide (r.row + 1 < r.rows) then State.finishRow k n (s.moveSegment k r) else s
    | none => s

/-- W0 with ROWS and ROWBYTES replaced. -/
def copyShape (w0 : Word64) (rows rowBytes : Nat) : Word64 :=
  (w0 &&& ~~~0x000000FFFFFFFF00#64) ||| (BitVec.ofNat 64 (rows % 65536) <<< 8) ||| (BitVec.ofNat 64 (rowBytes % 65536) <<< 24)

/-- The record that describes the part not delivered: from a row boundary, or from inside the last row. The source of a gather keeps its base in the
first case; in the second the base makes up for the smaller index scale, so that no byte is left out. -/
def State.remaining (s : State) (r : CopyRecord) : CopyRecord :=
  if r.col != 0 && r.row + 1 == r.rows then
    let idx := s.gatherIndex r r.row
    let src := if r.kind = 2 then idx * r.col + r.col else s.srcOffset r r.row + r.col
    { r with w0 := copyShape r.w0 1 (r.rowBytes - r.col), w1 := plusPtr r.w1 src, w2 := plusPtr r.w2 (r.dstOffset r.row + r.col)
             w3 := if r.kind = 2 then r.w3 + BitVec.ofNat 64 (4 * r.row) else r.w3, row := 0, col := 0 }
  else
    { r with w0 := copyShape r.w0 (r.rows - r.row) r.rowBytes, w1 := if r.kind = 2 then r.w1 else plusPtr r.w1 (s.srcOffset r r.row)
             w2 := plusPtr r.w2 (r.dstOffset r.row), w3 := if r.kind = 2 then r.w3 + BitVec.ofNat 64 (4 * r.row) else r.w3, row := 0 }

/-- Withdraw the records of a block, in queue order: one that waits for a peer's answer stays. -/
def State.withdrawCopies (s : State) (b : Nat) : State :=
  (s.copies.filter (fun e => e.2.blk == b && e.2.remote.isEmpty)).foldl (fun s e =>
    let r := { s.remaining e.2 with active := false, held := false }
    (s.modBlk b (fun x => x.modPart e.2.part (fun p => { p with withdrawn := p.withdrawn ++ [r] }))).withdraw e) s

/-- The copy engine is quiesced for a block (02 R59). -/
def State.quiesce (s : State) (b : Nat) : State :=
  let ks := (s.copies.filter (fun e => e.2.blk == b)).map Prod.fst
  (ks.foldl (fun s k => State.finishRow k 256 s) s).withdrawCopies b

/-! ### What is evicted together (02 R58, 21 R516) -/

/-- The groups that are saved with a group: the members of its gang, and the other group of its convoy. -/
def State.unitOf (s : State) (gi : Nat) (g : Group) : List Nat :=
  let gang := if g.regs.gang = 0 then [] else (s.gangMembers g).filter (fun k => (s.group k).any (fun h => h.st == .resident))
  let conv := match s.convoyOf gi with
    | some (_, c) => [c.lead, c.rear]
    | none => []
  (gi :: (gang ++ conv)).eraseDups

/-- The group may be chosen: Resident, and not stopped by the debugger (19 R453). -/
def State.choosable (s : State) (gi : Nat) : Bool :=
  match s.group gi with
  | some g => g.st == .resident && !s.partitionStopped g.partIndex
  | none => false

/-- The state as it will be when groups are saved. -/
def State.supposeSaved (s : State) (l : List Nat) : State :=
  { s with groups := s.groups.map (fun e => if l.contains e.1 then (e.1, { e.2 with st := .saved }) else e) }

/-- The state as it will be when a block is saved whole. -/
def State.supposeBlock (s : State) (b : Nat) : State :=
  { s with blks := Tab.modify b (fun x => { x with st := .saved }) s.blks
           groups := s.groups.map (fun e => if e.2.place.blk == b && e.2.occupies then (e.1, { e.2 with st := .saved }) else e) }

/-- The saves in progress counted as complete (19 R453). -/
def State.supposeDone (s : State) : State :=
  { s with room := none
           groups := s.groups.map (fun e => match e.2.st with
             | .saving _ => (e.1, { e.2 with st := .saved })
             | _ => e)
           blks := s.blks.map (fun e => if e.2.st == .saving then (e.1, { e.2 with st := .saved }) else e) }

/-- Insert by an order. -/
def insertBy (lt : α → α → Bool) (e : α) : List α → List α
  | [] => [e]
  | x :: xs => if lt e x then e :: x :: xs else x :: insertBy lt e xs

/-- Sort by an order; equals keep their order. -/
def sortBy (lt : α → α → Bool) (l : List α) : List α := l.foldl (fun acc e => insertBy lt e acc) []

/-- Groups to evict in turn until the block fits: units of a candidate are saved whole, one that cannot be chosen whole is passed over. -/
def pickGroups (s : State) (fits : State → Bool) : State → List (Nat × Group) → List Nat → Option (List Nat)
  | t, [], acc => if fits t then some acc else none
  | t, e :: es, acc =>
    if fits t then some acc
    else if acc.contains e.1 then pickGroups s fits t es acc
    else
      let u := s.unitOf e.1 e.2
      if u.all s.choosable then pickGroups s fits (t.supposeSaved u) es (acc ++ u) else pickGroups s fits t es acc

/-- A block may be saved whole: none of its groups is being placed or restored, or is stopped. -/
def State.blockChoosable (s : State) (b : Nat) : Bool :=
  (s.blk b).any (fun x => x.st == .resident)
    && (s.groups.filter (fun e => e.2.place.blk == b)).all (fun e => match e.2.st with
      | .resident => !s.partitionStopped e.2.partIndex
      | .placing => false
      | .restoring => false
      | _ => true)

/-- Blocks to evict in turn until the block fits, with the twin of a convoy. -/
def pickBlocks (s : State) (fits : State → Bool) : State → List (Nat × Block) → List Nat → Option (List Nat)
  | t, [], acc => if fits t then some acc else none
  | t, e :: es, acc =>
    if fits t then some acc
    else if acc.contains e.1 then pickBlocks s fits t es acc
    else
      let u := e.1 :: e.2.twin.toList
      if u.all s.blockChoosable then pickBlocks s fits (u.foldl State.supposeBlock t) es (acc ++ u) else pickBlocks s fits t es acc

/-- Groups of strictly lower priority on a core: lower priority first, then the most recently placed. -/
def State.groupVictims (s : State) (core prio : Nat) : List (Nat × Group) :=
  sortBy (fun a b => decide (s.priorityOf b.2.place.ctx < s.priorityOf a.2.place.ctx)
      || (s.priorityOf a.2.place.ctx == s.priorityOf b.2.place.ctx && decide (b.2.sched.placedAt < a.2.sched.placedAt)))
    ((s.groupsOn core).filter (fun e => e.2.st == .resident && decide (prio < s.priorityOf e.2.place.ctx)))

/-- When the latest of a block's groups was placed. A group that has been restored counts as placed when its block was (DESIGN CHOICE, log 89). -/
def State.blockPlacedAt (s : State) (b : Nat) : Nat := ((s.groups.filter (fun e => e.2.place.blk == b)).map (fun e => e.2.sched.placedAt)).foldl max 0

/-- Blocks of strictly lower priority on a core, in the same order. -/
def State.blockVictims (s : State) (core prio : Nat) : List (Nat × Block) :=
  sortBy (fun a b => decide (s.priorityOf b.2.ctx < s.priorityOf a.2.ctx)
      || (s.priorityOf a.2.ctx == s.priorityOf b.2.ctx && decide (s.blockPlacedAt b.1 < s.blockPlacedAt a.1)))
    ((s.blocksOn core).filter (fun e => decide (prio < s.priorityOf e.2.ctx)))

/-- The cores of a die mask that hold work of strictly lower priority: the lowest resident priority first, then the lowest index. -/
def State.victimCores (s : State) (dies : BitVec 4) (prio : Nat) : List Nat :=
  let l := (maskCores dies).filterMap (fun c =>
    let p := (((s.groupsOn c).map (fun e => s.priorityOf e.2.place.ctx)) ++ ((s.blocksOn c).map (fun e => s.priorityOf e.2.ctx))).foldl max 0
    if prio < p then some (c, p) else none)
  (sortBy (fun a b => decide (b.2 < a.2)) l).map Prod.fst

/-- What is evicted from a core for a block, if that makes room for it and its records (02 R63): groups, or whole blocks when the core lacks scratchpad or slabs, or holds a block of the other kind (02
R58, R59, 15 R404). -/
def State.evictionSet (s : State) (b : Nat) (x : Block) (m : Manifest) (core : Nat) : Option (List Nat × List Nat) :=
  let t := s.supposeDone
  let fits := fun (t : State) => ((t.planIn b x m (core / 4)).bind (t.planRecords x m)).isSome
  let prio := s.priorityOf x.ctx
  if t.storageFits core m.units m.slabs && t.kindFits core x.ctx then (pickGroups s fits t (s.groupVictims core prio) []).map (fun l => (l, []))
  else (pickBlocks s fits t (s.blockVictims core prio) []).map (fun l => ([], l))

/-! ### Saves begin -/

/-- Iterations of a group's gang stop at their next product (11 R323). -/
def State.stopIterations (s : State) (gi : Nat) : State :=
  let l := (s.mxops.filter (fun e => e.2.running && e.2.members.contains gi)).map (fun e => Instr.mxEvictionStop e.1)
  { s with agenda := l ++ s.agenda }

/-- The save of a group begins (02 R43). The rear of a convoy runs on until the held entries are matched (21 R516). -/
def State.beginSave (s : State) (gi : Nat) : State :=
  match s.group gi with
  | none => s
  | some g =>
    if g.st != .resident then s
    else
      let drains := match s.convoyOf gi with
        | some (_, c) => c.rear == gi && !(c.held.isEmpty && c.rearEntry.isNone)
        | none => false
      let s := match s.convoyOf gi with
        | some (k, _) => { s with convoys := Tab.modify k (fun c => { c with evicting := true }) s.convoys }
        | none => s
      if drains then s else ((s.modGroup gi (fun g => { g with st := .saving 0 })).push [.groupSaveComplete gi]).stopIterations gi

/-- The save of a whole block begins: its copies are quiesced and its groups saved. -/
def State.beginBlockSave (s : State) (b : Nat) : State :=
  let s := s.modBlk b (fun x => { x with st := .saving, savingWhole := true })
  let s := s.quiesce b
  ((s.blockGroups b).foldl State.beginSave s).push [.blockSaveComplete b]

/-- The block at the head of a cluster's queue, with its manifest, when it can be placed nowhere in its die mask. -/
def State.stuckHead (s : State) (k : Nat) : Option (Nat × Block × Manifest) :=
  match (s.queue k).head? with
  | none => none
  | some b =>
    match s.blk b, s.manifestOf b with
    | some x, some m =>
      let dies := s.dieMaskOf x.ctx
      if (maskClusters dies).any (fun c => ((s.planIn b x m c).bind (s.planRecords x m)).isSome) then none else some (b, x, m)
    | _, _ => none

/-- A core is kept for another block that still waits, and of which this one is not of higher priority (02 R61, 19 R453). -/
def State.reservedAgainst (s : State) (b : Nat) : Bool :=
  s.room.any (fun r => r.1 != b && (s.blk r.1).any (fun x => x.st == .queued) && decide (s.blockPriority r.1 ≤ s.blockPriority b))

/-- Evict for the head of a cluster's queue (02 R57): nothing while the saves of its own eviction are in progress. A request of higher priority takes the
reservation of the earlier one, which stays at the head of its queue (R61). -/
def State.evictFor (s : State) (k : Nat) : State :=
  match s.stuckHead k with
  | none => s
  | some (b, x, m) =>
    let busy := s.groups.any (fun e => match e.2.st with
      | .saving _ => true
      | _ => false)
    if ((s.room.map Prod.fst) = some b && busy) || s.reservedAgainst b then s
    else
      let dies := s.dieMaskOf x.ctx
      match (s.victimCores dies (s.priorityOf x.ctx)).findSome? (fun c => (s.evictionSet b x m c).map (fun e => (c, e))) with
      | none => s
      | some (c, gs, bs) =>
        let s := { s with room := some (b, c) }
        bs.foldl State.beginBlockSave (gs.foldl State.beginSave s)

/-- A block that cannot be placed evicts work of lower priority (02 R57-R61). -/
def execEviction (cluster : Nat) (s : State) : Host.Outcome State Fault Refusal := .next (s.evictFor cluster)

/-! ### The save of a group (02 R64-R67, 19 R452, R455) -/

/-- The releases of a group held at its core's gate. -/
def State.gateOf (s : State) (gi : Nat) (g : Group) : List Held := (s.coreAt g.place.core).gate.filter (fun h => h.g == gi)

/-- The entries a save captures: the releases at the gate, which their bundles issued before anything that is still to come, and the entries not yet
re-injected; `bsync` is issued again instead (19 R455). -/
def State.capturesOf (s : State) (gi : Nat) (g : Group) : List (Mask × ReplayEntry) :=
  ((s.gateOf gi g).filter (fun h => h.act != .bsync && h.bundle != 0)).map (fun h => (h.bundle, { h.entry with done := 0 }))
    ++ g.flow.inject.map (fun e => (g.flow.injectMask, e)) ++ g.flow.reissue

/-- The save of a group can complete (19 R452): no register write, store or request is outstanding, no operation of its gang runs, the compare buffer
is empty, and the entries fit the record's queue. -/
def State.saveReady (s : State) (gi : Nat) (g : Group) : Bool :=
  (match g.st with
   | .saving _ => true
   | _ => false)
    && g.flow.outstanding.isEmpty && s.stores.all (fun e => e.2.g != gi) && s.remotes.all (fun e => e.2.g != gi || e.2.kind == 3 || e.2.kind == 4)
    && s.mxops.all (fun e => !(e.2.running && !e.2.stopped && e.2.members.contains gi))
    && (match s.convoyOf gi with
        | some (_, c) => c.held.isEmpty && c.rearEntry.isNone && (s.gateOf gi g).all (fun h => h.bundle != 0)
        | none => true)
    && decide (g.trap.queue.length + (s.capturesOf gi g).length ≤ 24)

/-- Close a line for a save (05 R177): a contained line only leaves the sets. -/
def State.closeLine (s : State) (core ln : Nat) : State :=
  let s := s.confirmLine ln
  if (s.line ln).contained.isSome then s
  else
    let h := homeSliceOf (256 * ln)
    let s := s.message (reorderAgent core) (sliceAgent h)
    let t := s.timeOf (sliceAgent h)
    (s.message (sliceAgent h) (reorderAgent core)).modCore core (fun c => c.confirmed ln (s.line ln).interval t h)

/-- Close every line of the core's three written-line sets and empty them (05 R177). -/
def State.closeAll (s : State) (core : Nat) : State :=
  let c := s.coreAt core
  ((((c.written0 ++ c.written1 ++ c.written2).map (·.line)).eraseDups.filter (fun ln => !scratchLine ln)).foldl (fun s ln => s.closeLine core ln) s).modCore core
    (fun c => { c with written0 := [], written1 := [], written2 := [] })

/-- Threads leave the waits that are issued again after the restore (19 R455): those of `bsync`, `bar.wait`, `uirq.wait` and `xreg.acq` stand at their
instruction already; a `bsync` at the gate goes back to it. -/
def Thread.saveWait (bs : List Held) (t : Thread) : Thread :=
  match t.wait with
  | .gate => { t with wait := .none, pc := match bs.find? (fun h => h.id == t.waitOn) with
      | some h => h.pc
      | none => t.pc }
  | .copy => { t with wait := .none }
  | .barWait => { t with wait := .none }
  | .uirqWait => { t with wait := .none }
  | .bsync => { t with wait := .none }
  | .xregAcq => { t with wait := .none }
  | _ => t

/-- Capture what the group has at its gate, and end its waits. -/
def State.capture (s : State) (gi : Nat) (g : Group) : State :=
  let gate := s.gateOf gi g
  let caps := s.capturesOf gi g
  let bs := gate.filter (fun h => h.act == .bsync)
  let s := s.modCore g.place.core (fun c => { c with gate := c.gate.filter (fun h => h.g != gi) })
  s.modGroup gi (fun g =>
    { g with threads := g.threads.map (Thread.saveWait bs), trap := { g.trap with captured := caps.map Prod.snd }
             flow := { g.flow with inject := [], injectMask := 0, reissue := caps } })

/-- Where a save leads (02 R43). -/
def savedAs (k : Nat) : GroupState := if k = 0 then .saved else if k = 1 then .offCore else .escalated

/-- What became free on a core is offered: first to saved work, then to blocks (02 R56, R62). -/
def State.freed (s : State) (core : Nat) : State :=
  s.push ([.groupRestore core, .blockPlace (core / 4)] ++ ((s.queues.filter (fun q => !q.2.isEmpty)).map (fun q => .blockPlace q.1)))

/-- A group enters Ended (08 R234): its place is free, its checker entries go, and the watermark is looked at again. -/
def State.endGroup (s : State) (gi : Nat) (g : Group) : State :=
  let core := g.place.core
  let s := s.modGroup gi (fun g => { g with st := .ended, regs := { g.regs with xheld := 0 }, flow := {}, trap := { g.trap with held := false } })
  let s := s.modPart g.partIndex (fun p => { p with xqueue := p.xqueue.filter (fun r => r.g != gi) })
  let s := s.modCore core (fun c => { c with verified := c.verified.filter (fun e => e.g != gi), deferred := c.deferred.filter (fun d => d.y.g != gi) })
  ((((s.grantX g.partIndex).checkWatermark g.place.ctx).bsyncRound g.place.blk).push [.blockEnd g.place.blk]).freed core

/-- An instruction of a run-on that its bundle still waits in leaves the queue, to be issued again from the resume point (19 R452, R455): one that holds a
place at a rendezvous or in a queue gives it up, and a release at the gate is opened again in the queue. -/
def State.leaveWaits (s : State) (gi : Nat) (g : Group) (r : RunOn) : State × RunOn :=
  let held := (s.gateOf gi g).filter (fun h => h.bundle &&& r.bundle != 0)
  let again := held.any (fun h => h.act == .bsync) || (g.which (fun t => !t.exited
    && (t.wait == .gbar || t.wait == .barWait || t.wait == .uirqWait || t.wait == .bsync || t.wait == .xregAcq || t.wait == .mx))) &&& r.bundle != 0
  let s := (s.modCore g.place.core (fun c => { c with gate := c.gate.filter (fun h => !(h.g == gi && h.bundle &&& r.bundle != 0)) })).withdrawArrivals gi r.bundle
  let q := if again then r.queue.dropLast else r.queue
  (s, { r with queue := held.foldl (fun q h => if h.act == .bsync then q else unfinish h.entry h.mask q) q })

/-- A group's trap of an unfinished run-on is taken before the save. -/
def State.settleRunOn (s : State) (gi : Nat) : State :=
  match s.group gi with
  | some g =>
    match g.flow.runOns with
    | r :: _ =>
      if g.trap.tmasked || g.trap.held then s
      else
        let x := s.leaveWaits gi g r
        x.1.takeRunOn gi x.2
    | [] => s
  | none => s

/-- The rest of a group save: lines closed, releases captured, the record written, the place freed. -/
def State.finishSave (s : State) (gi k : Nat) (g : Group) : State :=
  let core := g.place.core
  let s := ((s.closeAll core).capture gi g)
  match s.group gi with
  | none => s
  | some g =>
    let s := s.writeFields g.place.record (s.recordFields gi g)
    let s := s.modPart g.partIndex (fun p => { p with xqueue := p.xqueue.filter (fun r => r.g != gi) })
    let s := { s with nextId := s.nextId + 1 }
    let s := s.modGroup gi (fun g =>
      { g with st := savedAs k, sched := { g.sched with savedAt := s.nextId, returning := false, restore := false } })
    let s := s.grantX g.partIndex
    (if k = 1 then s.push [.svcRingAppend gi] else s).freed core

/-- A group record is complete (02 R43). -/
def execGroupSaveComplete (g : Nat) (s : State) : Host.Outcome State Fault Refusal :=
  let s := if (s.group g).any (s.saveReady g) then s.settleRunOn g else s
  match s.group g with
  | none => .next s
  | some x =>
    match x.st with
    | .saving k => .next (if s.saveReady g x then s.finishSave g k x else s)
    | _ => .next s

/-! ### The save of a block (02 R59, R60, R69-R71) -/

/-- A copy record as its 32 bytes. -/
def CopyRecord.fields (base : Nat) (r : CopyRecord) : List Field := [q64 base r.w0, q64 (base + 8) r.w1, q64 (base + 16) r.w2, q64 (base + 24) r.w3]

/-- A gang issue queue entry (02 R71), with GANG as it stands. Where members have arrived with different instructions the words are those of the first
(DESIGN CHOICE, log 99). -/
def State.mxFields (s : State) (base : Nat) (o : MxOp) : List Field :=
  match o.arrived with
  | [] => []
  | a :: _ =>
    [(base, 4, a.entry.word.toNat), (base + 4, 4, o.arrivedBits), q64 (base + 8) a.d0, q64 (base + 16) a.d1, q64 (base + 24) a.d2,
     q64 (base + 32) (((s.group a.g).map (·.regs.gang)).getD a.gang),
     (base + 40, 4, o.clocks)]

/-- The header of a block record (02 R70). Of more than eight waiting operations the first eight are written (DESIGN CHOICE, log 99). -/
def State.blockHeader (s : State) (x : Block) (m : Manifest) (i : Nat) (p : BlockPart) : List Field :=
  let l := Tab.get? x.launch s.launches
  let sig := (l.map (fun l => l.endCounter.toNat + (if l.signal.isSome then 32768 else 0))).getD 0
  let ops := s.mxops.filter (fun e => e.2.core == p.core && (s.blk e.2.blk).any (fun y => y.bx == x.bx && y.byy == x.byy && y.bz == x.bz && y.launch == x.launch)
    && (!e.2.running || e.2.stopped))
  [(0, 8, 2 + 256 * i + 1024 * x.parts.length + 2 ^ 24 * m.objects + 2 ^ 32 * m.units + 2 ^ 48 * m.slabs), (8, 4, x.bx), (12, 4, x.byy), (16, 4, x.bz),
   (24, 8, (l.map (·.manifestAddr.toNat)).getD 0), (32, 8, p.withdrawn.length + 65536 * x.stages), (40, 8, sig)]
    ++ p.bars.map (fun e => (64 + 2 * e.1, 2, (if e.2.engine then 1 else 0) + 2 * e.2.outstanding))
    ++ (ops.take 8).zipIdx.flatMap (fun e => s.mxFields (320 + 64 * e.2) e.1.2)

/-- A block record (02 R69). -/
def State.blockRecordFields (s : State) (x : Block) (m : Manifest) (i : Nat) (p : BlockPart) : List Field :=
  let sl := 9216 + 4096 * m.units
  let po := 9216 + 4096 * (m.units + m.slabs)
  [(0, po + 8 * m.slabs, 0)] ++ s.blockHeader x m i p
    ++ (p.withdrawn.zipIdx.flatMap (fun r => r.1.fields (1024 + 32 * r.2)))
    ++ p.scratch.map (fun e => (9216 + e.1, 1, e.2.toNat))
    ++ p.slabs.map (fun e => (sl + 4 * e.1, 4, e.2.toNat))
    ++ ((List.range m.slabs).map (fun k => (po + 8 * k, 8, (p.slabPoison.filter (fun n => n / 64 == k)).foldl (fun a n => a + 2 ^ (n % 64)) 0)))

/-- The save of a block can complete: its groups are saved, and no copy or matrix operation of it is still at work. -/
def State.blockSaveReady (s : State) (b : Nat) (x : Block) : Bool :=
  x.st == .saving && (s.groups.filter (fun e => e.2.place.blk == b)).all (fun e => !e.2.occupies)
    && s.copies.all (fun e => e.2.blk != b || e.2.remote.isEmpty)
    && s.mxops.all (fun e => e.2.blk != b || !e.2.running || e.2.stopped)

/-- The block would fit on some cluster of its die mask that held nothing else (17 R426). -/
def State.fitsSomewhere (s : State) (b : Nat) (x : Block) (m : Manifest) : Bool :=
  let t := { s with groups := [], blks := [], room := none }
  (maskClusters (s.dieMaskOf x.ctx)).any (fun k => (t.planIn b x m k).isSome)

/-- The block records are written, and the block's scratchpad and slabs are free (02 R59). -/
def State.finishBlockSave (s : State) (b : Nat) (m : Manifest) : State :=
  let s := s.withdrawCopies b
  match s.blk b with
  | none => s
  | some x =>
    let s := x.parts.zipIdx.foldl (fun s p => s.writeFields p.1.record (s.blockRecordFields x m p.2 p.1)) s
    let s := { s with nextId := s.nextId + 1 }
    let s := s.modBlk b (fun x => { x with st := .saved, savingWhole := false, savedAt := s.nextId, moved := x.moved && !s.fitsSomewhere b x m })
    let s := (x.parts.map (·.core)).foldl State.freed s
    if x.moved && !s.fitsSomewhere b x m then
      s.report { code := 0x7A03, path := diePath (s.homeDie x.ctx) 0xA 0, ctx := BitVec.ofNat 16 x.ctx, slice := s.homeSlice x.ctx,
                 detail := detail4 (BitVec.ofNat 64 b) 0 0 0 }
    else s

/-- A whole-block save is complete (02 R59). -/
def execBlockSaveComplete (blk : Nat) (s : State) : Host.Outcome State Fault Refusal :=
  match s.blk blk, s.manifestOf blk with
  | some x, some m => .next (if s.blockSaveReady blk x then s.finishBlockSave blk m else s)
  | _, _ => .next s

end Sys2Proof.Machine
end

