-- ==== Sys2Proof/Machine/Restore.lean ====
section
/-! DEFINITION. The return of saved work (02 R43, R62, 19 R448, R451, R454-R457): reading records back, what returns to a core, and the end of a restore. -/
namespace Sys2Proof.Machine

/-! ### Reading a group record (02 R64-R67, 19 R447) -/

/-- A little-endian value of a record. -/
def word64At (m : Assoc 8) (a : Nat) : Word64 := BitVec.ofNat 64 (bytesFrom m a 8)
def word32At (m : Assoc 8) (a : Nat) : Word32 := BitVec.ofNat 32 (bytesFrom m a 4)

/-- A table of words from consecutive places, the first at key `k0`. -/
def tableAt (m : Assoc 8) (a k0 n : Nat) : Assoc 32 := (List.range n).foldl (fun t i => Assoc.set (k0 + i) (word32At m (a + 4 * i)) t) []
def tableAt64 (m : Assoc 8) (a k0 n : Nat) : Assoc 64 := (List.range n).foldl (fun t i => Assoc.set (k0 + i) (word64At m (a + 8 * i)) t) []

/-- A thread from its record (02 R66). A thread that waits for a rendezvous keeps which one. -/
def Thread.load (m : Assoc 8) (a : Nat) (t : Thread) : Thread :=
  let f := word32At m (a + 288)
  { t with
    pc := word64At m a, lnk := word64At m (a + 8), v := tableAt m (a + 16) 0 64, taint := word64At m (a + 272), poison := word64At m (a + 280)
    pred := field 0 7 f |>.setWidth 8
    exited := bit f 8
    wait := if bit f 9 then .gbar else if bit f 10 then .svc else if bit f 12 then .mx else .none
    parked := bit f 11
    waitCount := (field 16 16 f).toNat }

/-- Threads from their records, from index `i`. -/
def loadThreads (m : Assoc 8) (base : Nat) : Nat → List Thread → List Thread
  | _, [] => []
  | i, t :: ts => t.load m (base + 320 * i) :: loadThreads m base (i + 1) ts

/-- A replay-queue entry from its image; where the bundle goes on and what it re-reads are the entry's own when it was saved as it stands. -/
def loadEntry (m : Assoc 8) (a : Nat) (old : Option ReplayEntry) : ReplayEntry :=
  let f := word32At m (a + 4)
  let pc := word64At m (a + 8)
  { word := word32At m a, short := bit f 1, reread := bit f 2, pc := pc, mask := word64At m (a + 16), done := word64At m (a + 24)
    src := (List.range 3).foldl (fun t j => (List.range 64).foldl (fun t L => Assoc.set (64 * j + L) (word32At m (a + 32 + 256 * j + 4 * L)) t) t) []
    taint := BitVec.ofNat 192 (bytesFrom m (a + 816) 24)
    uni := (old.map (·.uni.length)).elim [] (fun n => (List.range (min n 2)).map (fun i => word64At m (a + 800 + 8 * i)))
    next := (old.map (·.next)).getD (pc + (if bit f 1 then 2 else 4))
    keep := (old.map (·.keep)).getD [] }

/-- The entries of a record's queue. -/
def loadEntries (m : Assoc 8) (base n : Nat) (old : List ReplayEntry) : List ReplayEntry :=
  (List.range n).map (fun i => loadEntry m (base + 1024 * i) old[i]?)

/-- The trap frame of a record. -/
def loadFrame (m : Assoc 8) (a : Nat) (t : TrapFrame) : TrapFrame :=
  let u := word64At m (a + 8)
  let n := min 24 (bytesFrom m (a + 144) 8)
  let c := (field 0 5 (word64At m (a + 232))).toNat
  let l := loadEntries m (a + 512) (min 24 (n + c)) t.entries
  let nest := word64At m (a + 192)
  { t with
    cause := word64At m (a + 112), pc := word64At m (a + 120), addr := word64At m (a + 128), mask := word64At m (a + 136)
    queue := l.take n, captured := l.drop n, inHandler := bit u 3, tmasked := bit u 2, bundle := word64At m (a + 224)
    held := bit (word64At m (a + 232)) 8, divergePending := bit (word64At m (a + 232)) 9
    nested := if bit nest 16 then some { code := field 0 16 nest, pc := word64At m (a + 200), mask := word64At m (a + 208), done := word64At m (a + 216)
                                         bundle := (t.nested.map (·.bundle)).getD (word64At m (a + 224)) }
              else none }

/-- The registers of a record whose uniform registers start at an offset. -/
def loadRegs (m : Assoc 8) (a uni : Nat) (r : GroupRegs) : GroupRegs :=
  { r with
    s := Tab.del 0 (tableAt64 m (a + uni) 0 160), k := tableAt m (a + 48) 0 16, perm := tableAt m (a + 36) 1 3, qslot := word32At m (a + 32)
    gang := word64At m (a + 16), iter := word64At m (a + 24), xheld := (field 32 8 (word64At m a)).toNat, usplit := bit (word64At m (a + 8)) 0 }

/-- A group as its record says (19 R448: the service core may have rewritten it). Captured entries keep their bundles. -/
def Group.load (g : Group) (m : Assoc 8) : Group :=
  let a := g.place.record
  let t := loadFrame m a g.trap
  { g with
    regs := loadRegs m a 25088 g.regs, trap := t, threads := loadThreads m (a + 26368) 0 g.threads
    flow := { g.flow with reissue := (t.captured.zip (g.flow.reissue.map Prod.fst)).map (fun e => (e.2, e.1)) } }

/-- A group as its waystation snapshot says (02 R77, 21 R514): registers, PCs, flags and trap state. -/
def Group.loadSnapshot (g snap : Group) : Group :=
  { snap with place := g.place, st := g.st, sched := { g.sched with restore := false }
              flow := { nextId := g.flow.nextId, skipWatch := 0 }, convoy := { snap.convoy with held := 0 } }

/-! ### Errors met while a record is read (19 R451) -/

/-- The code of a sector whose read fails: 0x3602 or 0x3604, by its error; a poisoned sector has the former. -/
def State.badSector (s : State) (k : Nat) : Option (BitVec 16) :=
  let t := s.sector k
  match t.ecc with
  | some .uncorrected => some 0x3602
  | some .misdirected => some 0x3604
  | _ => if t.poison then some 0x3602 else none

/-- Places of a record that hold a PC, a flag byte or a header word, and bytes of each. -/
def Group.vitalFields (g : Group) : List (Nat × Nat) :=
  (0, 512) :: (List.range g.width).flatMap (fun L => [(26368 + 320 * L, 8), (26368 + 320 * L + 289, 1)])

/-- The first uncorrected error in a saved PC, flag byte or header word. -/
def State.vitalError (s : State) (g : Group) : Option (BitVec 16) :=
  g.vitalFields.findSome? (fun f => ((List.range (f.2 / 64 + 1)).map (fun i => (g.place.record + f.1) / 64 + i)).findSome? (fun k =>
    if 64 * k < g.place.record + f.1 + f.2 then s.badSector k else none))

/-- Vector words whose sector is uncorrectable are restored poisoned. -/
def State.poisonWords (s : State) (g : Group) : Group :=
  { g with threads := g.threads.zipIdx.map (fun e =>
      { e.1 with poison := (List.range 64).foldl (fun p n =>
          if (s.badSector ((g.place.record + 26368 + 320 * e.2 + 16 + 4 * n) / 64)).isSome then setBit p n true else p) e.1.poison }) }

/-! ### The image of a block (02 R69) -/

/-- Bytes of an area as a table of its own. -/
def areaAt (m : Assoc 8) (a n : Nat) : Assoc 8 := (m.filter (fun e => decide (a ≤ e.1) && decide (e.1 < a + n))).map (fun e => (e.1 - a, e.2))

/-- Words of an area. -/
def areaWords (m : Assoc 8) (a n : Nat) : Assoc 32 :=
  (((areaAt m a n).map (fun e => e.1 / 4)).eraseDups).foldl (fun t k => Assoc.set k (word32At m (a + 4 * k)) t) []

/-- Poison granules of an area of one bit each. -/
def areaBits (m : Assoc 8) (a n : Nat) : List Nat :=
  (areaAt m a n).flatMap (fun e => ((List.range 8).filter (fun i => e.2.getLsbD i)).map (fun i => 8 * e.1 + i))

/-- A part of a block as its record says. -/
def BlockPart.load (p : BlockPart) (m : Assoc 8) (man : Manifest) : BlockPart :=
  let a := p.record
  { p with
    scratch := areaAt m (a + 9216) (4096 * man.units)
    slabs := areaWords m (a + 9216 + 4096 * man.units) (4096 * man.slabs)
    slabPoison := areaBits m (a + 9216 + 4096 * (man.units + man.slabs)) (8 * man.slabs)
    withdrawn := p.withdrawn.zipIdx.map (fun r =>
      { r.1 with w0 := word64At m (a + 1024 + 32 * r.2), w1 := word64At m (a + 1032 + 32 * r.2), w2 := word64At m (a + 1040 + 32 * r.2),
                 w3 := word64At m (a + 1048 + 32 * r.2) })
    scratchErr := [], slabErr := [] }

/-- Re-issue a withdrawn record on the core of its part (19 R457): to the channel of its number when pinned. Its operation is counted already. -/
def State.requeue (s : State) (core : Nat) (r : CopyRecord) : State :=
  let ch := if r.steal then s.shortest core else r.pin
  let r := { r with core := core, chCore := core, ch := ch, active := false, held := false, remote := [], kept := [], cancel := 0 }
  ({ s with copies := Tab.put (Tab.fresh s.copies) r s.copies }).push [.copyRecordStart core ch]

/-! ### What returns (02 R62) -/

/-- A group that is to return when there is room. -/
def Group.returns (g : Group) : Bool := g.st == .saved || ((g.st == .offCore || g.st == .escalated) && g.sched.returning)

/-- Groups or a block that return together. -/
structure Returning where
  prio : Nat
  savedAt : Nat
  /-- It left a core of this die. -/
  near : Bool
  groups : List (Nat × Group)
  /-- The cores of each part, of blocks saved whole. -/
  blocks : List (Nat × List Nat) := []
  /-- It fits now. -/
  fits : Bool := true

/-- Seat groups beside those of their cores; the numbers stay with the groups. -/
def State.seatNumbered (s : State) (l : List (Nat × Group)) : Option (List (Nat × Group)) :=
  let cores := (l.map (fun e => e.2.place.core)).eraseDups
  (s.seatAll (cores.flatMap (fun c => (s.groupsOn c).map Prod.snd)) (l.map Prod.snd)).map (fun gs => (l.map Prod.fst).zip gs)

/-- The saved groups that return with a group: of its gang, and its twin. -/
def State.returnUnit (s : State) (gi : Nat) (g : Group) : List (Nat × Group) :=
  let gang := if g.regs.gang = 0 then [] else (s.gangGroups g g.regs.gangIdx).filter (fun e => e.2.st == .saved)
  let conv := match s.convoyOf gi with
    | some (_, c) => [c.lead, c.rear].filterMap (fun k => (s.group k).map (fun h => (k, h)))
    | none => []
  ((gi, g) :: (gang ++ conv).filter (fun e => e.1 != gi))

/-- Groups of blocks whose storage is still on the core, with places for them if they fit. -/
def State.groupReturns (s : State) (core : Nat) : List Returning :=
  (s.groups.filter (fun e => e.2.place.core == core && e.2.returns && (s.blk e.2.place.blk).any (fun b => b.st == .resident))).filterMap (fun e =>
    let u := s.returnUnit e.1 e.2
    if u.all (fun x => x.2.returns) then
      let l := if u.all (fun x => s.kindFits x.2.place.core x.2.place.ctx) then s.seatNumbered u else none
      some { prio := s.priorityOf e.2.place.ctx, savedAt := e.2.sched.savedAt, near := true, groups := l.getD [], fits := l.isSome }
    else none)

/-- The saved groups of a part of a block, as of another core. -/
def State.partGroups (s : State) (b i core : Nat) : List (Nat × Group) :=
  (s.groups.filter (fun e => e.2.place.blk == b && e.2.place.bpart == i && e.2.st == .saved)).map (fun e =>
    (e.1, { e.2 with place := { e.2.place with core := core } }))

/-- Seat the parts of a saved block on cores of a list, the lowest-numbered that fit. -/
def State.fitSaved (s : State) (b : Nat) (x : Block) (m : Manifest) : List Nat → List (Nat × List (Nat × Group)) → Option (List (Nat × List (Nat × Group)))
  | [], acc => if acc.length = x.parts.length then some acc else none
  | c :: cs, acc =>
    if acc.length = x.parts.length then some acc
    else if s.keptFrom c b || s.coreFenced c || !s.kindFits c x.ctx || !s.storageFits c m.units m.slabs then s.fitSaved b x m cs acc
    else
      match s.seatNumbered (s.partGroups b acc.length c) with
      | some l => s.fitSaved b x m cs (acc ++ [(c, l)])
      | none => s.fitSaved b x m cs acc

/-- The places of a block saved whole on the cluster of a core, with those of the twin of a convoy on the same die (21 R516). -/
def State.blockSeats (s : State) (core b : Nat) (x : Block) (m : Manifest) : Option (List (Nat × Group) × List (Nat × List Nat)) :=
  let base := fun (b : Nat) (l : List (Nat × List (Nat × Group))) => (l.flatMap Prod.snd, [(b, l.map Prod.fst)])
  (s.fitSaved b x m (clusterCores (core / 4)) []).bind (fun l =>
    match x.twin.bind (fun t => (s.blk t).map (fun y => (t, y))) with
    | none => some (base b l)
    | some (t, y) =>
      ((dieClusters (dieOfCore core)).findSome? (fun k => s.fitSaved t y m ((clusterCores k).filter (fun c => !(l.map Prod.fst).contains c)) [])).map (fun r =>
        ((base b l).1 ++ (base t r).1, (base b l).2 ++ (base t r).2)))

/-- Blocks saved whole that may return to a core; those that have lost every place wait for no resources. -/
def State.blockReturns (s : State) (core : Nat) : List Returning :=
  (s.blks.filter (fun (e : Nat × Block) => e.2.st == .saved && !e.2.rear && (s.dieMaskOf e.2.ctx).getLsbD (dieOfCore core))).filterMap (fun e =>
    (s.manifestOf e.1).bind (fun m =>
      let l := s.blockSeats core e.1 e.2 m
      if l.isNone && e.2.moved then none
      else some { prio := s.priorityOf e.2.ctx, savedAt := e.2.savedAt, near := e.2.parts.any (fun p => dieOfCore p.core == dieOfCore core)
                  groups := (l.map Prod.fst).getD [], blocks := (l.map Prod.snd).getD [], fits := l.isSome }))

/-- What returns first to a core (02 R62): of the highest priority, then from its own die, then saved the longest. What is first of its own die and does not
fit waits, and what comes after it with it; work of another die is looked at only when it fits (log 27). A core kept for a block takes nothing back. -/
def State.nextReturn (s : State) (core : Nat) : Option Returning :=
  if s.room.any (fun r => r.2 == core) then none
  else
    ((sortBy (fun a b => decide (a.prio < b.prio)
      || (a.prio == b.prio && ((a.near && !b.near) || (a.near == b.near && decide (a.savedAt < b.savedAt)))))
        ((s.groupReturns core ++ s.blockReturns core).filter (fun r => r.near || r.fits))).head?).bind (fun r => if r.fits then some r else none)

/-- A block's storage returns to its cores: the records are read, and its withdrawn copies are re-issued before any new one (02 R59). -/
def State.returnBlock (s : State) (b : Nat) (cores : List Nat) : State :=
  match s.blk b, s.manifestOf b with
  | some x, some m =>
    let parts := (x.parts.zip cores).map (fun p => ({ p.1 with core := p.2 }.load s.mem m))
    let s := s.modBlk b (fun x => { x with st := .resident, parts := parts.map (fun p => { p with withdrawn := [] }) })
    let s := { s with mxops := s.mxops.map (fun (e : Nat × MxOp) => if e.2.blk == b then (e.1, { e.2 with core := cores.getD e.2.part e.2.core }) else e) }
    let s := { s with groups := s.groups.map (fun (e : Nat × Group) =>
      if e.2.place.blk == b then (e.1, { e.2 with place := { e.2.place with core := cores.getD e.2.place.bpart e.2.place.core } }) else e) }
    let s := cores.foldl (fun s c => s.dropScalesOf c x.ctx) s
    parts.foldl (fun s p => p.withdrawn.foldl (fun s r => s.requeue p.core r) s) s
  | _, _ => s

/-- Groups are on their way back (02 R43: Restoring). They keep the time of their first placement (DESIGN CHOICE, log 89). -/
def State.returnGroups (s : State) (l : List (Nat × Group)) : State :=
  let s := l.foldl (fun s e => s.modGroup e.1 (fun g => { g with st := .restoring, place := e.2.place })) s
  let s := l.foldl (fun s e => s.dropScalesOf e.2.place.core e.2.place.ctx) s
  let s := ((l.map (fun e => (e.2.place.blk, e.2.place.core))).eraseDups).foldl (fun s k => s.repackGangs k.1 k.2) s
  s.push (l.map (fun e => .restoreComplete e.1))

/-- Saved work returns to a core (02 R62). -/
def execGroupRestore (core : Nat) (s : State) : Host.Outcome State Fault Refusal :=
  match s.nextReturn core with
  | none => .next s
  | some r =>
    let s := r.blocks.foldl (fun s b => s.returnBlock b.1 b.2) s
    .next ((s.returnGroups r.groups).push [.groupRestore core])

/-! ### The end of a restore (19 R448, R454, R455) -/

/-- The halfwords at an address as the group would fetch them, wherever they translate. -/
def State.peekWord (s : State) (g : Group) (pc : Word64) : BitVec 32 :=
  let half := fun (a : Word64) => match s.leafVia g.place.core g.place.ctx (virtOf a) with
    | .ok l => s.codeByte g.code (l.phys (virtOf a) + 1) ++ s.codeByte g.code (l.phys (virtOf a))
    | .error _ => 0
  half (pc + 2) ++ half pc

/-- A nested instruction is issued once more on the lanes of +208 that are not in +216 (19 R448), its sources read from the current registers: by its bundle
at +200 when those are all its threads, else as an entry that goes before what the bundle still has to re-inject. With +208 cleared its bundle goes on at
+200. -/
def State.reissueNested (s : State) (gi : Nat) : State :=
  match s.group gi with
  | none => s
  | some g =>
    match g.trap.nested with
    | none => s
    | some n =>
      let B := n.bundle &&& g.live
      let w := s.peekWord g n.pc
      let short := !bit w 0
      let left := n.mask &&& ~~~n.done
      let e : ReplayEntry := { word := if short then w &&& 0xFFFF#32 else w, short := short, reread := true, pc := n.pc, mask := n.mask, done := n.done
                               next := n.pc + (if short then 2 else 4) }
      let here := n.mask == 0 || (B != 0 && left == B)
      s.modGroup gi (fun g =>
        let g := g.modLanes B (fun _ t => { t with pc := if here then n.pc else e.next, wait := .none })
        { g with trap := { g.trap with nested := none }, flow := { g.flow with reissue := (if here || left == 0 then [] else [(n.bundle, e)]) ++ g.flow.reissue } })

/-- Findings that concerned the group while it was away (20 R473). -/
def State.lateFindings (s : State) (gi : Nat) : State :=
  match s.group gi with
  | none => s
  | some g =>
    let s := s.modGroup gi (fun g => { g with flow := { g.flow with late := [] } })
    g.flow.late.foldl (fun s l => s.findingStop gi l.mask l.code l.ptr l.rep) s

/-- Operations of the group's gangs go on: the next product of a stopped iteration comes 10 clocks after every member is Resident (11 R323), and rendezvous are
looked at again. -/
def State.resumeMx (s : State) (gi : Nat) : State :=
  (s.mxops.filter (fun e => e.2.members.contains gi)).foldl (fun s e =>
    if e.2.running then
      (if e.2.stopped && e.2.members.all (fun m => (s.group m).any (fun g => g.st == .resident || g.st == .ended)) then
         (s.modMx e.1 (fun o => { o with stopped := false, asked := false, begun := false })).later 10 (.mxCompletion e.1 [])
       else s)
    else s.push [.mxRendezvous e.1]) s

/-- The group is Resident again: its record is read, the restore flag is set. It is saved again when its block is being saved whole (17 R426). -/
def State.finishRestore (s : State) (gi : Nat) (g : Group) : State :=
  match s.vitalError g with
  | some c =>
    let key := s.nextKey (s.homeSlice g.place.ctx)
    let r := s.groupReport gi g 0x7001 (detail4 (0#32 ++ c ++ field 0 16 g.trap.cause) g.trap.pc g.trap.addr g.trap.mask)
    let s := s.modGroup gi (fun g =>
      { g with st := .escalated, sched := { g.sched with returning := false }
               trap := { g.trap with nested := some { code := c, pc := 0, mask := 0, done := 0 }, heldSeq := key } })
    ((s.report r).grantX g.partIndex).freed g.place.core
  | none =>
    let s := s.modGroup gi (fun g =>
      let g := s.poisonWords (g.load s.mem)
      { g with st := .resident, sched := { g.sched with restore := true, returning := false, runnableFor := 0, aged := false }, trap := { g.trap with captured := [] } })
    let s := match s.convoyOf gi with
      | some (k, _) => { s with convoys := Tab.modify k (fun c => { c with evicting := false }) s.convoys }
      | none => s
    let s := (((s.repackGangs g.place.blk g.place.core).reissueNested gi).lateFindings gi).resumeMx gi
    let s := s.push (if (s.group gi).any (·.trap.divergePending) then [.iterationDivergedTrap gi] else [])
    let s := if (s.blk g.place.blk).any (fun b => b.st == .saving) then s.beginSave gi else s
    s.bsyncRound g.place.blk

end Sys2Proof.Machine
end

