-- ==== Sys2Proof/Machine/Dispose.lean ====
section
/-! DEFINITION. Dispositions of events (17 R422, 19 R444-R448, 21 R515), the end of groups, blocks, launches and contexts (08 R234, 02 R55, 13 R372), the end of a
restore, and the placement of blocks (02 R56). -/
namespace Sys2Proof.Machine

/-! ### The end of a group or a block by disposition (19 R445) -/

/-- Every live thread exits, and what the group had still to issue is dropped. -/
def Group.kill (g : Group) : Group :=
  let g := { g with trap := { g.trap with held := false, divergePending := false }
                    flow := { g.flow with inject := [], injectMask := 0, reissue := [], runOns := [], late := [] } }
  g.exitThreads g.live

/-- A group ends: on its core as after its last `exit`, away from it at once. -/
def State.killGroup (s : State) (gi : Nat) : State :=
  match s.group gi with
  | none => s
  | some g =>
    if g.st == .ended then s
    else if g.away then (s.modGroup gi Group.kill).endGroup gi g
    else (s.modGroup gi Group.kill).afterExit gi

/-- A block away from its cores has no engine operation any more. -/
def State.dropWork (s : State) (b : Nat) : State :=
  let away := (s.blk b).any (fun x => x.st == .saved)
  let s := { s with mxops := s.mxops.filter (fun e => e.2.blk != b || (e.2.running && !e.2.stopped)) }
  if away then s.modBlk b (fun x => { x with parts := x.parts.map (fun p => { p with withdrawn := [], bars := p.bars.map (fun e => (e.1, { e.2 with outstanding := 0 })) }) })
  else s

/-- A block that has not started leaves its queue. -/
def State.unqueue (s : State) (b : Nat) : State :=
  { s with queues := s.queues.map (fun (q : Nat × List Nat) => (q.1, q.2.filter (fun x => x != b))), blks := s.blks.filter (fun e => !(e.1 == b && e.2.st == .queued)) }

/-- A block ends with every group on every core, and the other block of its convoys with it. -/
def State.killBlock (s : State) (b : Nat) : State :=
  let l := b :: ((s.blk b).bind (·.twin)).toList
  l.foldl (fun s b => (((((s.blockGroups b).foldl State.killGroup s).dropWork b).unqueue b).push [.blockEnd b])) s

/-! ### The end of a context's work (13 R372, steps 1 to 5) -/

/-- A copy record of the context is withdrawn as `cpy.cancel` does. -/
def State.cancelContext (s : State) (c : Nat) : State :=
  let keys := ((s.copies.filter (fun e => e.2.ctx == c)).map Prod.fst)
  let s := keys.foldl State.finishSegment s
  (s.copies.filter (fun e => e.2.ctx == c)).foldl (fun s e => ((s.withdraw e).clearOps e.2).roomOn e.2.core) s

/-- An event of a context that has no disposition yet. -/
def EventRecord.pendingIn (r : EventRecord) (c : Nat) : Bool := r.ctx == BitVec.ofNat 16 c && r.disp == 0 && r.cls != 0xFF

/-- The host's copy of an event, with its disposition (13 R366). -/
def EventRecord.copied (r : EventRecord) (key : Nat) (d : BitVec 8) : HeqEntry :=
  { kind := 2, ctx := r.ctx, body := ({ r with disp := d } : EventRecord).image, cls := r.cls.toNat, key := some key }

/-- The pending events of a context get disposition 5; those that both own are copied to the host (13 R366). -/
def State.closeEvents (s : State) (c : Nat) : State :=
  let both := s.slices.flatMap (fun k => (k.2.log.filter (fun r => r.pendingIn c && r.owner == 2)).map (fun r => r.copied (eventKey k.1 r.seq) 5))
  both.foldl State.holdHeq
    { s with slices := s.slices.map (fun (k : Nat × Slice) => (k.1, { k.2 with log := k.2.log.map (fun r => if r.pendingIn c then { r with disp := 5 } else r) })) }

/-- End the work of a context: nothing of it is placed or becomes ready any more, its groups and blocks end, its copies, events and interrupts go. -/
def State.endContext (s : State) (c : Nat) : State :=
  if c = 0 || !(s.context c).any (·.live) then s
  else
    let s := s.modCtx c (fun x => { x with live := false, tasks := x.tasks.filter (fun e => s.launches.any (fun l => l.2.ctx == c && l.2.slot == e.1)), counters := [],
                                           irq := {}, woken := false })
    let s := { s with host := { s.host with queues := s.host.queues.map (fun (q : Nat × Mailbox) =>
      if field 32 16 q.2.ctl = BitVec.ofNat 16 c && bit q.2.ctl 0 then (q.1, { q.2 with dead := true }) else q) } }
    let s := { s with dies := s.dies.map (fun (d : Nat × Die) => (d.1, { d.2 with ready := d.2.ready.filter (fun l => (Tab.get? l s.launches).any (fun (x : Launch) => x.ctx != c)) })) }
    let bs := (s.blks.filter (fun e => e.2.ctx == c)).map Prod.fst
    let s := ((bs.foldl State.killBlock s).cancelContext c).closeEvents c
    let s := if s.room.any (fun r => (s.blk r.1).isNone) then { s with room := none } else s
    s.push [.destroyDrainComplete c]

/-! ### Dispositions (17 R422, 19 R445, R448) -/

/-- The record of a key. -/
def State.eventRecord (s : State) (key : Nat) : Option EventRecord :=
  ((Tab.get? (key / 2 ^ 32) s.slices).getD {}).log.find? (fun r => r.seq == key % 2 ^ 32)

/-- Change the record of a key. -/
def State.modRecord (s : State) (key : Nat) (f : EventRecord → EventRecord) : State :=
  s.modSlice (key / 2 ^ 32) (fun sl => { sl with log := sl.log.map (fun r => if r.seq = key % 2 ^ 32 then f r else r) })

/-- A disposition acts on a fault-held group (19 R445); 1 is taken as 3 after an unacknowledged remote store (20 R485). -/
def State.disposeHeld (s : State) (gi : Nat) (g : Group) (d : BitVec 8) : State :=
  if d = 1 && g.trap.cause != 0xAD03 then (s.modGroup gi Group.reinject).bsyncRound g.place.blk
  else if d = 2 then s.modGroup gi Group.enterHandler
  else if d = 4 then s.killBlock g.place.blk
  else if d = 5 then s.endContext g.place.ctx
  else s.killGroup gi

/-- The groups an escalation concerns: both of a convoy (21 R515). -/
def State.escalatedWith (s : State) (gi : Nat) (code : BitVec 16) : List Nat :=
  if code = 0x6002 then
    (match s.convoyOf gi with
     | some (_, c) => [c.lead, c.rear]
     | none => [gi])
  else [gi]

/-- A disposition acts on escalated groups (19 R448, 21 R515). -/
def State.disposeEscalated (s : State) (gi : Nat) (g : Group) (code : BitVec 16) (d : BitVec 8) : State :=
  if d = 1 then
    let s := (s.escalatedWith gi code).foldl (fun s k => s.modGroup k (fun g => { g with sched := { g.sched with returning := true } })) s
    let s := { s with convoys := s.convoys.map (fun (e : Nat × Convoy) => if e.2.lead == gi then (e.1, { e.2 with retries := 0, retrying := false }) else e) }
    s.push [.groupRestore g.place.core]
  else if d = 4 then s.killBlock g.place.blk
  else if d = 5 then s.endContext g.place.ctx
  else (s.escalatedWith gi code).foldl State.killGroup s

/-- A disposition acts on the group of its event. One of a fault-held group that is away takes effect at its restore (19 R444). -/
def State.disposeGroup (s : State) (gi : Nat) (key : Nat) (code : BitVec 16) (d : BitVec 8) : State :=
  match s.group gi with
  | none => s
  | some g =>
    if g.trap.held && g.trap.heldSeq == key && g.st != .resident then s
    else if d = 4 then s.killBlock g.place.blk
    else if d = 5 then s.endContext g.place.ctx
    else if g.trap.held && g.trap.heldSeq == key && g.st == .resident then s.disposeHeld gi g d
    else if g.st == .escalated && g.trap.heldSeq == key then s.disposeEscalated gi g code d
    else s

/-- A disposition acts on a held copy record (20 R479): 1 translates the segment again, any other ends the record; 4 and 5 end its block or its context too
(17 R422). -/
def State.disposeCopy (s : State) (key : Nat) (d : BitVec 8) : State :=
  match s.copies.find? (fun e => e.2.held && e.2.heldKey == key) with
  | none => s
  | some (k, r) =>
    let r := { r with held := false }
    let s := { s with copies := Tab.put k r s.copies }
    if d = 1 then s.push [.copySegmentCredit r.chCore r.ch]
    else
      let s := s.abortRecord k r faultedBit
      if d = 4 then s.killBlock r.blk else if d = 5 then s.endContext r.ctx else s

/-- A disposition that was given while the record of an escalated group was being written acts once the group is Escalated (19 R448). -/
def State.lateEscalation (s : State) (key : Nat) (r : EventRecord) : State :=
  match r.grp.bind (fun gi => (s.group gi).map (fun g => (gi, g))) with
  | some (gi, g) => if g.st == .escalated && g.trap.heldSeq == key && !g.sched.returning then s.disposeEscalated gi g r.code r.disp else s
  | none => s

/-- Write a disposition into its record, copy it to the host when both own the event (13 R366, 17 R422), and let it act: on the group, on a held copy
record, or on the context of an event that stopped neither. -/
def State.dispose (s : State) (key : Nat) (d : BitVec 8) : State :=
  match s.eventRecord key with
  | none => s
  | some r =>
    if r.disp != 0 then s.lateEscalation key r
    else
      let s := s.modRecord key (fun r => { r with disp := d })
      let s := if r.owner = 2 then s.holdHeq (r.copied key d) else s
      let s := match r.grp with
        | some gi => s.disposeGroup gi key r.code d
        | none => s
      let s := s.disposeCopy key d
      let s := if d = 5 && r.grp.isNone && r.ctx != 0xFFFF then s.endContext r.ctx.toNat else s
      if r.code = 0xCF02 && d = 1 then { s with plat := { s.plat with hot := false } } else s

/-- An escalated group whose event has its disposition already. -/
def State.escalationOwed (s : State) (g : Group) : Option (Nat × BitVec 8) :=
  if g.st == .escalated && !g.sched.returning then
    (s.eventRecord g.trap.heldSeq).bind (fun r => if r.disp = 0 then none else some (g.trap.heldSeq, r.disp))
  else none

/-- The owner disposes of an event (19 R445). `seq` is the slice times 2^32 plus the sequence number there; codes other than 1 to 8 do nothing. -/
def execEventDisposition (seq : Nat) (disp : BitVec 8) (s : State) : Host.Outcome State Fault Refusal :=
  .next (if disp = 0 || 8 < disp.toNat then s else s.dispose seq disp)

/-! ### The end of a restore (02 R43) -/

/-- A disposition given while the group was away takes effect (19 R444). -/
def State.lateDisposition (s : State) (gi : Nat) : State :=
  match s.group gi with
  | none => s
  | some g =>
    if !g.trap.held then s
    else
      match s.eventRecord g.trap.heldSeq with
      | some r => if r.disp = 0 then s else s.disposeHeld gi g r.disp
      | none => s

/-- The record is read and the restore flag set: the group is Resident (02 R43). -/
def execRestoreComplete (g : Nat) (s : State) : Host.Outcome State Fault Refusal :=
  match s.group g with
  | none => .next s
  | some x =>
    if x.st == .restoring then
      let s := s.finishRestore g x
      .next (if (s.group g).any (fun y => y.st == .resident) then s.lateDisposition g else s)
    else .next s

/-! ### The end of groups, blocks and launches (08 R234, 02 R55) -/

/-- No live thread is left, every access of the group has performed, its releases have passed the gate and are verified, and no register write is outstanding. -/
def State.endReady (s : State) (gi : Nat) (g : Group) : Bool :=
  g.st == .resident && g.live == 0 && !g.trap.held && g.flow.runOns.isEmpty && g.flow.inject.isEmpty && g.flow.reissue.isEmpty
    && g.flow.outstanding.isEmpty && s.stores.all (fun e => e.2.g != gi)
    && s.remotes.all (fun e => e.2.g != gi || e.2.kind == 3 || e.2.kind == 4) && (s.gateOf gi g).isEmpty && (s.coreAt g.place.core).events.all (fun e => e.g != gi)
    && (match s.convoyOf gi with
        | some (_, c) => c.held.isEmpty && c.rearEntry.isNone
        | none => true)

/-- A group whose last thread has exited ends (08 R234). -/
def execGroupEnd (g : Nat) (s : State) : Host.Outcome State Fault Refusal :=
  match s.group g with
  | none => .next s
  | some x => .next (if s.endReady g x then s.endGroup g x else s)

/-- A block can end: its groups have, and no engine operation is outstanding in its barrier map (08 R234). -/
def State.blockDone (s : State) (b : Nat) (x : Block) : Bool :=
  x.st != .queued && (s.groups.filter (fun e => e.2.place.blk == b)).all (fun e => e.2.st == .ended)
    && x.parts.all (fun p => p.bars.all (fun e => e.2.outstanding == 0))
    && s.mxops.all (fun e => e.2.blk != b || !e.2.running)

/-- A block and the other block of its convoys can end. -/
def State.blockEndReady (s : State) (b : Nat) : Bool :=
  match s.blk b with
  | none => false
  | some x => s.blockDone b x && (match x.twin with
    | none => true
    | some t => (s.blk t).all (s.blockDone t))

/-- The last block of a launch has ended: its counter is signalled and its slot is free (02 R55, 13 R371). -/
def State.endLaunch (s : State) (id : Nat) : State :=
  match Tab.get? id s.launches with
  | none => s
  | some l =>
    if l.ended + 1 < l.man.gridSize && (s.context l.ctx).any (·.live) then { s with launches := Tab.put id { l with ended := l.ended + 1 } s.launches }
    else
      let s := { s with launches := Tab.put id { l with ended := l.ended + 1 } s.launches }
      if (s.context l.ctx).any (·.live) then
        let s := { s with launches := Tab.del id s.launches }
        let s := s.modCtx l.ctx (fun c => { c with tasks := Tab.del l.slot c.tasks })
        s.push (match l.signal with
          | some c => [.counterSignal l.ctx c]
          | none => [])
      else if s.blks.any (fun e => e.2.launch == id) then s
      else { s with launches := Tab.del id s.launches }

/-- Remove a block with its groups, records and convoys: what was turned away on its cores tries again. -/
def State.removeBlock (s : State) (b : Nat) (x : Block) : State :=
  let s := { s with blks := Tab.del b s.blks, groups := s.groups.filter (fun e => e.2.place.blk != b), mxops := s.mxops.filter (fun e => e.2.blk != b) }
  let s := { s with convoys := s.convoys.filter (fun e => (s.group e.2.lead).isSome && (s.group e.2.rear).isSome) }
  let s := s.modCtx x.ctx (fun c => { c with reserved := c.reserved.filter (fun r => r.1 != b) })
  (x.parts.map (·.core)).foldl (fun s c => (s.freed c).retryCore c) s

/-- A block ends (08 R234): its scratchpad, slabs, barrier objects and reservations are free. -/
def execBlockEnd (blk : Nat) (s : State) : Host.Outcome State Fault Refusal :=
  if !s.blockEndReady blk then .next s
  else
    match s.blk blk with
    | none => .next s
    | some x =>
      let s := match x.twin.bind (fun t => (s.blk t).map (fun y => (t, y))) with
        | some (t, y) => s.removeBlock t y
        | none => s
      .next ((s.removeBlock blk x).endLaunch x.launch)

/-! ### Placing a block of a queue (02 R56, R62) -/

/-- What a cluster can place of a block: the plan and its records. -/
def State.placeable (s : State) (k b : Nat) : Option (Block × Manifest × Plan × List Nat) :=
  match s.blk b, s.manifestOf b with
  | some x, some m =>
    if !(s.dieMaskOf x.ctx).getLsbD (k / 12) || !(s.context x.ctx).any (·.live) || x.st != .queued then none
    else (s.planIn b x m k).bind (fun p => (s.planRecords x m p).map (fun a => (x, m, p, a)))
  | _, _ => none

/-- The longest queue of a die, the lowest cluster number first, but for one cluster: a cluster's own queue is not counted among those it takes from
(DESIGN CHOICE, log 90). -/
def State.longestQueue (s : State) (die k : Nat) : Option Nat :=
  (dieClusters die).foldl (fun b c =>
    if c = k || (s.queue c).isEmpty then b
    else
      match b with
      | none => some c
      | some d => if (s.queue d).length < (s.queue c).length then some c else b) none

/-- The blocks a cluster considers, in order: one for which a core of it is kept, its own head, the head of the longest queue of its die, those of the
longest queues of the next three dies. -/
def State.candidates (s : State) (k : Nat) : List Nat :=
  let kept := match s.room with
    | some (b, c) => if c / 4 = k then [b] else []
    | none => []
  kept ++ (s.queue k).head?.toList ++ ((List.range 4).filterMap (fun i => s.longestQueue ((k / 12 + i) % 4) k)).filterMap (fun c => (s.queue c).head?)

/-- The block a cluster places next. -/
def State.nextPlaced (s : State) (k : Nat) : Option (Nat × Block × Manifest × Plan × List Nat) :=
  (s.candidates k).findSome? (fun b => (s.placeable k b).map (fun e => (b, e)))

/-- Saved work can return to a core of the cluster's die: it goes first (02 R62). -/
def State.returnsFirst (s : State) (k : Nat) : Option Nat :=
  ((List.range 48).map (fun i => 48 * (k / 12) + i)).find? (fun c => (s.nextReturn c).isSome)

/-- A cluster with free resources places a block, or steals one (02 R56). Nothing placed: another cluster that can place the head of the queue does so,
else it evicts. -/
def execBlockPlace (cluster : Nat) (s : State) : Host.Outcome State Fault Refusal :=
  match s.returnsFirst cluster with
  | some c => .next (s.push [.groupRestore c, .blockPlace cluster])
  | none =>
    match s.nextPlaced cluster with
    | some (b, x, m, p, a) =>
      let s := { s with queues := s.queues.map (fun (q : Nat × List Nat) => (q.1, q.2.filter (fun y => y != b))) }
      let s := s.placeBlock b x m p a
      .next (s.push ([.blockPlace cluster] ++ (if x.cluster = cluster then [] else [.blockPlace x.cluster])
        ++ (s.dies.filter (fun d => !d.2.ready.isEmpty)).map (fun d => .blockDistribute d.1)))
    | none =>
      match (s.queue cluster).head? with
      | none => .next s
      | some b =>
        match (maskClusters (((s.blk b).map (fun x => s.dieMaskOf x.ctx)).getD 0)).find? (fun k => k != cluster && (s.nextPlaced k).isSome) with
        | some k => .next (s.push [.blockPlace k])
        | none => .next (if (s.stuckHead cluster).isSome then s.push [.eviction cluster] else s)

end Sys2Proof.Machine
end

