-- ==== Sys2Proof/Machine/Vector.lean ====
section
/-! DEFINITION. The integer, logical, shift and move instructions of the vector lanes, and the sixteen 16-bit forms (07 R208, 09 R257-R260, R266). -/
namespace Sys2Proof.Machine

/-- `iadd` (09 R257): A + B. -/
def execIadd (d a : BitVec 6) (p : BitVec 2) (b : BitVec 6) (q : BitVec 2) (sw : Bool) (s : State) : Host.Outcome State Fault Refusal :=
  issueVector (vvOp (useVV d a p b q) sw (fun x y => x + y)) s

/-- `isub` (09 R257): A - B. -/
def execIsub (d a : BitVec 6) (p : BitVec 2) (b : BitVec 6) (q : BitVec 2) (sw : Bool) (s : State) : Host.Outcome State Fault Refusal :=
  issueVector (vvOp (useVV d a p b q) sw (fun x y => x - y)) s

/-- `imul` (09 R257): A * B. -/
def execImul (d a : BitVec 6) (p : BitVec 2) (b : BitVec 6) (q : BitVec 2) (sw : Bool) (s : State) : Host.Outcome State Fault Refusal :=
  issueVector (vvOp (useVV d a p b q) sw (fun x y => x * y)) s

/-- `imulh` (09 R257): (A * B) >> 32. -/
def execImulh (d a : BitVec 6) (p : BitVec 2) (b : BitVec 6) (q : BitVec 2) (sw : Bool) (s : State) : Host.Outcome State Fault Refusal :=
  issueVector (vvOp (useVV d a p b q) sw (imulhW)) s

/-- `imulhn` (09 R257): (An * Bn) >> 32. -/
def execImulhn (d a : BitVec 6) (p : BitVec 2) (b : BitVec 6) (q : BitVec 2) (sw : Bool) (s : State) : Host.Outcome State Fault Refusal :=
  issueVector (vvOp (useVV d a p b q) sw (imulhnW)) s

/-- `iaddsat` (09 R257): A + B clamped to the s32 range. -/
def execIaddsat (d a : BitVec 6) (p : BitVec 2) (b : BitVec 6) (q : BitVec 2) (sw : Bool) (s : State) : Host.Outcome State Fault Refusal :=
  issueVector (vvOp (useVV d a p b q) sw (iaddsatW)) s

/-- `isubsat` (09 R257): A - B clamped to the s32 range. -/
def execIsubsat (d a : BitVec 6) (p : BitVec 2) (b : BitVec 6) (q : BitVec 2) (sw : Bool) (s : State) : Host.Outcome State Fault Refusal :=
  issueVector (vvOp (useVV d a p b q) sw (isubsatW)) s

/-- `and` (09 R257): a AND b. -/
def execVAnd (d a : BitVec 6) (p : BitVec 2) (b : BitVec 6) (q : BitVec 2) (sw : Bool) (s : State) : Host.Outcome State Fault Refusal :=
  issueVector (vvOp (useVV d a p b q) sw (fun x y => x &&& y)) s

/-- `or` (09 R257): a OR b. -/
def execVOr (d a : BitVec 6) (p : BitVec 2) (b : BitVec 6) (q : BitVec 2) (sw : Bool) (s : State) : Host.Outcome State Fault Refusal :=
  issueVector (vvOp (useVV d a p b q) sw (fun x y => x ||| y)) s

/-- `xor` (09 R257): a XOR b. -/
def execVXor (d a : BitVec 6) (p : BitVec 2) (b : BitVec 6) (q : BitVec 2) (sw : Bool) (s : State) : Host.Outcome State Fault Refusal :=
  issueVector (vvOp (useVV d a p b q) sw (fun x y => x ^^^ y)) s

/-- `andn` (09 R257): a AND NOT b. -/
def execAndn (d a : BitVec 6) (p : BitVec 2) (b : BitVec 6) (q : BitVec 2) (sw : Bool) (s : State) : Host.Outcome State Fault Refusal :=
  issueVector (vvOp (useVV d a p b q) sw (fun x y => x &&& ~~~y)) s

/-- `shl` (09 R257): a << b[4:0]. -/
def execShl (d a : BitVec 6) (p : BitVec 2) (b : BitVec 6) (q : BitVec 2) (sw : Bool) (s : State) : Host.Outcome State Fault Refusal :=
  issueVector (vvOp (useVV d a p b q) sw (shlW)) s

/-- `shr` (09 R257): An >> b[4:0]. -/
def execShr (d a : BitVec 6) (p : BitVec 2) (b : BitVec 6) (q : BitVec 2) (sw : Bool) (s : State) : Host.Outcome State Fault Refusal :=
  issueVector (vvOp (useVV d a p b q) sw (shrW)) s

/-- `sar` (09 R257): A >> b[4:0]. -/
def execSar (d a : BitVec 6) (p : BitVec 2) (b : BitVec 6) (q : BitVec 2) (sw : Bool) (s : State) : Host.Outcome State Fault Refusal :=
  issueVector (vvOp (useVV d a p b q) sw (sarW)) s

/-- `rotl` (09 R257): a rotated left by b[4:0]. -/
def execRotl (d a : BitVec 6) (p : BitVec 2) (b : BitVec 6) (q : BitVec 2) (sw : Bool) (s : State) : Host.Outcome State Fault Refusal :=
  issueVector (vvOp (useVV d a p b q) sw (rotlW)) s

/-- `imin` (09 R257): signed minimum. -/
def execImin (d a : BitVec 6) (p : BitVec 2) (b : BitVec 6) (q : BitVec 2) (sw : Bool) (s : State) : Host.Outcome State Fault Refusal :=
  issueVector (vvOp (useVV d a p b q) sw (iminW)) s

/-- `imax` (09 R257): signed maximum. -/
def execImax (d a : BitVec 6) (p : BitVec 2) (b : BitVec 6) (q : BitVec 2) (sw : Bool) (s : State) : Host.Outcome State Fault Refusal :=
  issueVector (vvOp (useVV d a p b q) sw (imaxW)) s

/-- `nmin` (09 R257): unsigned minimum. -/
def execNmin (d a : BitVec 6) (p : BitVec 2) (b : BitVec 6) (q : BitVec 2) (sw : Bool) (s : State) : Host.Outcome State Fault Refusal :=
  issueVector (vvOp (useVV d a p b q) sw (nminW)) s

/-- `nmax` (09 R257): unsigned maximum. -/
def execNmax (d a : BitVec 6) (p : BitVec 2) (b : BitVec 6) (q : BitVec 2) (sw : Bool) (s : State) : Host.Outcome State Fault Refusal :=
  issueVector (vvOp (useVV d a p b q) sw (nmaxW)) s

/-- `pack2h` (09 R260): a[15:0] OR (b[15:0] << 16). -/
def execPack2h (d a : BitVec 6) (p : BitVec 2) (b : BitVec 6) (q : BitVec 2) (sw : Bool) (s : State) : Host.Outcome State Fault Refusal :=
  issueVector (vvOp (useVV d a p b q) sw (fun x y => field 0 16 y ++ field 0 16 x)) s

/-- `bperm` (09 R260): bytes of a selected by b. -/
def execBperm (d a : BitVec 6) (p : BitVec 2) (b : BitVec 6) (q : BitVec 2) (sw : Bool) (s : State) : Host.Outcome State Fault Refusal :=
  issueVector (vvOp (useVV d a p b q) sw (bpermW)) s

/-- `fcopysign` (09 R260): a with the sign of b. -/
def execFcopysign (d a : BitVec 6) (p : BitVec 2) (b : BitVec 6) (q : BitVec 2) (sw : Bool) (s : State) : Host.Outcome State Fault Refusal :=
  issueVector (vvOp (useVV d a p b q) sw (copysignW)) s

/-- `nabsdiff` (09 R260): |An - Bn|. -/
def execNabsdiff (d a : BitVec 6) (p : BitVec 2) (b : BitVec 6) (q : BitVec 2) (sw : Bool) (s : State) : Host.Outcome State Fault Refusal :=
  issueVector (vvOp (useVV d a p b q) sw (nabsdiffW)) s

/-- `iaddmin` (09 R257): min(D, A + B clamped). -/
def execIaddmin (d a : BitVec 6) (p : BitVec 2) (b : BitVec 6) (q : BitVec 2) (sw : Bool) (s : State) : Host.Outcome State Fault Refusal :=
  issueVector (vvdOp (useAddMin d a p b q) sw iaddminW) s

/-- `iadd` with a uniform operand (09 R257): A + B, b = s[sb][31:0]. -/
def execIaddVs (d a : BitVec 6) (p : BitVec 2) (u : BitVec 8) (sw : Bool) (s : State) : Host.Outcome State Fault Refusal :=
  issueVector (vsOp (useVS d a p u) sw (fun x y => x + y)) s

/-- `isub` with a uniform operand (09 R257): A - B, b = s[sb][31:0]. -/
def execIsubVs (d a : BitVec 6) (p : BitVec 2) (u : BitVec 8) (sw : Bool) (s : State) : Host.Outcome State Fault Refusal :=
  issueVector (vsOp (useVS d a p u) sw (fun x y => x - y)) s

/-- `imul` with a uniform operand (09 R257): A * B, b = s[sb][31:0]. -/
def execImulVs (d a : BitVec 6) (p : BitVec 2) (u : BitVec 8) (sw : Bool) (s : State) : Host.Outcome State Fault Refusal :=
  issueVector (vsOp (useVS d a p u) sw (fun x y => x * y)) s

/-- `and` with a uniform operand (09 R257): a AND b, b = s[sb][31:0]. -/
def execAndVs (d a : BitVec 6) (p : BitVec 2) (u : BitVec 8) (sw : Bool) (s : State) : Host.Outcome State Fault Refusal :=
  issueVector (vsOp (useVS d a p u) sw (fun x y => x &&& y)) s

/-- `or` with a uniform operand (09 R257): a OR b, b = s[sb][31:0]. -/
def execOrVs (d a : BitVec 6) (p : BitVec 2) (u : BitVec 8) (sw : Bool) (s : State) : Host.Outcome State Fault Refusal :=
  issueVector (vsOp (useVS d a p u) sw (fun x y => x ||| y)) s

/-- `xor` with a uniform operand (09 R257): a XOR b, b = s[sb][31:0]. -/
def execXorVs (d a : BitVec 6) (p : BitVec 2) (u : BitVec 8) (sw : Bool) (s : State) : Host.Outcome State Fault Refusal :=
  issueVector (vsOp (useVS d a p u) sw (fun x y => x ^^^ y)) s

/-- `shl` with a uniform operand (09 R257): a << b[4:0], b = s[sb][31:0]. -/
def execShlVs (d a : BitVec 6) (p : BitVec 2) (u : BitVec 8) (sw : Bool) (s : State) : Host.Outcome State Fault Refusal :=
  issueVector (vsOp (useVS d a p u) sw (shlW)) s

/-- `shr` with a uniform operand (09 R257): An >> b[4:0], b = s[sb][31:0]. -/
def execShrVs (d a : BitVec 6) (p : BitVec 2) (u : BitVec 8) (sw : Bool) (s : State) : Host.Outcome State Fault Refusal :=
  issueVector (vsOp (useVS d a p u) sw (shrW)) s

/-- `sar` with a uniform operand (09 R257): A >> b[4:0], b = s[sb][31:0]. -/
def execSarVs (d a : BitVec 6) (p : BitVec 2) (u : BitVec 8) (sw : Bool) (s : State) : Host.Outcome State Fault Refusal :=
  issueVector (vsOp (useVS d a p u) sw (sarW)) s

/-- `imin` with a uniform operand (09 R257): signed minimum, b = s[sb][31:0]. -/
def execIminVs (d a : BitVec 6) (p : BitVec 2) (u : BitVec 8) (sw : Bool) (s : State) : Host.Outcome State Fault Refusal :=
  issueVector (vsOp (useVS d a p u) sw (iminW)) s

/-- `imax` with a uniform operand (09 R257): signed maximum, b = s[sb][31:0]. -/
def execImaxVs (d a : BitVec 6) (p : BitVec 2) (u : BitVec 8) (sw : Bool) (s : State) : Host.Outcome State Fault Refusal :=
  issueVector (vsOp (useVS d a p u) sw (imaxW)) s

/-- `iaddmin` with a uniform operand (09 R257). -/
def execIaddminVs (d a : BitVec 6) (p : BitVec 2) (u : BitVec 8) (sw : Bool) (s : State) : Host.Outcome State Fault Refusal :=
  issueVector (vsdOp (useAddMinVs d a p u) sw iaddminW) s

/-- `iaddi` (09 R258): the immediate is sign-extended. -/
def execIaddi (d a : BitVec 6) (p : BitVec 2) (i : BitVec 10) (sw : Bool) (s : State) : Host.Outcome State Fault Refusal :=
  issueVector (vuOp (useVU d a p) sw (fun x => x + sext 32 i)) s

/-- `andi` (09 R258): the immediate is sign-extended. -/
def execAndi (d a : BitVec 6) (p : BitVec 2) (i : BitVec 10) (sw : Bool) (s : State) : Host.Outcome State Fault Refusal :=
  issueVector (vuOp (useVU d a p) sw (fun x => x &&& sext 32 i)) s

/-- `ori` (09 R258): the immediate is sign-extended. -/
def execOri (d a : BitVec 6) (p : BitVec 2) (i : BitVec 10) (sw : Bool) (s : State) : Host.Outcome State Fault Refusal :=
  issueVector (vuOp (useVU d a p) sw (fun x => x ||| sext 32 i)) s

/-- `xori` (09 R258): the immediate is sign-extended. -/
def execXori (d a : BitVec 6) (p : BitVec 2) (i : BitVec 10) (sw : Bool) (s : State) : Host.Outcome State Fault Refusal :=
  issueVector (vuOp (useVU d a p) sw (fun x => x ^^^ sext 32 i)) s

/-- `shli` (09 R258). -/
def execShli (d a : BitVec 6) (p : BitVec 2) (i : BitVec 5) (sw : Bool) (s : State) : Host.Outcome State Fault Refusal :=
  issueVector (vuOp (useVU d a p) sw (fun x => shlW x (zext 32 i))) s

/-- `shri` (09 R258). -/
def execShri (d a : BitVec 6) (p : BitVec 2) (i : BitVec 5) (sw : Bool) (s : State) : Host.Outcome State Fault Refusal :=
  issueVector (vuOp (useVU d a p) sw (fun x => shrW x (zext 32 i))) s

/-- `sari` (09 R258). -/
def execSari (d a : BitVec 6) (p : BitVec 2) (i : BitVec 5) (sw : Bool) (s : State) : Host.Outcome State Fault Refusal :=
  issueVector (vuOp (useVU d a p) sw (fun x => sarW x (zext 32 i))) s

/-- `imad` (09 R260): (A * B + C)[31:0]. -/
def execImad (d a b c : BitVec 6) (sw : Bool) (s : State) : Host.Outcome State Fault Refusal :=
  issueVector (laneOp (useV4 d a b c) sw (fun i => [i.a * i.b + i.c])) s

/-- The operands of `sel`: two words and a predicate (09 R260). -/
def useSel (d a b : BitVec 6) (c : BitVec 3) : Use :=
  { vsrc := [{ reg := a.toNat }, { reg := b.toNat }], psrc := [c.toNat], vdst := [(d.toNat, 1)], fixed := true }

/-- `sel` as a vector operation: it takes the taint of the source it selects (03 R89). -/
def selOp (d a b : BitVec 6) (c : BitVec 3) (sw : Bool) : VecOp :=
  { use := useSel d a b c, sw := sw
    writes := fun _ _ ins => ins.flatMap (laneWrite (useSel d a b c) (fun i => [if i.p.getD 0 false then i.a else i.b])
      (fun i => if i.p.getD 0 false then i.tv.getD 0 false else i.tv.getD 1 false)) }

/-- `sel` (09 R260): a where the thread's predicate is true, else b. -/
def execSel (d a b : BitVec 6) (c : BitVec 3) (sw : Bool) (s : State) : Host.Outcome State Fault Refusal :=
  issueVector (selOp d a b c sw) s

/-- `bfe` (09 R260): a bit field, zero-extended. -/
def execBfe (d a b c : BitVec 6) (sw : Bool) (s : State) : Host.Outcome State Fault Refusal :=
  issueVector (laneOp (useV4 d a b c) sw (fun i => [bfeW i.a i.b i.c])) s

/-- The operands of `bfi`: it reads its destination too (09 R260). -/
def useBfi (d a b c : BitVec 6) : Use :=
  { vsrc := [{ reg := a.toNat }, { reg := b.toNat }, { reg := c.toNat }, { reg := d.toNat }], vdst := [(d.toNat, 1)], fixed := true }

/-- `bfi` (09 R260): d with a bit field replaced. -/
def execBfi (d a b c : BitVec 6) (sw : Bool) (s : State) : Host.Outcome State Fault Refusal :=
  issueVector (laneOp (useBfi d a b c) sw (fun i => [bfiW i.a i.b i.c (i.v.getD 3 0)])) s

/-- `mov` (09 R259): a. -/
def execMov (d a : BitVec 6) (p : BitVec 2) (sw : Bool) (s : State) : Host.Outcome State Fault Refusal :=
  issueVector (vuOp (useVU d a p) sw (fun x => x)) s

/-- `not` (09 R259): NOT a. -/
def execVNot (d a : BitVec 6) (p : BitVec 2) (sw : Bool) (s : State) : Host.Outcome State Fault Refusal :=
  issueVector (vuOp (useVU d a p) sw (fun x => ~~~x)) s

/-- `ineg` (09 R259): -A. -/
def execIneg (d a : BitVec 6) (p : BitVec 2) (sw : Bool) (s : State) : Host.Outcome State Fault Refusal :=
  issueVector (vuOp (useVU d a p) sw (fun x => -x)) s

/-- `iabs` (09 R259): |A|. -/
def execIabs (d a : BitVec 6) (p : BitVec 2) (sw : Bool) (s : State) : Host.Outcome State Fault Refusal :=
  issueVector (vuOp (useVU d a p) sw (iabsW)) s

/-- `clz` (09 R259): leading zero bits. -/
def execClz (d a : BitVec 6) (p : BitVec 2) (sw : Bool) (s : State) : Host.Outcome State Fault Refusal :=
  issueVector (vuOp (useVU d a p) sw (fun x => BitVec.ofNat 32 (clzFrom x 32))) s

/-- `ctz` (09 R259): trailing zero bits. -/
def execCtz (d a : BitVec 6) (p : BitVec 2) (sw : Bool) (s : State) : Host.Outcome State Fault Refusal :=
  issueVector (vuOp (useVU d a p) sw (fun x => BitVec.ofNat 32 (ctzFrom x 32 0))) s

/-- `popc` (09 R259): one bits. -/
def execPopc (d a : BitVec 6) (p : BitVec 2) (sw : Bool) (s : State) : Host.Outcome State Fault Refusal :=
  issueVector (vuOp (useVU d a p) sw (fun x => BitVec.ofNat 32 (popFrom x 32))) s

/-- `brev` (09 R259): bits reversed. -/
def execBrev (d a : BitVec 6) (p : BitVec 2) (sw : Bool) (s : State) : Host.Outcome State Fault Refusal :=
  issueVector (vuOp (useVU d a p) sw (fun x => revFrom x 32)) s

/-- `fabs` (09 R264): bit 31 cleared. -/
def execFabs (d a : BitVec 6) (p : BitVec 2) (sw : Bool) (s : State) : Host.Outcome State Fault Refusal :=
  issueVector (vuOp (useVU d a p) sw (fun x => x &&& 0x7FFFFFFF#32)) s

/-- `fneg` (09 R264): bit 31 inverted. -/
def execFneg (d a : BitVec 6) (p : BitVec 2) (sw : Bool) (s : State) : Host.Outcome State Fault Refusal :=
  issueVector (vuOp (useVU d a p) sw (fun x => x ^^^ 0x80000000#32)) s

/-- `movi` (07 R211, 09 R266): the immediate sign-extended. -/
def execMovi (d : BitVec 6) (i : BitVec 16) (sw : Bool) (s : State) : Host.Outcome State Fault Refusal :=
  issueVector (laneOp (useVL d) sw (fun _ => [sext 32 i])) s

/-- `movhi` (07 R211, 09 R266): the immediate in bits [31:16], d[15:0] kept. -/
def execMovhi (d : BitVec 6) (i : BitVec 16) (sw : Bool) (s : State) : Host.Outcome State Fault Refusal :=
  issueVector (vuOp (useVU d d 0) sw (fun x => i ++ field 0 16 x)) s

/-- `movf` (07 R211, 09 R266): the immediate is the upper half of a binary32 value. -/
def execMovf (d : BitVec 6) (i : BitVec 16) (sw : Bool) (s : State) : Host.Outcome State Fault Refusal :=
  issueVector (laneOp (useVL d) sw (fun _ => [i ++ 0#16])) s

/-- The 16-bit `mov` (07 R208): vd := vs. -/
def execMov16 (d b : BitVec 5) (sw : Bool) (s : State) : Host.Outcome State Fault Refusal :=
  issueVector (vuOp (useVU (zext 6 d) (zext 6 b) 0) sw (fun x => x)) s

/-- The 16-bit `iadd` (07 R208): A + B with a = vd, b = vs. -/
def execIadd16 (d b : BitVec 5) (sw : Bool) (s : State) : Host.Outcome State Fault Refusal :=
  issueVector (vvOp (use16 d b) sw (fun x y => x + y)) s

/-- The 16-bit `isub` (07 R208): A - B with a = vd, b = vs. -/
def execIsub16 (d b : BitVec 5) (sw : Bool) (s : State) : Host.Outcome State Fault Refusal :=
  issueVector (vvOp (use16 d b) sw (fun x y => x - y)) s

/-- The 16-bit `imul` (07 R208): A * B with a = vd, b = vs. -/
def execImul16 (d b : BitVec 5) (sw : Bool) (s : State) : Host.Outcome State Fault Refusal :=
  issueVector (vvOp (use16 d b) sw (fun x y => x * y)) s

/-- The 16-bit `and` (07 R208): a AND b with a = vd, b = vs. -/
def execAnd16 (d b : BitVec 5) (sw : Bool) (s : State) : Host.Outcome State Fault Refusal :=
  issueVector (vvOp (use16 d b) sw (fun x y => x &&& y)) s

/-- The 16-bit `or` (07 R208): a OR b with a = vd, b = vs. -/
def execOr16 (d b : BitVec 5) (sw : Bool) (s : State) : Host.Outcome State Fault Refusal :=
  issueVector (vvOp (use16 d b) sw (fun x y => x ||| y)) s

/-- The 16-bit `xor` (07 R208): a XOR b with a = vd, b = vs. -/
def execXor16 (d b : BitVec 5) (sw : Bool) (s : State) : Host.Outcome State Fault Refusal :=
  issueVector (vvOp (use16 d b) sw (fun x y => x ^^^ y)) s

/-- The 16-bit `shl` (07 R208): a << b[4:0] with a = vd, b = vs. -/
def execShl16 (d b : BitVec 5) (sw : Bool) (s : State) : Host.Outcome State Fault Refusal :=
  issueVector (vvOp (use16 d b) sw (shlW)) s

/-- The 16-bit `shr` (07 R208): An >> b[4:0] with a = vd, b = vs. -/
def execShr16 (d b : BitVec 5) (sw : Bool) (s : State) : Host.Outcome State Fault Refusal :=
  issueVector (vvOp (use16 d b) sw (shrW)) s

/-- The 16-bit `sar` (07 R208): A >> b[4:0] with a = vd, b = vs. -/
def execSar16 (d b : BitVec 5) (sw : Bool) (s : State) : Host.Outcome State Fault Refusal :=
  issueVector (vvOp (use16 d b) sw (sarW)) s

/-- The 16-bit `imin` (07 R208): signed minimum with a = vd, b = vs. -/
def execImin16 (d b : BitVec 5) (sw : Bool) (s : State) : Host.Outcome State Fault Refusal :=
  issueVector (vvOp (use16 d b) sw (iminW)) s

/-- The 16-bit `imax` (07 R208): signed maximum with a = vd, b = vs. -/
def execImax16 (d b : BitVec 5) (sw : Bool) (s : State) : Host.Outcome State Fault Refusal :=
  issueVector (vvOp (use16 d b) sw (imaxW)) s

end Sys2Proof.Machine
end

