-- ==== Sys2Proof/Machine/Writeback.lean ====
section
/-! DEFINITION. What completes an issued instruction: vector results (09 R255, 21 R493-R498), MX operations (11 R327, R328), load data (10 R280), the end of parking (02 R36), the register
deadlock (19 R449), and fencing (17 R425, R426, 21 R498). -/
namespace Sys2Proof.Machine

/-! ### Fencing (17 R425, R426) -/

/-- A block sits on a fenced unit: one of its groups has its place there, or a core that holds its scratchpad and slabs has no partition left. -/
def State.onFenced (s : State) (b : Nat) : Bool :=
  s.groups.any (fun e => e.2.place.blk == b && e.2.st != .ended && s.fenced.contains e.2.partIndex)
    || (s.blk b).any (fun x => x.parts.any (fun p => s.coreFenced p.core))

/-- The blocks that sit on a fenced unit. -/
def State.blocksUnder (s : State) : List Nat := (Tab.keys s.blks).filter s.onFenced

/-- A block is saved whole because of a fenced unit, with its twin of a convoy (21 R516). -/
def State.moveAway (s : State) (b : Nat) : State :=
  (b :: (((s.blk b).bind (·.twin)).toList)).foldl (fun s k =>
    if (s.blk k).any (fun x => x.st == .resident) then (s.modBlk k (fun x => { x with moved := true })).beginBlockSave k else s) s

/-- Fence partitions: nothing is placed there any more, and the blocks on them are saved whole, to return elsewhere. -/
def State.fence (s : State) (ks : List Nat) (path : BitVec 32) : State :=
  let s := { s with fenced := s.fenced ++ ks.filter (fun k => !s.fenced.contains k) }
  let s := s.report { code := 0xD002, path := path, slice := 16 * (ks.headD 0 / 768), auto := some 8 }
  s.blocksUnder.foldl State.moveAway s

/-- Every group of a block, and of the twin of a convoy, is placed and initialised: all become Resident together (02 R28, R43). One whose place
was fenced meanwhile is saved whole (17 R426). -/
def execBlockResident (blk : Nat) (s : State) : Host.Outcome State Fault Refusal :=
  match s.blk blk with
  | none => .next s
  | some x =>
    let l := blk :: x.twin.toList
    if l.all (fun b => (s.blk b).any (fun y => y.st == .placing)) then
      let s := l.foldl (fun s b => s.modBlk b (fun y => { y with st := .resident })) s
      let s := { s with groups := s.groups.map (fun (e : Nat × Group) =>
        if l.contains e.2.place.blk && e.2.st == .placing then (e.1, { e.2 with st := .resident }) else e) }
      .next ((l.filter s.onFenced).foldl State.moveAway s)
    else .next s

/-! ### Completion of an outstanding instruction -/

/-- An outstanding instruction of a group. -/
def Group.out (g : Group) (id : Nat) : Option Outstanding := g.flow.outstanding.find? (fun o => o.id == id)

/-- It leaves the scoreboard. -/
def Group.takeOut (g : Group) (id : Nat) : Group := { g with flow := { g.flow with outstanding := g.flow.outstanding.filter (fun o => o.id != id) } }

/-- The writes that take place: those of an exited thread are discarded (08 R233). -/
def Group.liveWrites (g : Group) (l : List RegWrite) : List RegWrite :=
  l.filter (fun w => match w with
    | .v L _ _ _ _ => !(g.thread L).exited
    | .p L _ _ => !(g.thread L).exited
    | .lnk L _ => !(g.thread L).exited
    | _ => true)

/-- The results of an instruction are written, but a uniform register that a younger instruction has written keeps its value (02 R39). -/
def Group.writeBack (g : Group) (o : Outstanding) : Group := ((g.liveWrites o.writes).foldl (Group.land o.id) g).takeOut o.id

/-- The parked threads of a group. -/
def Group.parkedThreads (g : Group) : Mask := g.which (fun t => t.parked && !t.exited)

/-- After a completion: parked bundles are looked at again, and threads turned away try again. -/
def State.afterCompletion (s : State) (gi : Nat) : State :=
  match s.group gi with
  | none => s
  | some g =>
    let s := s.modGroup gi Group.wakeTurned
    if g.parkedThreads = 0 then s else s.push [.bundleUnpark gi g.parkedThreads]

/-- A parked thread may go on: no register write of the bundle it parked with is outstanding. -/
def Group.unparkable (g : Group) (L : Nat) : Bool := (g.thread L).parked && !g.pendingOn (g.thread L).parkedWith

/-- A parked bundle becomes runnable (02 R36). -/
def execBundleUnpark (g : Nat) (m : BitVec 64) (s : State) : Host.Outcome State Fault Refusal :=
  .next (s.modGroup g (fun x => x.modLanes (maskOf ((maskList m).filter x.unparkable)) (fun _ t => { t with parked := false })))

/-! ### Vector results and the shadow comparison (21 R493-R498) -/

/-- The main unit's result for a thread: the first word written for it, or the uniform result. -/
def Outstanding.resultOf (o : Outstanding) (L : Nat) : Word32 :=
  (o.writes.findSome? (fun w => match w with
    | .v K _ x _ _ => if K = L then some x else none
    | .s _ x => some (lowWord x)
    | _ => none)).getD 0

/-- The threads whose results the shadow contradicts: those given, and an injected one. -/
def Outstanding.disagreeing (o : Outstanding) (bad : Mask) : Mask :=
  if o.shadowed then (bad &&& o.entry.mask) ||| ((o.injected.map (fun i => oneBit i.1 &&& o.entry.mask)).getD 0) else 0

/-- The shadow's sign and M for a thread: known for an injected disagreement, else free. -/
def shadowBits (s : State) (o : Outstanding) (L : Nat) : BitVec 16 :=
  match o.injected with
  | some (K, x) => if K = L then x else field 0 16 (Config.freeWord s.free)
  | none => field 0 16 (Config.freeWord s.free)

/-- The stop of a disagreement (21 R495). -/
def shadowStop (s : State) (gi : Nat) (g : Group) (o : Outstanding) (dis : Mask) : Stop :=
  let L := lowestOf dis
  let addr : Word64 := 0#16 ++ shadowBits s o L ++ o.resultOf L
  let r := s.groupReport gi g 0x5001 (detail4 addr 0 0 0)
  { code := 0x5001, mask := dis, addr := addr, rep := some { r with info := r.info ||| (if o.injected.isSome then 0x200 else 0) } }

/-- An instruction stands in the queue of a run-on or of the trap frame of its bundle already. -/
def Group.queued (g : Group) (B : Mask) (e : ReplayEntry) : Bool :=
  (g.trap.queue.any (sameIssue e) && g.trap.bundle &&& B != 0)
    || g.flow.runOns.any (fun r => r.bundle &&& B != 0 && r.queue.any (sameIssue e))

/-- Its entry there is not completed on the lanes of `bad`. -/
def Group.unfinishQueued (g : Group) (B : Mask) (e : ReplayEntry) (bad : Mask) : Group :=
  { g with trap := { g.trap with queue := if g.trap.bundle &&& B != 0 then unfinish e bad g.trap.queue else g.trap.queue }
           flow := { g.flow with runOns := g.flow.runOns.map (fun r =>
             if r.bundle &&& B != 0 then { r with queue := unfinish e bad r.queue } else r) } }

/-- A real disagreement counts against the partition; the fourth fences it (21 R498). -/
def State.countShadow (s : State) (k : Nat) : State :=
  let s := s.modPart k (fun p => { p with shadowCount := p.shadowCount + 1 })
  if (s.part k).shadowCount = 4 && !s.fenced.contains k then s.fence [k] (partitionPath (k / 16) (k % 16) 0) else s

/-- The lane condition of a disagreement: nothing of the instruction is written. -/
def State.shadowFault (s : State) (gi : Nat) (g : Group) (o : Outstanding) (dis bad : Mask) : State :=
  let st := shadowStop s gi g o dis
  let s := (s.modGroup gi (fun g => g.takeOut o.id))
  let s := { s with free := s.free + 1 }
  let s :=
    if g.queued o.bundle o.entry then
      (s.modGroup gi (fun g => g.unfinishQueued o.bundle o.entry o.entry.mask)).report { (st.rep.getD { code := 0x5001 }) with auto := some 6, grp := none }
    else
      let sel : Sel := { g := gi, bundle := o.bundle, mask := o.entry.mask }
      s.laneStop { sels := [sel], pc := o.entry.pc, word := o.entry.word, short := o.entry.short, replay := if o.replay then some o.entry else none }
        sel { o.entry with done := 0 } o.sw { stop := st, done := 0 }
  if bad &&& o.entry.mask != 0 then s.countShadow g.partIndex else s

/-- The uniform pipeline of a partition is free after a division: instructions turned away there try again (08 R245). -/
def State.freePipeline (s : State) (o : Outstanding) (k : Nat) : State :=
  if o.entry.divides then { s with groups := s.groups.map (fun e => if e.2.partIndex = k then (e.1, e.2.wakeTurned) else e) } else s

/-- The results of a vector or uniform instruction are written (08 R245, 09 R255), unless its shadow disagrees on a thread of `bad` (21 R495). -/
def execVectorWriteback (g : Nat) (id : Nat) (bad : BitVec 64) (s : State) : Host.Outcome State Fault Refusal :=
  match s.group g with
  | none => .next s
  | some x =>
    match x.out id with
    | none => .next s
    | some o =>
      if o.kind == .load then .next s
      else
        let dis := o.disagreeing bad
        if dis = 0 then .next (((s.modGroup g (fun x => x.writeBack o)).freePipeline o x.partIndex).afterCompletion g)
        else .next ((s.shadowFault g x o dis bad).afterCompletion g)

/-! ### Completion of MX operations (11 R327, R328, 21 R497, R498) -/

/-- The record of matrix shadow disagreements, once for the operation, which counts against the partition of the leader's array (21 R497, R498). -/
def State.reportShadow (s : State) (o : MxOp) (bad : List Nat) : State :=
  match bad, o.members.head?.bind s.group with
  | w :: _, some g =>
    (s.countShadow g.partIndex).report { s.groupReport 0 g 0x5101 (detail4 (BitVec.ofNat 64 (w / 1024 % 512 + 512 * (w % 1024))) (BitVec.ofNat 64 (min bad.length (2 ^ 32 - 1))) 0 0) with
      path := partitionPath g.place.core g.place.part 1, grp := none, auto := some 6 }
  | _, _ => s

/-- An operation is done: its status, the trap of a diverged iteration, and what waited for it. -/
def State.finishMx (s : State) (id : Nat) (o : MxOp) (bad : List Nat) (r : MxResult) : State :=
  let res := if bad.isEmpty then r else { r with outcome := 4, flags := { r.flags with shadow := true } }
  let s := { s with mxops := Tab.del id s.mxops }
  let s := s.reportShadow o bad
  let s := if res.iterTrap then s.divergeMembers o res else s
  let s := if o.desc.bar = 0x3FFF then s else s.completeOn o o.desc.bar res
  ((s.retryGang o).retryBlock o.blk).push [.blockEnd o.blk]

/-- An `mpoly` or `miter` stands before its next leg; ITER shows where (11 R322, R323). -/
def State.betweenProducts (s : State) (id : Nat) (o : MxOp) (p : MxProgress) : State :=
  (s.modMx id (fun o => { o with progress := p })).setIter o p.resid true p.phase p.done

/-- The arrays have finished with an operation, or with a leg of it. The words of `bad` are those on which the array's shadow disagreed. -/
def State.completeMx (s : State) (id : Nat) (o : MxOp) (bad : List Nat) : State :=
  let bad := bad.filter (fun w => inRanges (w / 1024) o.slabsWritten)
  match s.runMx o bad with
  | (s, p, none) =>
    let s := s.betweenProducts id o { p with bad := p.bad ++ bad }
    if o.asked && o.desc.atProduct p.phase then s.modMx id (fun o => { o with stopped := true })
    else s.later (o.desc.arrayClocks o.members.length p.phase) (.mxCompletion id [])
  | (s, p, some r) =>
    let s := if o.desc.iterates then s.setIter o r.value false p.phase r.done else s
    s.finishMx id o (o.progress.bad ++ bad) r

/-- The first array clock of an operation: a slot of its gang is free if it reads no register (11 R308). -/
def State.beginMx (s : State) (id : Nat) (o : MxOp) (bad : List Nat) : State :=
  let s := (s.modMx id (fun o => { o with begun := true })).later (o.desc.arrayClocks o.members.length o.progress.phase + 6) (.mxCompletion id bad)
  if o.desc.multiplies then s else s.retryGang o

/-- An MX operation begins, goes on with its next product, or finishes (11 R327, R328). One stopped for a save resumes after its restore; one behind an older
operation waits for it (R309). -/
def execMxCompletion (id : Nat) (bad : List Nat) (s : State) : Host.Outcome State Fault Refusal :=
  match Tab.get? id s.mxops with
  | none => .next s
  | some o =>
    if !o.running || o.stopped then .next s
    else if o.begun then .next (s.completeMx id o bad)
    else if s.mxBehind o then .next (s.later 1 (.mxCompletion id bad))
    else .next (s.beginMx id o bad)

/-! ### Load data (10 R280) -/

/-- The data of an outstanding load or atomic is there: no peer still owes an answer, and no compare buffer holds it. -/
def State.dataHere (s : State) (gi id : Nat) : Bool :=
  s.remotes.all (fun e => !(e.2.g == gi && e.2.out == some id))
    && (match s.convoyOf gi with
        | some (_, c) => c.held.all (fun e => !(c.lead == gi && e.out == some id)) && c.rearEntry.all (fun e => !(c.rear == gi && e.out == some id))
        | none => true)
    && s.cores.all (fun c => c.2.gate.all (fun h => h.targets.all (fun t => t != (gi, id))))

/-- Load or atomic data returns and is written. -/
def execLoadDataReturn (g : Nat) (id : Nat) (s : State) : Host.Outcome State Fault Refusal :=
  match s.group g with
  | none => .next s
  | some x =>
    match x.out id with
    | none => .next s
    | some o =>
      if o.kind == .load && s.dataHere g id then .next ((s.modGroup g (fun x => x.writeBack o)).afterCompletion g) else .next s

/-! ### Register deadlock (19 R449) -/

/-- Every live thread of the group waits in `xreg.acq`. -/
def Group.inXreg (g : Group) : Bool := g.live != 0 && g.waiting .xregAcq == g.live

/-- The partition is deadlocked: no group of it is Placing or Restoring, every Resident one waits in `xreg.acq`, and the oldest request does not fit. -/
def State.deadlocked (s : State) (k : Nat) : Bool :=
  let gs := s.onPartition k
  let rs := s.residents k
  gs.all (fun g => g.st != .placing && g.st != .restoring) && !rs.isEmpty && rs.all (fun e => e.2.inXreg)
    && (match (s.part k).xqueue with
        | [] => false
        | r :: _ => (s.group r.g).any (fun g => !s.xregFits g r.n))

/-- The youngest request is withdrawn, and its group traps (19 R449). -/
def State.breakDeadlock (s : State) (k : Nat) : State :=
  match (s.part k).xqueue.getLast? with
  | none => s
  | some r =>
    let s := s.modPart k (fun p => { p with xqueue := p.xqueue.dropLast })
    let s := s.modGroup r.g (fun g => g.modLanes r.bundle (fun _ t => if t.wait == .xregAcq then { t with wait := .none } else t))
    s.stopWaiting r.g r.bundle { code := 0x1009, mask := r.entry.mask, addr := BitVec.ofNat 64 (r.n % 256) } r.entry.pc [{ r.entry with done := 0 }]

/-- All Resident groups of a partition wait in `xreg.acq` (19 R449). -/
def execRegisterDeadlock (part : Nat) (s : State) : Host.Outcome State Fault Refusal :=
  .next (if s.deadlocked part then s.breakDeadlock part else s)

end Sys2Proof.Machine
end

