-- ==== Sys2Proof/Machine/Release.lean ====
section
/-! DEFINITION. A release that passes its gate performs (05 R175, R176): stores, atomics, arrivals, fences, kicks, task posts and signals, interrupts and service
calls. -/
namespace Sys2Proof.Machine

/-- The release as an issue of its bundle. -/
def Held.sel (h : Held) : Sel := { g := h.g, bundle := h.bundle, mask := h.mask }
def Held.issue (h : Held) : Issue :=
  { sels := [h.sel], pc := h.pc, word := h.entry.word, short := h.entry.short, replay := if h.replay then some h.entry else none }

/-- Its queue or slot has room (12 R335, R338, R340). -/
def State.hasRoom (s : State) (core : Nat) (h : Held) : Bool :=
  match s.group h.g with
  | none => true
  | some g =>
    match h.act with
    | .kick _ n => decide (s.queuedOn core + n ≤ 256)
    | .stage => decide (s.queuedOn core + s.stageCount g (((s.blk g.place.blk).map (·.stages)).getD 0) ≤ 256)
    | .post _ => !s.tasksFull g.place.ctx
    | _ => true

/-- The group's save has begun: a release waiting at the gate is captured unperformed (04 R157, 05 R177). One that a compare buffer performs is not the group's any
more. -/
def State.captures (s : State) (h : Held) : Bool :=
  h.bundle != 0 && (s.group h.g).any (fun g => match g.st with
    | .saving _ => true
    | _ => false)

/-- The release can perform (05 R175, R178). -/
def State.performable (s : State) (core : Nat) (h : Held) : Bool :=
  s.settled core h && (!h.sc || h.seq.isSome) && s.hasRoom core h && !s.captures h

/-- A lane condition of a release that has passed the gate (18 R430): when its entry stands in a queue already, the entry is opened again on the lanes
that stopped. -/
def State.heldStop (s : State) (h : Held) (l : LaneStop) : State :=
  match s.group h.g with
  | none => s
  | some g =>
    if g.queued h.bundle h.entry then s.modGroup h.g (fun g => g.unfinishQueued h.bundle h.entry l.stop.mask)
    else s.laneStop h.issue h.sel h.entry h.sw l

/-- The old values of a matched atomic reach an instruction that waits for them (02 R75). -/
def State.giveValues (s : State) (gi id : Nat) (ws : List RegWrite) : State :=
  (s.modGroup gi (fun g => { g with flow := { g.flow with outstanding := g.flow.outstanding.map (fun o =>
    if o.id = id then { o with writes := ws } else o) } })).push [.loadDataReturn gi id]

/-- A matched atomic performs once for both groups of a convoy (02 R75); a peer answers the lead's request, and both wait for it. -/
def State.atomicBoth (s : State) (core gi kind : Nat) (scope : BitVec 5) (cls : Nat) (o : BitVec 4) (dst : Option Nat) (targets : List (Nat × Nat))
    (hits : List Hit) (l : List LaneAtomic) : State :=
  let s := if kindReleases kind then hits.foldl (fun s h => s.clearContained h.pa cls) s else s
  let r := s.performAtomics core gi kind scope cls o hits l
  let ws := oldWrites o dst r.2
  targets.foldl (fun s t => s.giveValues t.1 t.2 ws) (r.1.sendAtomics core gi ((targets.find? (fun t => t.1 == gi)).map Prod.snd) hits)

/-- Perform a held atomic. -/
def State.heldAtomic (s : State) (core : Nat) (g : Group) (h : Held) (o : BitVec 4) (dst : Option Nat) (l : List LaneAtomic) : State :=
  let hits := s.hitsAgain g.place.ctx core (l.map (fun w => (w.L, w.ptr, w.pa)))
  let cls := h.cls
  if h.bundle = 0 then s.atomicBoth core h.g h.kind h.scope cls o dst h.targets hits l
  else
    let r := s.atomicNow core h.g g h.kind h.scope cls o dst h.entry h.bundle hits l
    let s := match r.2 with
      | some x => r.1.heldStop h x
      | none => r.1
    if h.sw then s.park h.g h.bundle else s

/-- Perform an arrival (10 R295): with no count left it is a lane condition. -/
def State.heldArrive (s : State) (g : Group) (h : Held) (p : Spot) (n : Nat) : State :=
  let o := s.readBar g.place.blk p
  if n = 0 || o.pending < n then s.heldStop h (countStop h.mask (h.entry.uni.getD 0 0) n)
  else
    let r := s.scratchTouch h.g g h.mask 13 0 [(p, 32)] 1
    r.1.updateBar g.place.blk p (o.take n) r.2

/-- Perform a `bsync` (10 R299): the threads wait at it for the round. -/
def State.heldBsync (s : State) (g : Group) (h : Held) : State :=
  let s := s.plainEvent h.g g.place.core h.mask 13 1 h.cls
  (s.modGroup h.g (fun g => g.modLanes (h.bundle &&& g.live) (fun _ t => { t with wait := .bsync, pc := h.pc }))).bsyncRound g.place.blk

/-- Perform a `gbar` (08 R236): the threads wait for the round. -/
def State.heldGbar (s : State) (g : Group) (h : Held) : State :=
  let s := s.plainEvent h.g g.place.core h.mask 13 0 h.cls
  (s.modGroup h.g (fun g => g.modLanes (h.mask &&& g.live) (fun _ t => { t with wait := .gbar }))).gbarRound h.g

/-- A `uirq.send` (12 R343): an arrival at the target's home slice, or a request to a peer. -/
def State.sendInterrupt (s : State) (gi : Nat) (g : Group) (m : Mask) (t x : Word64) : State :=
  let peer := field 32 16 t
  if peer = 0xFFFF then
    s.push [.interruptArrival (field 16 16 t).toNat (field 0 6 t) x 1 (BitVec.ofNat 16 g.place.ctx) 0]
  else s.sendRemote (dieOfCore g.place.core) peer.toNat { host := false, g := gi, mask := m, pa := 2 * 2 ^ 48 + peer.toNat * 2 ^ 40, ptr := 0, kind := 2 }

/-- A service call (12 R349): the whole group is saved and goes to Off-core; the calling threads keep the call's number. -/
def State.callService (s : State) (gi : Nat) (B : Mask) (n : BitVec 8) : State :=
  let s := s.bumpId
  ((s.modGroup gi (fun g => (g.modLanes (B &&& g.live) (fun _ t => { t with wait := .svc, waitOn := n.toNat }))
    |> fun g => { g with st := .saving 1, sched := { g.sched with calledAt := s.nextId } })).push [.groupSaveComplete gi]).stopIterations gi

/-- The effect of a held release at its gate. -/
def State.performAct (s : State) (core : Nat) (g : Group) (h : Held) : State :=
  let note := fun (s : State) =>
    s.plainEvent h.g core h.mask h.kind h.scope h.cls (h.seq.map (fun n => (sequencerOf core (s.closingClass h), n))) (h.seq.map (fun _ => h.seqTime))
  match h.act with
  | .store l =>
    (s.clearLines h.cls l).performStores core h.g h.kind h.scope h.cls none (s.hitsAgain g.place.ctx core (l.map (fun w => (w.L, w.ptr, w.pa)))) l
  | .atomic o dst l => s.heldAtomic core g h o dst l
  | .arrive p off n => s.heldArrive g h { part := p, off := off } n
  | .bsync => s.heldBsync g h
  | .gbar => s.heldGbar g h
  | .fence => note s
  | .kick a n => (note s).kick h.g g a n
  | .stage =>
    match stageStop s h.sel g with
    | some st => s.heldStop h { stop := st, done := 0 }
    | none => (note s).releaseStage h.g g
  | .post a => (note s).postTask g.place.ctx a
  | .sig x => (note s).push [.counterSignal g.place.ctx (field 0 12 x)]
  | .uirq t x => (note s).sendInterrupt h.g g h.mask t x
  | .svc n =>
    if h.bundle = 0 then h.targets.foldl (fun s t => s.callService t.1 (BitVec.ofNat 64 t.2) n) (note s) else (note s).callService h.g h.bundle n
  | .ckpt => s
  | .exit => exitEffect h.issue h.sel (note s)

/-- A release passes the gate and performs. -/
def State.passRelease (s : State) (core : Nat) (h : Held) : State :=
  match s.group h.g with
  | none => s.takeHeld core h
  | some g => ((s.passGate h).takeHeld core h).performAct core g h

/-- The conditions of a held release hold: it performs (05 R175). -/
def execReleasePerform (id : Nat) (s : State) : Host.Outcome State Fault Refusal :=
  match s.heldRelease id with
  | none => .next s
  | some (core, h) => .next (if s.performable core h then s.passRelease core h else s)

end Sys2Proof.Machine
end

