-- ==== Sys2Proof/Machine/Convoy.lean ====
section
/-! DEFINITION. The compare buffer of a convoy (02 R74-R77): matching, waystations, mismatches, retries and escalation (21 R511-R516). -/
namespace Sys2Proof.Machine

/-- A convoy. -/
def State.convoy (s : State) (k : Nat) : Option Convoy := Tab.get? k s.convoys

/-- Change a convoy. -/
def State.modConvoy (s : State) (k : Nat) (f : Convoy → Convoy) : State := { s with convoys := Tab.modify k f s.convoys }

/-! ### Comparing (21 R511, R513) -/

/-- What a signature says of a thread: its address, and its data with what all threads share. -/
def Signature.part (x : Signature) (L : Nat) : Option (List Word64 × List (List Word64)) :=
  let l := maskList x.mask
  let i := (l.filter (fun k => decide (k < L))).length
  if !l.contains L then none
  else some (if x.addrs.length = l.length then [x.addrs.getD i 0] else x.addrs,
    if x.data.length = l.length then [x.data.getD i []] else if x.data.length = l.length + 1 then [x.data.getD 0 [], x.data.getD (i + 1) []] else x.data)

/-- The threads whose parts differ; all of the lead's for different instructions. -/
def diffMask (a b : Signature) : Mask :=
  if a.word = b.word then maskOf ((maskList (a.mask ||| b.mask)).filter (fun L => a.part L != b.part L)) else a.mask

/-- An entry that is a store (21 R514). -/
def Act.isStore : Act → Bool
  | .store _ => true
  | _ => false

/-! ### Performing a matched entry -/

/-- The entry that the comparison finds at the head of the buffer is taken, with the rear's. -/
def State.popEntry (s : State) (k : Nat) (c : Convoy) : State :=
  let s := s.modConvoy k (fun c => { c with held := c.held.tail, rearEntry := none, clocks := 0 })
  let s := s.modGroup c.lead (fun g => { g with convoy := { g.convoy with held := g.convoy.held - 1 } })
  [c.lead, c.rear].foldl (fun s gi => s.modGroup gi Group.wakeTurned) s

/-- The threads of a bundle that waited for the match go on. -/
def Group.matched (g : Group) (B : Mask) : Group :=
  g.modLanes (B &&& g.which (fun t => t.wait == .gate && t.waitOn == convoyWait)) (fun _ t => { t with wait := .none })

/-- The release of a matched entry, for the gate of the lead's core. No thread waits for it. -/
def heldMatched (s : State) (c : Convoy) (g : Group) (e r : CompareEntry) : Held :=
  { id := 0, g := c.lead, bundle := 0, mask := e.mask, kind := e.kind, scope := e.scope, cls := s.classOf g e.scope, pc := e.pc, entry := e.entry,
    replay := false, sw := false, lines := [], acks := [], act := e.act
    targets := match e.act with
      | .svc _ => [(c.lead, e.bundle.toNat), (c.rear, r.bundle.toNat)]
      | _ => e.out.toList.map (fun o => (c.lead, o)) ++ r.out.toList.map (fun o => (c.rear, o)) }

/-- A matched entry performs (02 R74, R75): a store or relaxed atomic at once, a release at the gate, an `exit` for both groups. -/
def State.performMatched (s : State) (c : Convoy) (g : Group) (e r : CompareEntry) : State :=
  let core := g.place.core
  match e.act with
  | .exit =>
    let one := fun (s : State) (gi : Nat) (x : CompareEntry) =>
      (s.modGroup gi (fun g => g.matched x.bundle)).exitOrHold { sels := [], pc := x.pc, word := x.entry.word, short := x.entry.short }
        { g := gi, bundle := x.bundle, mask := x.mask } x.entry x.sw
    one (one s c.lead e) c.rear r
  | .store l =>
    if kindReleases e.kind then s.holdRelease core (heldMatched s c g e r)
    else
      (s.performStores core c.lead e.kind e.scope 0 (if l.length = 1 then some e.mask else none)
        (s.hitsAgain g.place.ctx core (l.map (fun w => (w.L, w.ptr, w.pa)))) l).keepSources s e.entry.keep
  | .atomic o dst l =>
    if kindReleases e.kind then s.holdRelease core (heldMatched s c g e r)
    else
      let h := heldMatched s c g e r
      s.atomicBoth core c.lead e.kind e.scope (if e.kind = 5 then 0 else h.cls) o dst h.targets
        (s.hitsAgain g.place.ctx core (l.map (fun w => (w.L, w.ptr, w.pa)))) l
  | _ => s.holdRelease core (heldMatched s c g e r)

/-! ### Waystations (02 R77, 21 R512) -/

/-- A group as its snapshot holds it: its threads are past the `ckpt`, and no replay queue is kept. -/
def Group.asSnapshot (g : Group) (B : Mask) : Group :=
  let g := g.matched B
  { g with trap := { g.trap with queue := [], captured := [] }, convoy := { g.convoy with waystations := g.convoy.waystations + 1, retries := 0 } }

/-- Write the snapshot of a group behind its record. -/
def State.writeSnapshot (s : State) (gi : Nat) (g : Group) : State :=
  s.writeFields (g.place.record + alignUp g.recordSize 4096) (g.snapshot (s.imaskOf g) (s.pendingX gi g) 0)

/-- Both groups have issued the `ckpt` and the buffer has performed every earlier entry: both snapshots are written, and both groups go on. -/
def State.waystation (s : State) (k : Nat) (c : Convoy) (g h : Group) (e r : CompareEntry) : State :=
  let a := g.asSnapshot e.bundle
  let b := h.asSnapshot r.bundle
  let s := (s.writeSnapshot c.lead a).writeSnapshot c.rear b
  let s := (s.modGroup c.lead (fun g => { g with threads := a.threads, convoy := a.convoy })).modGroup c.rear
    (fun g => { g with threads := b.threads, convoy := b.convoy })
  s.modConvoy k (fun c => { c with snapLead := some a, snapRear := some b, retries := 0, nonStore := false })

/-! ### Mismatches (21 R513-R515) -/

/-- The record of a mismatch (17 R421). -/
def mismatchReport (s : State) (c : Convoy) (g : Group) (code : BitVec 16) (e : CompareEntry) (m : Mask) : Report :=
  { code := code, path := corePath g.place.core 0 0, ctx := BitVec.ofNat 16 g.place.ctx, info := BitVec.ofNat 16 g.place.gidx,
    detail := detail4 (zext 64 code) e.pc (e.sig.addrs.headD 0) m, slice := s.homeSlice g.place.ctx
    grp := if code = 0x6002 then some c.lead else none, auto := if code = 0x6002 then none else some 7 }

/-- A group stops issuing, and what it had still to issue is dropped: gate, requests, turned-away threads. The requests behind its own may fit now (08
R247). -/
def State.stopGroup (s : State) (gi : Nat) (st : GroupState) : State :=
  match s.group gi with
  | none => s
  | some g =>
    let s := s.modCore g.place.core (fun c => { c with gate := c.gate.filter (fun h => h.g != gi) })
    let s := s.modPart g.partIndex (fun p => { p with xqueue := p.xqueue.filter (fun r => r.g != gi) })
    (s.modGroup gi (fun g => { g with st := st })).grantX g.partIndex

/-- A group is replaced by its snapshot; the extended registers it gives back may go to the next request (08 R247). -/
def State.rollBack (s : State) (gi : Nat) (snap : Option Group) (retries : Nat) (st : GroupState) : State :=
  match snap with
  | none => s
  | some x =>
    (s.modGroup gi (fun g => { g.loadSnapshot x with st := st, convoy := { x.convoy with held := 0, retries := retries } })).grantX x.partIndex

/-- The retry: both groups continue from their snapshots, or are saved when they were chosen for eviction (21 R514, R516). -/
def State.retry (s : State) (k : Nat) (c : Convoy) : State :=
  let n := c.retries + 1
  let st : GroupState := if c.evicting then .saving 0 else .resident
  let s := s.modConvoy k (fun c => { c with retries := n, retrying := false, loads := [], nonStore := false })
  let s := (s.rollBack c.lead c.snapLead n st).rollBack c.rear c.snapRear n st
  if c.evicting then s.push [.groupSaveComplete c.lead, .groupSaveComplete c.rear] else s

/-- Escalation: both groups are saved as their snapshots (21 R515). -/
def State.escalateConvoy (s : State) (k : Nat) (c : Convoy) (r : Report) : State :=
  let key := s.nextKey r.slice
  let s := s.modConvoy k (fun c => { c with loads := [], retrying := false })
  let s := ((s.stopGroup c.lead (.saving 2)).rollBack c.lead c.snapLead c.retries (.saving 2)).stopGroup c.rear (.saving 2)
    |>.rollBack c.rear c.snapRear c.retries (.saving 2)
  let s := [c.lead, c.rear].foldl (fun s gi => s.modGroup gi (fun g => { g with trap := { g.trap with heldSeq := key } })) s
  (s.report r).push [.groupSaveComplete c.lead, .groupSaveComplete c.rear]

/-- A mismatch is declared at the head of the buffer: everything from it onwards is discarded; retry or escalate. -/
def State.mismatch (s : State) (k : Nat) (c : Convoy) (g : Group) (e : CompareEntry) (m : Mask) : State :=
  let s := s.modConvoy k (fun c => { c with held := [], rearEntry := none, clocks := 0 })
  if c.retries < 2 && !c.nonStore then
    let s := s.report (mismatchReport s c g 0x6001 e m)
    let s := (s.stopGroup c.lead .restoring).stopGroup c.rear .restoring
    (s.modConvoy k (fun c => { c with retrying := true })).push [.convoyRetry k]
  else s.escalateConvoy k c (mismatchReport s c g 0x6002 e m)

/-! ### The events of a convoy -/

/-- No release of the compare buffer waits at the gate, and no store of it for ownership: every earlier entry has performed. -/
def State.bufferIdle (s : State) (c : Convoy) (g : Group) : Bool :=
  (s.gateOf c.lead g).all (fun h => h.bundle != 0) && s.stores.all (fun e => e.2.g != c.lead)

/-- The entry at the head can be compared and performed now: a `ckpt` once no register write of either group is outstanding. -/
def State.comparable (s : State) (c : Convoy) : Bool :=
  match c.held, c.rearEntry, s.group c.lead, s.group c.rear with
  | e :: _, some _, some g, some h =>
    !c.retrying && s.bufferIdle c g && (e.act != .ckpt || (g.flow.outstanding.isEmpty && h.flow.outstanding.isEmpty))
  | _, _, _, _ => false

/-- The held entries of groups chosen for eviction are matched: the rear is saved too (21 R516). -/
def State.drained (s : State) (k : Nat) : State :=
  match s.convoy k with
  | some c => if c.evicting && c.held.isEmpty && c.rearEntry.isNone then s.beginSave c.rear else s
  | none => s

/-- Compare the rear's entry with the oldest held entry (21 R511, R513). -/
def State.compareHead (s : State) (k : Nat) (c : Convoy) : State :=
  match c.held, c.rearEntry, s.group c.lead, s.group c.rear with
  | e :: _, some r, some g, some h =>
    if e.sig = r.sig then
      let s := (s.popEntry k c)
      match e.act with
      | .ckpt => s.waystation k c ((s.group c.lead).getD g) ((s.group c.rear).getD h) e r
      | _ => (s.modConvoy k (fun c => { c with nonStore := c.nonStore || !e.act.isStore })).performMatched c g e r
    else s.mismatch k c g e (diffMask e.sig r.sig)
  | _, _, _, _ => s

/-- The rear's entry is compared (21 R511). -/
def execConvoyCompare (id : Nat) (s : State) : Host.Outcome State Fault Refusal :=
  match s.convoy id with
  | none => .next s
  | some c => .next (if s.comparable c then (s.compareHead id c).drained id else s)

/-- The count of R513 goes on: an entry waits for the rear's, and both groups are Resident and neither is fault-held or stopped. -/
def State.convoyCounts (s : State) (c : Convoy) : Bool :=
  !c.held.isEmpty && c.rearEntry.isNone && !c.retrying
    && [c.lead, c.rear].all (fun gi => (s.group gi).any (fun g => g.st == .resident && !g.trap.held && !s.partitionStopped g.partIndex))

/-- The rear's entry has not arrived in time (21 R513). -/
def execConvoyTimeout (id : Nat) (s : State) : Host.Outcome State Fault Refusal :=
  match s.convoy id with
  | none => .next s
  | some c =>
    match c.held, s.group c.lead with
    | e :: _, some g => .next (if s.convoyCounts c then s.mismatch id c g e e.mask else s)
    | _, _ => .next s

/-- Every outstanding load of both groups has returned. -/
def State.retryReady (s : State) (c : Convoy) : Bool :=
  c.retrying && [c.lead, c.rear].all (fun gi => (s.group gi).all (fun g => g.flow.outstanding.all (fun o =>
    s.remotes.all (fun e => !(e.2.g == gi && e.2.out == some o.id)))))

/-- The outstanding loads have completed: the groups continue from their snapshots (21 R514). -/
def execConvoyRetry (id : Nat) (s : State) : Host.Outcome State Fault Refusal :=
  match s.convoy id with
  | none => .next s
  | some c => .next (if s.retryReady c then s.retry id c else s)

end Sys2Proof.Machine
end

