-- ==== Sys2Proof/Machine/Kernel.lean ====
section
/-! DEFINITION. The service kernel's memory: physical allocation, page tables, the zero engine, TLB invalidation (03 R111-R119), and the service calls with
their request rings (13 R374-R380). -/
namespace Sys2Proof.Machine

/-! ### Physical memory (log 41) -/

/-- A range meets nothing that is allocated. -/
def State.physFree (s : State) (base size : Nat) : Bool := s.phys.all (fun e => decide (base + size ≤ e.2.1) || decide (e.2.1 + e.2.2 ≤ base))

/-- The lowest free place on a die: the first 2 MiB are not used. -/
def State.placeOn (s : State) (size align die : Nat) : Option Nat :=
  let b := die * 2 ^ 37
  let ok := fun (a : Nat) => decide (b + 2 ^ 21 ≤ a) && decide (a + size ≤ b + Config.dramBytesPerDie) && s.physFree a size
  let cs := (alignUp (b + 2 ^ 21) align :: s.phys.map (fun e => alignUp (e.2.1 + e.2.2) align)).filter ok
  match cs with
  | [] => none
  | c :: rest => some (rest.foldl min c)

/-- A page is mapped: every byte of a range reads zero, its lines' intervals begin at 0 (05 R163), its sectors carry a tag and no poison, and every cached
copy and containment is gone (03 R119, 20 R471). -/
def State.zeroRange (s : State) (base size : Nat) (tag : BitVec 4) : State :=
  let inn := fun (a : Nat) => decide (base ≤ a) && decide (a < base + size)
  let s := (s.showCode base size).clearPhys base size
  let keep := s.sectors.filter (fun e => !inn (64 * e.1))
  { s with
    sectors := if tag = 0 then keep else (List.range (size / 64)).foldl (fun t i => Tab.put (base / 64 + i) { tag := tag } t) keep
    lines := s.lines.map (fun (e : Nat × Line) =>
      if inn (256 * e.1) then
        (e.1, { e.2 with interval := 0, owners := [], valid := 0, dirty := 0, pinned := false, marks := [], atomTime := none, pending := [], contained := none, l2err := [] })
      else e)
    slices := s.slices.map (fun (e : Nat × Slice) => (e.1, { e.2 with l2 := e.2.l2.filter (fun l => !inn (256 * l)) }))
    cores := s.cores.map (fun (e : Nat × Core) => (e.1, { e.2 with l1 := e.2.l1.filter (fun l => !inn (64 * l.line)) })) }

/-- Allocate zeroed DRAM for a context on dies of a mask. -/
def State.allocPhys (s : State) (ctx : Nat) (dies : BitVec 4) (size align : Nat) : Option (State × Nat) :=
  ((List.range 4).filter (fun d => dies.getLsbD d)).findSome? (fun d =>
    (s.placeOn size align d).map (fun a => (({ s with phys := (ctx, a, size) :: s.phys }).zeroRange a size 0, a)))

/-! ### Page tables (03 R96-R98, R112, R119) -/

/-- Where the level-3 entry of a virtual address stands, with the tables below level 0 made as they are needed. -/
def State.leafPlaceFrom (ctx : Nat) (dies : BitVec 4) (V : Nat) : Nat → Nat → Nat → State → Option (State × Nat)
  | 0, _, _, _ => none
  | fuel + 1, level, table, s =>
    let a := table + 8 * levelIndex level V
    if level = 3 then some (s, a)
    else
      let e := BitVec.ofNat 64 (s.readPhys a 8)
      if pteValid e then (if pteLeaf e then none else State.leafPlaceFrom ctx dies V fuel (level + 1) (ptePA e) s)
      else
        match s.allocPhys ctx dies 4096 4096 with
        | none => none
        | some (s, p) => State.leafPlaceFrom ctx dies V fuel (level + 1) p (s.writePhys a 8 (p + 1))

/-- The place of a leaf of a context. -/
def State.leafPlace (s : State) (ctx V : Nat) : Option (State × Nat) :=
  match s.context ctx with
  | none => none
  | some c => if c.table = 0 then none else State.leafPlaceFrom ctx c.dieMask V 4 0 c.table s

/-- A page is mapped: a valid leaf that is not revoked covers it (13 R368, R369). -/
def State.isMapped (s : State) (ctx V : Nat) : Bool :=
  match s.walk ctx V with
  | .ok l => !bit l.entry 9
  | .error .notMapped => false
  | .error _ => true

/-- A level-3 leaf. -/
def leafOf (pa : Nat) (flags : Word64) (tag : BitVec 4) : Word64 := BitVec.ofNat 64 (pa / 4096 * 4096) ||| flags ||| (zext 64 tag <<< 52)

/-- VALID, READ, WRITE, TAGCHK. -/
def ownPage : Word64 := 0x407#64

/-- Give pages to a context: each leaf becomes valid when the zero engine reports its page clear (03 R119). -/
def State.assignPages (s : State) (ctx V pa : Nat) (tag : BitVec 4) : Nat → Option State
  | 0 => some s
  | n + 1 =>
    match s.assignPages ctx V pa tag n with
    | none => none
    | some s =>
      match s.leafPlace ctx (V + 4096 * n) with
      | none => none
      | some (s, a) =>
        let p := pa / 4096 + n
        some (({ s with zeroing := Tab.put p (a, leafOf (4096 * p) ownPage tag) s.zeroing }).push [.zeroEngineClear p])

/-- The zero engine reports a page clear and tagged: the mapping becomes valid (03 R119). -/
def execZeroEngineClear (page : Nat) (s : State) : Host.Outcome State Fault Refusal :=
  match Tab.get? page s.zeroing with
  | none => .next s
  | some (a, leaf) =>
    let s := s.zeroRange (4096 * page) 4096 (field 52 4 leaf)
    .next (({ s with zeroing := Tab.del page s.zeroing }).writePhys a 8 leaf.toNat)

/-- A walk completes: its leaf fills the TLB of the die, with ACCESSED set (03 R100, R111). A walk that faults fills nothing. -/
def execPageWalkComplete (die : Nat) (ctx : Nat) (page : Nat) (s : State) : Host.Outcome State Fault Refusal :=
  match s.walk ctx (4096 * page) with
  | .ok l => .next (s.fillTlb die ctx (4096 * page) (l.widen s.mem) false)
  | .error _ => .next s

/-- Invalidate a page in every TLB: every entry that covers it goes (03 R112). -/
def State.dropPage (s : State) (ctx V : Nat) : State :=
  let keep := fun (t : List (Nat × Leaf)) => t.filter (fun e => e.1 != e.2.key ctx V)
  { s with dies := s.dies.map (fun (d : Nat × Die) => (d.1, { d.2 with tlb := keep d.2.tlb }))
           cores := s.cores.map (fun (c : Nat × Core) => (c.1, { c.2 with l1tlb := keep c.2.l1tlb })) }

/-- What an act accesses lies in a page of a set. -/
def Act.touches (a : Act) (p : Nat → Bool) : Bool :=
  match a with
  | .store l => l.any (fun w => p (w.pa / 4096))
  | .atomic _ _ l => l.any (fun w => p (w.pa / 4096))
  | _ => false

/-- An access translated before has neither performed nor faulted. -/
def State.pagesBusy (s : State) (p : Nat → Bool) : Bool :=
  s.stores.any (fun e => e.2.l.any (fun w => p (w.pa / 4096))) || s.remotes.any (fun e => p (e.2.pa / 4096))
    || s.cores.any (fun c => c.2.gate.any (fun h => h.act.touches p))
    || s.convoys.any (fun c => c.2.held.any (fun e => e.act.touches p) || c.2.rearEntry.any (fun e => e.act.touches p))

/-- A physical page lies in what some TLB's entry of a page of a context covers. -/
def State.translates (s : State) (ctx V : Nat) (p : Nat) : Bool :=
  (s.dies.filterMap (fun d => tlbFind d.2.tlb ctx V) ++ s.cores.filterMap (fun c => tlbFind c.2.l1tlb ctx V)).any (fun l =>
    let lo := l.phys V - V % 2 ^ l.bits
    decide (lo ≤ 4096 * p) && decide (4096 * p < lo + 2 ^ l.bits))

/-- An invalidation completes once every access translated by the old entries has performed or faulted; accesses from then on translate through the new entry
(03 R112). -/
def execTlbInvalidationComplete (ctx : Nat) (page : Nat) (s : State) : Host.Outcome State Fault Refusal :=
  .next (if s.pagesBusy (s.translates ctx (4096 * page)) then s else s.dropPage ctx (4096 * page))

/-! ### The request ring of a slice (13 R374-R376) -/

/-- A slice. -/
def State.slice (s : State) (k : Nat) : Slice := (Tab.get? k s.slices).getD {}

/-- Bytes of an entry. -/
def RingEntry.size (e : RingEntry) : Nat := 64 + 32 * e.args.length

/-- Entries that have begun leave their bytes to new ones. -/
def Slice.ringUsed (sl : Slice) : Nat := ((sl.ring.filter (fun e => !e.begun)).map RingEntry.size).sum

/-- The entry of a group's call (13 R375). -/
def callEntry (sl : Slice) (gi : Nat) (g : Group) : RingEntry :=
  let m := g.waiting .svc
  let t := g.thread (lowestOf m)
  { seq := sl.ringCount, ctx := g.place.ctx, g := gi, n := t.waitOn % 256, mask := m, pc := t.pc - 4
    args := (maskList m).map (fun L => (L, (List.range 8).map (fun i => (g.thread L).vreg i)))
    record := g.place.record
    placement := 0#2 ++ g.place.wcode ++ BitVec.ofNat 4 g.place.part ++ BitVec.ofNat 8 g.place.core, gidx := g.place.gidx }

/-- The units of 32 bytes of an entry: the header, then one argument block for each calling thread (13 R375). -/
def RingEntry.units (e : RingEntry) : List (BitVec 256) :=
  [BitVec.ofNat 64 e.record ++ e.pc ++ e.mask ++ e.seq ++ BitVec.ofNat 8 e.args.length ++ BitVec.ofNat 8 e.n ++ BitVec.ofNat 16 e.ctx,
   0#232 ++ BitVec.ofNat 8 e.gidx ++ e.placement]
    ++ e.args.map (fun a => BitVec.ofNat 256 (a.2.zipIdx.foldl (fun x v => x + v.1.toNat * 2 ^ (32 * v.2)) 0))

/-- Put an entry into the ring and its bytes into the ring's memory. -/
def Slice.appendEntry (sl : Slice) (rest : List Nat) (e : RingEntry) : Slice :=
  { sl with
    ringWait := rest, ring := sl.ring ++ [e], ringCount := sl.ringCount + 1
    ringMem := e.units.zipIdx.foldl (fun m u => Assoc.set ((sl.ringTail + u.2) % 32768) u.1 m) sl.ringMem
    ringTail := (sl.ringTail + e.units.length) % 32768 }

/-- The groups of a call: a convoy calls once, for its lead and its rear (02 R75). -/
def State.callers (s : State) (gi : Nat) : List Nat :=
  match s.convoyOf gi with
  | some (_, c) => [c.lead, c.rear]
  | none => [gi]

/-- A group is Off-core. -/
def State.isOffCore (s : State) (gi : Nat) : Bool := (s.group gi).any (fun g => g.st == .offCore)

/-- What the service core does with an entry. -/
def callEvent (n g : Nat) : Instr :=
  if n = 0 then .svcCallNull g else if n = 1 then .svcCallAllocate g else if n = 2 then .svcCallLog g
  else if n = 3 then .svcCallExchangeBuffer g else if n < 128 then .svcCallReserved g else .svcCallHost g

/-- Append waiting calls, in the order they passed the release gate, while the ring has room (13 R376). -/
def State.appendCalls (k : Nat) : Nat → State → State
  | 0, s => s
  | fuel + 1, s =>
    let w := sortBy (fun a b => decide (((s.group a).map (·.sched.calledAt)).getD 0 < ((s.group b).map (·.sched.calledAt)).getD 0)) (s.slice k).ringWait
    match w with
    | [] => s
    | gi :: rest =>
      match s.group gi with
      | none => State.appendCalls k fuel (s.modSlice k (fun sl => { sl with ringWait := rest }))
      | some g =>
        let e := callEntry (s.slice k) gi g
        if g.st != .offCore then State.appendCalls k fuel (s.modSlice k (fun sl => { sl with ringWait := rest }))
        else if (s.slice k).ringUsed + e.size ≤ 2 ^ 20 then
          State.appendCalls k fuel ((s.modSlice k (fun sl => sl.appendEntry rest e)).push [callEvent e.n gi])
        else s

/-- The records of the calling groups are complete: their call is appended to the ring of the context's slice (13 R376). A convoy's call is its lead's
(02 R75). -/
def execSvcRingAppend (g : Nat) (s : State) : Host.Outcome State Fault Refusal :=
  let gi := (s.callers g).headD g
  match s.group gi with
  | none => .next s
  | some x =>
    let k := s.homeSlice x.place.ctx
    if !(s.callers g).all s.isOffCore || x.sched.returning || x.waiting .svc == 0 || (s.slice k).ring.any (fun e => e.g == gi) || (s.slice k).ringWait.contains gi then
      .next s
    else
      let s := s.modSlice k (fun sl => { sl with ringWait := sl.ringWait ++ [gi] })
      .next (State.appendCalls k (s.slice k).ringWait.length s)

/-! ### Replies (13 R377, R378) -/

/-- The result of a call that fails with a code. -/
def callFailure (code : BitVec 16) : Word64 := 0x80000000#32 ++ 0#16 ++ code

/-- v0 and v1 of a calling thread, and the end of its wait. -/
def Thread.answer (t : Thread) (x : Word64) : Thread :=
  { (t.setV 0 (lowWord x) false false).setV 1 (highWord x) false false with wait := .none, waitOn := 0 }

/-- The results of an entry in its group. -/
def Group.answered (g : Group) (e : RingEntry) : Group :=
  e.results.foldl (fun g r => g.modLanes (oneBit r.1) (fun _ t => t.answer r.2)) g

/-- The results of an entry go into one group and its record, and the group returns where it fits. -/
def State.replyTo (s : State) (e : RingEntry) (gi : Nat) : State :=
  match s.group gi with
  | none => s
  | some g =>
    if g.st != .offCore then s
    else
      let g' := { g.answered e with sched := { g.sched with returning := true } }
      let s := s.modGroup gi (fun _ => g')
      (s.writeFields g.place.record (s.recordFields gi g')).push [.groupRestore g.place.core]

/-- The reply to the calling groups (13 R378, 02 R75). -/
def State.replyCall (s : State) (k : Nat) (e : RingEntry) : State :=
  (s.callers e.g).foldl (fun s gi => s.replyTo e gi) (s.modSlice k (fun sl => { sl with ring := sl.ring.filter (fun x => x.seq != e.seq) }))

/-- Keep an entry; one whose threads all have their results is answered. -/
def State.keepEntry (s : State) (k : Nat) (e : RingEntry) : State :=
  let s := s.modSlice k (fun sl => { sl with ring := sl.ring.map (fun x => if x.seq = e.seq then e else x) })
  if e.forwarded.isEmpty then s.replyCall k e else s

/-- The slice and the entry of a group's call. -/
def State.callOf (s : State) (g : Nat) : Option (Nat × RingEntry) :=
  s.slices.findSome? (fun sl => (sl.2.ring.find? (fun e => e.g == g)).map (fun e => (sl.1, e)))

/-- The next entry of a ring that has not begun. -/
def Slice.nextCall (sl : Slice) : Option RingEntry := sl.ring.find? (fun e => !e.begun)

/-- The service core begins a group's entry, when it is the next one and its number is of the kind (13 R374). -/
def State.beginCall (s : State) (g : Nat) (kind : Nat → Bool) (f : State → RingEntry → State × RingEntry) : State :=
  match s.callOf g with
  | none => s
  | some (k, e) =>
    if ((s.slice k).nextCall.map (·.seq)) = some e.seq && kind e.n then
      let r := f s { e with begun := true }
      let s := r.1.keepEntry k r.2
      let s := State.appendCalls k (s.slice k).ringWait.length s
      match (s.slice k).nextCall with
      | some n => s.push [callEvent n.n n.g]
      | none => s
    else s

/-- The same result for every thread. -/
def RingEntry.all (e : RingEntry) (x : Word64) : RingEntry := { e with results := e.args.map (fun a => (a.1, x)) }

/-- Call 0: result 0 (13 R377). -/
def execSvcCallNull (g : Nat) (s : State) : Host.Outcome State Fault Refusal :=
  .next (s.beginCall g (fun n => n == 0) (fun s e => (s, e.all 0)))

/-- Calls 4 to 127 fail (13 R377). -/
def execSvcCallReserved (g : Nat) (s : State) : Host.Outcome State Fault Refusal :=
  .next (s.beginCall g (fun n => decide (4 ≤ n) && decide (n < 128)) (fun s e => (s, e.all (callFailure 0xBE01))))

/-! ### Call 1: allocate (03 R114, 13 R377; the windows and the placement are the model's, log 41) -/

/-- First byte and size of the window of generation allocations. -/
def allocWindow : Nat := 0x7C0000000000
def allocSize : Nat := 2 ^ 41

/-- A tag for sectors of a range that none of them carries, from a first choice on. -/
def State.freshTag (s : State) (base size first : Nat) : BitVec 4 :=
  let old := (s.sectors.filter (fun e => decide (base ≤ 64 * e.1) && decide (64 * e.1 < base + size))).map (fun e => e.2.tag.toNat)
  BitVec.ofNat 4 (((List.range 15).map (fun i => 1 + (first + i) % 15)).find? (fun t => !old.contains t) |>.getD (1 + first % 15))

/-- Rewrite the tags of the pages of an allocation (03 R113). -/
def State.retag (s : State) (ctx V : Nat) (tag : BitVec 4) (n : Nat) : State :=
  (List.range n).foldl (fun s i =>
    match s.walk ctx (V + 4096 * i) with
    | .ok l => (List.range 64).foldl (fun s j => s.modSector (l.phys (V + 4096 * i) / 64 + j) (fun t => { t with tag := tag })) s
    | .error _ => s) s

/-- Use a reclaimed allocation again: its bytes keep their values, and it takes a new tag (03 R114, R116). -/
def State.reuse (s : State) (ctx : Nat) (c : Context) (pages align : Nat) : Option (State × Word64) :=
  (c.reclaimed.find? (fun a => decide (4096 * pages ≤ a.size) && a.va % align == 0)).map (fun a =>
    let tag := BitVec.ofNat 4 (1 + a.tag.toNat % 15)
    let s := s.modCtx ctx (fun c => { c with reclaimed := c.reclaimed.erase a, allocs := c.allocs ++ [{ a with gen := c.gen, tag := tag }] })
    (s.retag ctx a.va tag (a.size / 4096), 0#4 ++ tag ++ BitVec.ofNat 56 a.va))

/-- Allocate for a thread. -/
def State.allocate (s : State) (ctx : Nat) (bytes log2 : Nat) : State × Word64 :=
  if bytes = 0 || 2 ^ 31 < bytes || log2 < 6 || 21 < log2 then (s, callFailure 0xBE02)
  else
    match s.context ctx with
    | none => (s, callFailure 0xBE03)
    | some c =>
      let pages := (bytes + 4095) / 4096
      let align := max 4096 (2 ^ log2)
      match s.reuse ctx c pages align with
      | some r => r
      | none =>
        let off := alignUp c.allocNext align
        if allocSize < off + 4096 * pages then (s, callFailure 0xBE03)
        else
          match (List.range 4).filter (fun d => c.dieMask.getLsbD d) |>.findSome? (fun d => s.placeOn (4096 * pages) 4096 d) with
          | none => (s, callFailure 0xBE03)
          | some pa =>
            let tag := s.freshTag pa (4096 * pages) (c.allocs.length + c.reclaimed.length)
            match ({ s with phys := (ctx, pa, 4096 * pages) :: s.phys }).assignPages ctx (allocWindow + off) pa tag pages with
            | none => (s, callFailure 0xBE03)
            | some s =>
              (s.modCtx ctx (fun c => { c with allocNext := off + 4096 * pages
                                               allocs := c.allocs ++ [{ va := allocWindow + off, size := 4096 * pages, gen := c.gen, tag := tag }] }),
               0#4 ++ tag ++ BitVec.ofNat 56 (allocWindow + off))

/-- An argument of a thread. -/
def argOf (a : Nat × List Word32) (i : Nat) : Nat := (a.2.getD i 0).toNat

/-- Call 1, thread by thread. -/
def execSvcCallAllocate (g : Nat) (s : State) : Host.Outcome State Fault Refusal :=
  .next (s.beginCall g (fun n => n == 1) (fun s e =>
    e.args.foldl (fun r a =>
      let x := r.1.allocate e.ctx (argOf a 0) (argOf a 1)
      (x.1, { r.2 with results := r.2.results ++ [(a.1, x.2)] })) (s, e)))

/-! ### Calls that go to the host (13 R364, R379, R380) -/

/-- An entry for the host event queue of a thread of a call. -/
def callHeq (e : RingEntry) (kind : BitVec 8) (a : Nat × List Word32) : HeqEntry :=
  let v := fun (i : Nat) => a.2.getD i 0
  { kind := kind, ctx := BitVec.ofNat 16 e.ctx, cls := 1
    body := 0#128 ++ v 7 ++ v 6 ++ v 5 ++ v 4 ++ v 3 ++ v 2 ++ v 1 ++ v 0 ++ 0#16 ++ BitVec.ofNat 8 e.n ++ BitVec.ofNat 8 a.1 ++ e.seq }

/-- Forward threads of an entry, in ascending order. -/
def State.forward (s : State) (e : RingEntry) (kind : BitVec 8) (l : List (Nat × List Word32)) : State × RingEntry :=
  (l.foldl (fun s a => s.holdHeq (callHeq e kind a)) s, { e with forwarded := l.map Prod.fst })

/-- Call 2: the entries are written, and then the service core replies itself. -/
def execSvcCallLog (g : Nat) (s : State) : Host.Outcome State Fault Refusal :=
  .next (s.beginCall g (fun n => n == 2) (fun s e => s.forward e 4 e.args))

/-- Calls 128 to 255. -/
def execSvcCallHost (g : Nat) (s : State) : Host.Outcome State Fault Refusal :=
  .next (s.beginCall g (fun n => decide (128 ≤ n)) (fun s e => s.forward e 1 e.args))

/-- The arguments of call 3. -/
def exchangeOk (a : Nat × List Word32) : Bool :=
  argOf a 0 % 4096 == 0 && decide (4096 ≤ argOf a 0) && decide (argOf a 0 ≤ 65536) && decide (argOf a 1 < 4)

/-- Call 3: threads with bad arguments fail at once, the others are forwarded. -/
def execSvcCallExchangeBuffer (g : Nat) (s : State) : Host.Outcome State Fault Refusal :=
  .next (s.beginCall g (fun n => n == 3) (fun s e =>
    let bad := e.args.filter (fun a => !exchangeOk a)
    s.forward { e with results := bad.map (fun a => (a.1, callFailure 0xBE02)) } 1 (e.args.filter exchangeOk)))

/-- First byte and size of the exchange window (13 R380). -/
def exchangeWindow : Nat := 0x7E0000000000
def exchangeSize : Nat := 2 ^ 30

/-- Map the buffer the host named for argument block `j` of an entry. -/
def State.mapExchange (s : State) (ctx j : Nat) (a : Nat × List Word32) (x : Word64) : State × Word64 :=
  let size := argOf a 0
  let off := ((s.context ctx).map (·.exchangeNext)).getD 0
  let pa := x.toNat
  if pa % 4096 != 0 || !inDram pa || !inDram (pa + size - 1) || pa / 2 ^ 37 != (pa + size - 1) / 2 ^ 37 || !s.physFree pa size || exchangeSize < off + size then
    (s, callFailure 0xBE02)
  else
    let tag := BitVec.ofNat 4 (1 + j % 15)
    match ({ s with phys := (ctx, pa, size) :: s.phys }).assignPages ctx (exchangeWindow + off) pa tag (size / 4096) with
    | none => (s, callFailure 0xBE03)
    | some s =>
      (s.modCtx ctx (fun c => { c with exchangeNext := off + size
                                       exchange := c.exchange ++ [(exchangeWindow + off, size, BitVec.ofNat 2 (argOf a 1))] }),
       0#4 ++ tag ++ BitVec.ofNat 56 (exchangeWindow + off))

/-- When the last answer of a call 3 is there, the buffers are mapped in argument-block order. -/
def State.mapAnswers (s : State) (e : RingEntry) : State × RingEntry :=
  e.args.zipIdx.foldl (fun r a =>
    match e.answers.find? (fun x => x.1 == a.1.1) with
    | none => r
    | some x =>
      let m := r.1.mapExchange e.ctx a.2 a.1 x.2
      (m.1, { r.2 with results := r.2.results ++ [(a.1.1, m.2)] })) (s, { e with answers := [] })

/-- A forwarded thread of a context is answered (13 R380); false when the answer names none. -/
def State.answerCall (s : State) (ctx : Nat) (seq : BitVec 32) (L : Nat) (status : BitVec 16) (x : Word64) : State × Bool :=
  let k := s.homeSlice ctx
  match (s.slice k).ring.find? (fun e => e.seq == seq && e.ctx == ctx && e.forwarded.contains L && e.n != 2) with
  | none => (s, false)
  | some e =>
    let e := { e with forwarded := e.forwarded.filter (fun y => y != L) }
    let e := if status != 0 then { e with results := e.results ++ [(L, callFailure status)] }
      else if e.n = 3 then { e with answers := e.answers ++ [(L, x)] }
      else { e with results := e.results ++ [(L, x)] }
    let r := if e.forwarded.isEmpty then s.mapAnswers e else (s, e)
    (r.1.keepEntry k r.2, true)

/-- An entry of a call 2 is written: its thread has its result (13 R379). -/
def State.logged (s : State) (ctx : Nat) (seq : BitVec 32) (L : Nat) : State :=
  let k := s.homeSlice ctx
  match (s.slice k).ring.find? (fun e => e.seq == seq && e.ctx == ctx && e.forwarded.contains L && e.n == 2) with
  | none => s
  | some e => s.keepEntry k { e with forwarded := e.forwarded.filter (fun y => y != L), results := e.results ++ [(L, 0)] }

end Sys2Proof.Machine
end

