-- ==== Sys2Proof/Machine/Mailbox.lean ====
section
/-! DEFINITION. The mailbox queues, their registers, records of kinds 0 to 6 and completions (13 R352-R362, 04 R151, R152, 20 R482), and the host event queue
(13 R363-R366). -/
namespace Sys2Proof.Machine

/-! ### Host memory over the control port -/

/-- Physical address of a host byte (03 R94). -/
def hostAddr (a : Nat) : Nat := 2 ^ 48 + a % 2 ^ 48

/-- The host's own write, or the module's over the control port: device copies of the line are recalled (13 R354). -/
def State.hostWrite (s : State) (a n x : Nat) : State :=
  let k := hostAddr a / 64
  let s := (List.range ((hostAddr a % 64 + n + 63) / 64)).foldl (fun s i => s.recall (k + i) none) s
  (s.showCode (hostAddr a) n).writePhys (hostAddr a) n x

/-- Read bytes of host memory. -/
def State.hostRead (s : State) (a n : Nat) : Nat := s.readPhys (hostAddr a) n

/-- An 8-byte word of the MSI-X table. The mask bit, bit 32 of a vector's second word, is set after reset (log 91). -/
def HostSide.msixWord (h : HostSide) (k : Nat) : Word64 := Assoc.get k h.msixTable ^^^ (if k % 2 = 1 then 0x100000000#64 else 0)

/-- A vector is masked. -/
def HostSide.msixMasked (h : HostSide) (v : Nat) : Bool := bit (h.msixWord (2 * v + 1)) 32

/-- An MSI-X message is sent (13 R351, R361); that of a masked vector stays pending (13 R353, log 91). -/
def HostSide.sendMsix (h : HostSide) (v : Nat) : HostSide :=
  if h.msixMasked v then { h with msixPending := h.msixPending ||| BitVec.ofNat 2048 (2 ^ v) } else { h with msix := h.msix ++ [v] }

/-- An MSI-X message is sent. -/
def State.sendMsix (s : State) (v : Nat) : State := { s with host := s.host.sendMsix v }

/-- The host writes a word of the MSI-X table: a pending message of the vector goes out once its mask bit is clear. -/
def HostSide.writeMsix (h : HostSide) (k : Nat) (x : Word64) : HostSide :=
  let h := { h with msixTable := Assoc.set k (x ^^^ (if k % 2 = 1 then 0x100000000#64 else 0)) h.msixTable }
  let v := k / 2
  if h.msixPending.getLsbD v && !h.msixMasked v then { h with msixPending := h.msixPending &&& ~~~BitVec.ofNat 2048 (2 ^ v), msix := h.msix ++ [v] } else h

/-! ### Queue registers (13 R355, R356) -/

namespace Mailbox
def ctx (m : Mailbox) : Nat := (field 32 16 m.ctl).toNat
def cls (m : Mailbox) : BitVec 8 := field 24 8 m.ctl
def log2n (m : Mailbox) : Nat := (field 16 5 m.ctl).toNat
def vec (m : Mailbox) : Nat := (field 5 11 m.ctl).toNat
def cirq (m : Mailbox) : Bool := bit m.ctl 2
def halted (m : Mailbox) : Bool := bit m.ctl 1
def en (m : Mailbox) : Bool := bit m.ctl 0
/-- Records written by the host and not yet applied. -/
def waiting (m : Mailbox) : Nat := (m.tail - m.head).toNat
/-- More records than the ring holds (13 R356). -/
def overrun (m : Mailbox) : Bool := decide (2 ^ m.log2n < m.waiting)
/-- Host address of the record at HEAD, and of its completion. -/
def recordAt (m : Mailbox) : Nat := m.base.toNat + 64 * (m.head.toNat % 2 ^ m.log2n)
def completionAt (m : Mailbox) : Nat := m.cbase.toNat + 16 * (m.head.toNat % 2 ^ m.log2n)
end Mailbox

/-- A queue. -/
def State.mailbox (s : State) (q : Nat) : Mailbox := (Tab.get? q s.host.queues).getD {}

/-- Change a queue; there are 256. -/
def State.modQueue (s : State) (q : Nat) (f : Mailbox → Mailbox) : State :=
  if q < 256 then { s with host := { s.host with queues := Tab.put q (f (s.mailbox q)) s.host.queues } } else s

/-- A ring size may be used. -/
def ringSizeOk (n : Nat) : Bool := decide (6 ≤ n) && decide (n ≤ 16)

/-- The value MQCTL takes: CTX and CLASS change only while EN is 0, HALTED is cleared by writing 1, and EN takes effect only with a valid ring size, a live
context and a ready module (13 R355, R356, 16 R406). -/
def State.mqctlValue (s : State) (m : Mailbox) (x : Word64) : Word64 :=
  let owner := if m.en then field 24 24 m.ctl else field 24 24 x
  let en := bit x 0 && ringSizeOk (field 16 5 x).toNat && (s.context (field 8 16 owner).toNat).any (·.live) && s.plat.ready
  0#16 ++ owner ++ 0#3 ++ field 5 16 x ++ 0#2 ++ ofBool 1 (bit x 2) ++ ofBool 1 (m.halted && !bit x 1) ++ ofBool 1 en

/-- A write of MQCTL. A queue that is enabled anew has forgotten a context that was destroyed. -/
def State.writeMqctl (s : State) (q : Nat) (x : Word64) : State :=
  s.modQueue q (fun m => { m with ctl := s.mqctlValue m x, dead := m.dead && m.en })

/-- The record at HEAD, 64 bytes. -/
def State.record (s : State) (q : Nat) : Nat := s.hostRead (s.mailbox q).recordAt 64

/-- KIND and FLAGS of a record (13 R357). -/
def recKind (x : Nat) : Nat := bytesAt x 0 1
def recFlags (x : Nat) : BitVec 8 := BitVec.ofNat 8 (bytesAt x 1 1)

/-- The completion of the record at HEAD (13 R361). -/
def State.complete (s : State) (q status value : Nat) : State :=
  let m := s.mailbox q
  let phase := if m.head.toNat / 2 ^ m.log2n % 2 = 0 then 2 ^ 63 else 0
  let s := s.hostWrite m.completionAt 16 (m.head.toNat + 2 ^ 32 * status + phase + 2 ^ 64 * value)
  if bit (recFlags (s.record q)) 1 && m.cirq then s.sendMsix m.vec else s

/-- The event record of a status (17 R418, R421). -/
def mailboxReport (s : State) (q status : Nat) : Report :=
  let m := s.mailbox q
  { code := BitVec.ofNat 16 (0x9B00 + status), path := diePath 0 0xB 0, ctx := BitVec.ofNat 16 m.ctx, slice := s.homeSlice m.ctx
    detail := detail4 (zext 64 m.head) (BitVec.ofNat 64 q) 0 0 }

/-- The queue halts at its HEAD record (13 R361). -/
def State.haltQueue (s : State) (q status : Nat) : State :=
  let s := s.complete q status 0
  let s := s.report (mailboxReport s q status)
  s.modQueue q (fun m => { m with ctl := setBit m.ctl 1 true, status := BitVec.ofNat 16 status, index := m.head })

/-- The HEAD record is done: its completion is written when it asks for one, and HEAD advances. Statuses 5 and 8 are recorded and do not halt. -/
def State.finishRecord (s : State) (q status value : Nat) : State :=
  let s := if bit (recFlags (s.record q)) 0 then s.complete q status value else s
  let s := if status = 0 then s else s.report (mailboxReport s q status)
  s.modQueue q (fun m => { m with head := m.head + 1, wait := .none })

/-- A write of MQTAIL: records past the ring halt a running queue (13 R356). -/
def State.writeTail (s : State) (q : Nat) (x : BitVec 32) : State :=
  let s := s.modQueue q (fun m => { m with tail := x })
  let m := s.mailbox q
  if m.en && !m.halted && m.overrun then s.haltQueue q 6 else s

/-- The host rings a queue (13 R356). -/
def execMqtailWrite (q : Nat) (x : BitVec 64) (s : State) : Host.Outcome State Fault Refusal := .next (s.writeTail q (field 0 32 x))

/-- The host writes MQCTL (13 R355, R356). -/
def execMqctlEnable (q : Nat) (x : BitVec 64) (s : State) : Host.Outcome State Fault Refusal := .next (s.writeMqctl q x)

/-- The host clears HALTED: the queue goes on with the halting record (13 R356). -/
def execMqHaltedClear (q : Nat) (s : State) : Host.Outcome State Fault Refusal := .next (s.writeMqctl q (s.mailbox q).ctl)

/-! ### Function level reset (13 R352) -/

/-- Some record is still being applied. -/
def HostSide.busy (h : HostSide) : Bool := h.queues.any (fun q => q.2.wait != .none)

/-- Every queue is disabled and its HEAD, TAIL and HALTED are zero. -/
def State.resetFunction (s : State) : State :=
  if s.host.busy then { s with host := { s.host with flr := true } }
  else
    { s with host := { s.host with
      flr := false
      queues := s.host.queues.map (fun (q : Nat × Mailbox) => (q.1, { q.2 with ctl := setBit (setBit q.2.ctl 0 false) 1 false, head := 0, tail := 0 }))
      heqCtl := setBit s.host.heqCtl 0 false
      heqHead := 0
      heqTail := 0 } }

/-- Function level reset of the control function. -/
def execFunctionLevelReset (s : State) : Host.Outcome State Fault Refusal := .next s.resetFunction

/-! ### The host event queue (13 R363-R366) -/

/-- LOG2N of the host event queue. -/
def HostSide.heqLog2 (h : HostSide) : Nat := (field 16 5 h.heqCtl).toNat

/-- A held entry can be written: the queue is enabled, has room, and the coherent port works. -/
def State.heqReady (s : State) : Bool :=
  bit s.host.heqCtl 0 && decide ((s.host.heqTail - s.host.heqHead).toNat < 2 ^ s.host.heqLog2) && s.cxlUp && !s.host.heqHeld.isEmpty

/-- The 64 bytes of an entry (13 R364). -/
def HeqEntry.image (e : HeqEntry) (log2n : Nat) (i : BitVec 32) : Nat :=
  e.kind.toNat + (if i.toNat / 2 ^ log2n % 2 = 0 then 256 else 0) + 2 ^ 16 * e.ctx.toNat + 2 ^ 32 * i.toNat + 2 ^ 64 * e.body.toNat

/-- The vector of an entry: that of the queue for calls and logs, that of its class for events, when the class sends one (13 R363, R365; log 43). -/
def State.heqVector (s : State) (e : HeqEntry) : Option Nat :=
  if e.kind = 1 ∨ e.kind = 4 then some (field 5 11 s.host.heqCtl).toNat
  else if bit (s.routeEntry e.cls) 2 then some (field 16 11 (s.routeEntry e.cls)).toNat else none

/-- What the written entry means for its event or its call. -/
def State.heqWritten (s : State) (e : HeqEntry) (i : BitVec 32) : State :=
  if e.kind = 4 then s.logged e.ctx.toNat (field 0 32 e.body) (field 32 8 e.body).toNat
  else if e.kind = 3 then
    match e.key with
    | some k => s.modRecord k (fun r => { r with heqIndex := some i.toNat })
    | none => s
  else s

/-- A service core writes the oldest held entry and sends its vector. -/
def execHostEventEntryWrite (s : State) : Host.Outcome State Fault Refusal :=
  match s.host.heqHeld with
  | [] => .next s
  | e :: rest =>
    if !s.heqReady then .next s
    else
      let i := s.host.heqTail
      let n := s.host.heqLog2
      let s := s.hostWrite (s.host.heqBase.toNat + 64 * (i.toNat % 2 ^ n)) 64 (e.image n i)
      let s := { s with host := { s.host with heqHeld := rest, heqTail := i + 1 } }
      let s := match s.heqVector e with
        | some v => s.sendMsix v
        | none => s
      .next (s.heqWritten e i)

/-- A write of HEQCTL: EN only with a valid ring size (13 R363). -/
def State.writeHeqctl (s : State) (x : Word64) : State :=
  { s with host := { s.host with heqCtl := 0#43 ++ field 5 16 x ++ 0#4 ++ ofBool 1 (bit x 0 && ringSizeOk (field 16 5 x).toNat) } }

/-- The host writes HEQCTL. -/
def execHeqctlEnable (x : BitVec 64) (s : State) : Host.Outcome State Fault Refusal := .next (s.writeHeqctl x)

/-- The host consumes entries. -/
def execHeqheadWrite (x : BitVec 64) (s : State) : Host.Outcome State Fault Refusal :=
  .next { s with host := { s.host with heqHead := field 0 32 x } }

/-! ### Records (13 R357, R358, R360) -/

/-- A record of the form its kind gives: zero fields zero, LENGTH in range (13 R358). -/
def recordOk (x : Nat) : Bool :=
  let k := recKind x
  let len := bytesAt x 4 4
  let dataZero := fun (from_ : Nat) => x / 256 ^ from_ % 256 ^ (64 - from_) == 0
  bytesAt x 1 1 < 4 && bytesAt x 2 2 == 0
    && (if k = 0 then x / 256 ^ 4 == 0
        else if k = 1 then 1 ≤ len && len ≤ 32 && bytesAt x 16 16 == 0
        else if k = 2 ∨ k = 3 then 1 ≤ len && len ≤ 1048576 && bytesAt x 24 8 == 0 && dataZero 32
        else if k = 4 then bytesAt x 4 20 == 0 && bytesAt x 24 8 / 64 % 1024 == 0 && bytesAt x 28 4 == 0 && dataZero 40
        else if k = 5 then len == 0 && dataZero 16
        else if k = 6 then bytesAt x 4 20 == 0 && bytesAt x 29 1 == 0 && dataZero 40
        else if k = 7 then bytesAt x 4 20 == 0 && bytesAt x 25 7 == 0
        else false)

/-- Some sector is owned by an engine. -/
def State.enginesOwn (s : State) : Bool := s.lines.any (fun e => (List.range 4).any (fun i => s.engineOwns (4 * e.1 + i)))

/-- A write or read record touches a line that an engine owns: it waits (03 R108). -/
def State.recordBlocked (s : State) (ctx x : Nat) : Bool :=
  let p := BitVec.ofNat 64 (bytesAt x 8 8)
  s.enginesOwn && 1 ≤ recKind x && recKind x ≤ 3 && (List.range (bytesAt x 4 4 / 64 + 2)).any (fun i =>
    match s.leafFor 0 ctx (virtOf (plusPtr p (64 * i))) with
    | .ok l => s.engineOwns (sectorOf (l.phys (virtOf (plusPtr p (64 * i)))))
    | .error _ => false)

/-- The queue can apply its HEAD record now. A task post waits for a task-queue slot (12 R340). -/
def State.mailboxReady (s : State) (q : Nat) : Bool :=
  let m := s.mailbox q
  m.en && !m.halted && m.head != m.tail && m.wait == .none && !s.host.flr && !(recordOk (s.record q) && s.recordBlocked m.ctx (s.record q))
    && !(recKind (s.record q) == 5 && recordOk (s.record q) && !m.dead && s.tasksFull m.ctx)

/-- What the HEAD record is: its kind, and the request code of kind 7; a record that no other kind takes counts as a nop. -/
def State.recordTag (s : State) (q : Nat) : Nat × Nat :=
  let x := s.record q
  let code := bytesAt x 24 1
  if recKind x = 7 then (if 1 ≤ code ∧ code ≤ 8 then (7, code) else (0, 0)) else if recKind x < 7 then (recKind x, 0) else (0, 0)

/-- Apply the HEAD record of a queue, when it is of the kind; a queue with more records than its ring holds, a dead queue and a malformed record halt
(13 R356, R358, R372). -/
def State.applyRecord (s : State) (q kind code : Nat) (f : State → Nat → Nat → State) : State :=
  if !s.mailboxReady q || s.recordTag q != (kind, code) then s
  else
    let m := s.mailbox q
    if m.overrun then s.haltQueue q 6
    else if m.dead || !(s.context m.ctx).any (·.live) then s.haltQueue q 7
    else if !recordOk (s.record q) then s.haltQueue q 1
    else f s m.ctx (s.record q)

/-- Kind 0; a kind-7 record with an unlisted code is refused (13 R358, R367). -/
def execMailboxNop (q : Nat) (s : State) : Host.Outcome State Fault Refusal :=
  .next (s.applyRecord q 0 0 (fun s _ x => s.finishRecord q (if recKind x = 7 then 8 else 0) 0))

/-! ### Writes and reads (13 R359, 20 R482) -/

/-- An exchange buffer binds the host's records by the flags its call gave (13 R380): bit 0 write, bit 1 read. -/
def Context.hostMay (c : Context) (V : Nat) (write : Bool) : Bool :=
  c.exchange.all (fun e => decide (V < e.1) || decide (e.1 + e.2.1 ≤ V) || bit e.2.2 (if write then 0 else 1))

/-- Translate, permission-check and tag-check one unit in a context, for the engine on die 0: where it stands, or the status. -/
def State.mailboxUnit (s : State) (ctx : Nat) (p : Word64) (write : Bool) : State × (Nat ⊕ Landed) :=
  let V := virtOf p
  if !pointerForm p then (s, .inl 2)
  else
    match s.leafFor 0 ctx V with
    | .error _ => (s, .inl 2)
    | .ok l =>
      match l.check { read := !write, write := write } with
      | some .permission => (s, .inl 3)
      | some _ => (s, .inl 2)
      | none =>
        if !((s.context ctx).any (fun c => c.hostMay V write)) then (s, .inl 3)
        else
          let s := s.fillTlb 0 ctx V l write
          let pa := l.phys V
          let s := s.copyEcc ctx pa p
          if s.tagMismatch pa p l then (s, .inl 4)
          else (s, .inr (landed (0, 8, p) pa l))

/-- A unit is written, as a release at device scope: it clears a contained line (04 R151, 20 R471). A peer acknowledges it. -/
def State.mailboxPut (s : State) (q : Nat) (l : Landed) (n x : Nat) : State :=
  if regionOf l.pa = 2 then s.sendRemote 0 (peerOf l.pa) { host := false, g := q, mask := 0, ctx := (s.mailbox q).ctx, pa := l.pa, ptr := 0, kind := 4 }
  else (s.clearContained l.pa 2).agentWrite mailboxAgent l.pa l.home l.pin (fun s => (s.showCode l.pa n).writeMem l.pa n x)

/-- The record has written all 64 bytes of a sector: its poison is cleared (17 R423, 20 R471). -/
def State.sectorWritten (s : State) (pa : Nat) : State :=
  if regionOf pa != 2 && (s.containedAt pa).isNone then s.modSector (sectorOf pa) (fun t => { t with poison := false, ecc := none }) else s

/-- Write `n` bytes from a pointer in ascending address order, unit by unit; the status of the unit that fails. `fuel` bounds the units; `run` is what the
record has written of the pointer's sector, from its first byte. -/
def State.mailboxWrite (s : State) (q ctx : Nat) : Nat → Word64 → Nat → Nat → (run : Nat := 0) → State × Nat
  | 0, _, _, _, _ => (s, 0)
  | fuel + 1, p, n, x, run =>
    if n = 0 then (s, 0)
    else
      let len := min n (8 - p.toNat % 8)
      match s.mailboxUnit ctx p true with
      | (s, .inl e) => (s, e)
      | (s, .inr l) =>
        let run := if p.toNat % 64 = run then run + len else 0
        let s := s.mailboxPut q l len (x % 256 ^ len)
        let s := if run = 64 then s.sectorWritten l.pa else s
        s.mailboxWrite q ctx fuel (plusPtr p len) (n - len) (x / 256 ^ len) (run % 64)

/-- Units of the longest record. -/
def mailboxUnits : Nat := 131073

/-- Peers have not acknowledged a write of the queue's record. -/
def State.mailboxOwed (s : State) (q : Nat) : Bool := s.remotes.any (fun e => e.2.kind == 4 && e.2.g == q)

/-- A record's accesses are made: it is done once they have performed (04 R151), or halted at the failing unit. -/
def State.endAccess (s : State) (q status : Nat) : State :=
  if status ≠ 0 then s.haltQueue q status
  else if s.mailboxOwed q then s.modQueue q (fun m => { m with wait := .acks }) else s.finishRecord q 0 0

/-- Kind 1. -/
def execMailboxWriteInline (q : Nat) (s : State) : Host.Outcome State Fault Refusal :=
  .next (s.applyRecord q 1 0 (fun s ctx x =>
    let r := s.mailboxWrite q ctx mailboxUnits (BitVec.ofNat 64 (bytesAt x 8 8)) (bytesAt x 4 4) (bytesAt x 32 32)
    r.1.endAccess q r.2))

/-- Kind 2. -/
def execMailboxWriteBulk (q : Nat) (s : State) : Host.Outcome State Fault Refusal :=
  .next (s.applyRecord q 2 0 (fun s ctx x =>
    let r := s.mailboxWrite q ctx mailboxUnits (BitVec.ofNat 64 (bytesAt x 8 8)) (bytesAt x 4 4) (s.hostRead (bytesAt x 16 8) (bytesAt x 4 4))
    r.1.endAccess q r.2))

/-- Read a unit at its home: another holder's write ownership ends first; a peer's bytes are free. -/
def State.mailboxGet (s : State) (l : Landed) (n : Nat) : State × Nat :=
  if regionOf l.pa = 2 then ({ s with free := s.free + 1 }, (Config.freeWord s.free).toNat % 256 ^ n)
  else (s.agentRead mailboxAgent l.pa l.home l.pin, s.readPhys l.pa n)

/-- Read bytes from a pointer to a host address in ascending order. -/
def State.mailboxRead (s : State) (ctx : Nat) : Nat → Word64 → Nat → Nat → State × Nat
  | 0, _, _, _ => (s, 0)
  | fuel + 1, p, n, h =>
    if n = 0 then (s, 0)
    else
      let len := min n (8 - p.toNat % 8)
      match s.mailboxUnit ctx p false with
      | (s, .inl e) => (s, e)
      | (s, .inr l) =>
        let v := s.mailboxGet l len
        (v.1.hostWrite h len v.2).mailboxRead ctx fuel (plusPtr p len) (n - len) (h + len)

/-- Kind 3. -/
def execMailboxRead (q : Nat) (s : State) : Host.Outcome State Fault Refusal :=
  .next (s.applyRecord q 3 0 (fun s ctx x =>
    let r := s.mailboxRead ctx mailboxUnits (BitVec.ofNat 64 (bytesAt x 8 8)) (bytesAt x 4 4) (bytesAt x 16 8)
    r.1.endAccess q r.2))

/-! ### Interrupts, task posts and call replies (13 R358, R362, R380) -/

/-- Kind 4: an arrival from the host process class of the queue. -/
def execMailboxInterrupt (q : Nat) (s : State) : Host.Outcome State Fault Refusal :=
  .next (s.applyRecord q 4 0 (fun s _ x =>
    (s.interrupt (bytesAt x 26 2) (BitVec.ofNat 6 (bytesAt x 24 1)) (BitVec.ofNat 64 (bytesAt x 32 8)) 2 (zext 16 (s.mailbox q).cls) 0).finishRecord q 0 0))

/-- Kind 5: the record is posted as `task.post` posts one. -/
def execMailboxTaskPost (q : Nat) (s : State) : Host.Outcome State Fault Refusal :=
  .next (s.applyRecord q 5 0 (fun s ctx x => (s.postTask ctx (BitVec.ofNat 64 (bytesAt x 8 8))).finishRecord q 0 0))

/-- Kind 6: one thread of a forwarded call is answered; a reply that names none completes with status 5. -/
def execCallReply (q : Nat) (s : State) : Host.Outcome State Fault Refusal :=
  .next (s.applyRecord q 6 0 (fun s ctx x =>
    let r := s.answerCall ctx (BitVec.ofNat 32 (bytesAt x 24 4)) (bytesAt x 28 1) (BitVec.ofNat 16 (bytesAt x 30 2)) (BitVec.ofNat 64 (bytesAt x 32 8))
    r.1.finishRecord q (if r.2 then 0 else 5) 0))

end Sys2Proof.Machine
end

