-- ==== Sys2Proof/Machine/Shake.lean ====
section
/-! DEFINITION. SHAKE256 with 512 output bits (13 R372, 16 R412), over bytes; the permutation works on 25 lanes of 64 bits, lane x + 5 y. -/
namespace Sys2Proof.Machine

/-- The lanes of the sponge. -/
abbrev Lanes := List Word64

/-- A lane. -/
def Lanes.at_ (a : Lanes) (i : Nat) : Word64 := a.getD i 0

/-- The rotation of each lane. -/
def rotations : List Nat := [0, 1, 62, 28, 27, 36, 44, 6, 55, 20, 3, 10, 43, 25, 39, 41, 45, 15, 21, 8, 18, 2, 61, 56, 14]

/-- The constants of the 24 rounds. -/
def roundConstants : List Word64 :=
  [0x0000000000000001, 0x0000000000008082, 0x800000000000808A, 0x8000000080008000, 0x000000000000808B, 0x0000000080000001, 0x8000000080008081,
   0x8000000000008009, 0x000000000000008A, 0x0000000000000088, 0x0000000080008009, 0x000000008000000A]
  ++ [0x000000008000808B, 0x800000000000008B, 0x8000000000008089, 0x8000000000008003, 0x8000000000008002, 0x8000000000000080, 0x000000000000800A,
   0x800000008000000A, 0x8000000080008081, 0x8000000000008080, 0x0000000080000001, 0x8000000080008008]

/-- The parity of each column is mixed into its neighbours. -/
def mixColumns (a : Lanes) : Lanes :=
  let c := (List.range 5).map (fun x => a.at_ x ^^^ a.at_ (x + 5) ^^^ a.at_ (x + 10) ^^^ a.at_ (x + 15) ^^^ a.at_ (x + 20))
  let d := (List.range 5).map (fun x => c.getD ((x + 4) % 5) 0 ^^^ (c.getD ((x + 1) % 5) 0).rotateLeft 1)
  (List.range 25).map (fun i => a.at_ i ^^^ d.getD (i % 5) 0)

/-- Each lane is rotated and moved: lane (x, y) takes the place of (x + 3 y, x). -/
def moveLanes (a : Lanes) : Lanes :=
  (List.range 25).map (fun i =>
    let x := i % 5
    let y := i / 5
    let j := (x + 3 * y) % 5 + 5 * x
    (a.at_ j).rotateLeft (rotations.getD j 0))

/-- The rows are combined. -/
def combineRows (a : Lanes) : Lanes :=
  (List.range 25).map (fun i => a.at_ i ^^^ (~~~(a.at_ (i / 5 * 5 + (i + 1) % 5)) &&& a.at_ (i / 5 * 5 + (i % 5 + 2) % 5)))

/-- One round. -/
def keccakRound (a : Lanes) (rc : Word64) : Lanes :=
  match combineRows (moveLanes (mixColumns a)) with
  | [] => []
  | x :: xs => (x ^^^ rc) :: xs

/-- The permutation. -/
def keccak (a : Lanes) : Lanes := roundConstants.foldl keccakRound a

/-- Lane `i` of a block of bytes. -/
def blockLane (b : List Byte) (i : Nat) : Word64 := ((b.drop (8 * i)).take 8).foldr (fun x a => (a <<< 8) ||| zext 64 x) 0

/-- Take in blocks of 136 bytes. -/
def absorb : Nat → List Byte → Lanes → Lanes
  | 0, _, a => a
  | n + 1, l, a => absorb n (l.drop 136) (keccak ((List.range 25).map (fun i => a.at_ i ^^^ (if i < 17 then blockLane (l.take 136) i else 0))))

/-- The message with its padding. -/
def shakePad (l : List Byte) : List Byte :=
  let n := 135 - l.length % 136
  if n = 0 then l ++ [0x9F] else l ++ [0x1F] ++ List.replicate (n - 1) 0 ++ [0x80]

/-- SHAKE256, 512 output bits, the first byte lowest. -/
def shake256 (l : List Byte) : BitVec 512 :=
  let p := shakePad l
  let a := absorb (p.length / 136) p (List.replicate 25 0)
  (List.range 8).foldr (fun i x => (x <<< 64) ||| zext 512 (a.at_ i)) 0

/-- The bytes of a value, the first lowest. -/
def shakeBytes (n : Nat) (x : Nat) : List Byte := (List.range n).map (fun i => BitVec.ofNat 8 (x / 256 ^ i))

end Sys2Proof.Machine
end

