-- ==== Sys2Proof/Machine/Requests.lean ====
section
/-! DEFINITION. The requests to the service kernel in records of kind 7 (13 R367-R373): extents, dispositions, exports, contexts, trace control and interrupt
configuration. -/
namespace Sys2Proof.Machine

/-- Serve a request: it is refused from a queue of another class than 0, requests 5 to 8 also from a queue not bound to context 0, and when a check fails
(then nothing changes); else VALUE carries the result, unless the request waits (13 R367). -/
def State.serve (s : State) (q code : Nat) (f : State → Nat → Nat → Option (State × Nat)) : State :=
  s.applyRecord q 7 code (fun s ctx x =>
    if (s.mailbox q).cls != 0 || (decide (5 ≤ code) && ctx != 0) then s.finishRecord q 8 0
    else
      match f s ctx x with
      | none => s.finishRecord q 8 0
      | some (t, v) => if (t.mailbox q).wait == .none then t.finishRecord q 0 v else t)

/-! ### Map (13 R368) -/

/-- A page of a map request: the physical address, when it is of the form the source asks for. -/
def State.mapSource (s : State) (peer : Bool) (at_ i : Nat) : Option Nat :=
  if peer then some (at_ + 4096 * i)
  else
    let e := s.hostRead (at_ + 8 * i) 8
    if e % 4096 = 0 ∧ e < 2 ^ 48 then some (hostAddr e) else none

/-- A peer range: page aligned, in region 2, not this device's, and within one export entry (13 R381). -/
def peerRange (a pages : Nat) : Bool :=
  a % 4096 == 0 && a / 2 ^ 48 == 2 && BitVec.ofNat 8 (a / 2 ^ 40) != Config.deviceNumber && decide (a % 2 ^ 32 + 4096 * pages ≤ 2 ^ 32)

/-- The leaf of a mapped page: a peer window is never cached (13 R368). -/
def mapLeaf (flags pa : Nat) : Word64 :=
  let peer := flags / 8 % 2 == 1
  let home : Word64 := if peer then 0x30 else BitVec.ofNat 64 (flags / 2 % 4 * 16)
  leafOf pa (0x3 ||| (if flags % 2 = 1 then 4 else 0) ||| home ||| (if peer then 0 else 0x100)) 0

/-- Write the leaves of the first `n` pages. -/
def State.mapLeaves (s : State) (ctx V flags at_ : Nat) : Nat → Option State
  | 0 => some s
  | n + 1 =>
    match s.mapLeaves ctx V flags at_ n with
    | none => none
    | some s =>
      match s.mapSource (flags / 8 % 2 == 1) at_ n with
      | none => none
      | some pa =>
        let v := V + 4096 * n
        if s.isMapped ctx v then none
        else
          match s.leafPlace ctx v with
          | none => none
          | some (s, a) => if s.zeroing.any (fun e => e.2.1 == a) then none else some ((s.writePhys a 8 (mapLeaf flags pa).toNat).dropPage ctx v)

/-- The fields of a map request are in range. -/
def mapFields (x : Nat) : Bool :=
  let va := BitVec.ofNat 64 (bytesAt x 32 8)
  let count := bytesAt x 40 4
  let flags := bytesAt x 44 2
  let home := flags / 2 % 4
  va.toNat % 4096 == 0 && tagOf va == 0 && pointerForm va && decide (virtOf va + 4096 * count ≤ 2 ^ 57) && 1 ≤ count && count ≤ 65536 && flags < 16
    && (home == 0 || home == 3) && bytesAt x 46 2 == 0 && (flags / 8 == 0 || peerRange (bytesAt x 48 8) count)

/-- Request 0x01. -/
def State.mapExtent (s : State) (ctx x : Nat) : Option (State × Nat) :=
  let V := virtOf (BitVec.ofNat 64 (bytesAt x 32 8))
  let count := bytesAt x 40 4
  if mapFields x then
    (s.mapLeaves ctx V (bytesAt x 44 2) (bytesAt x 48 8) count).map (fun s =>
      (s.modCtx ctx (fun c => { c with extents := c.extents ++ [(bytesAt x 56 8, V / 4096, count)] }), count))
  else none

/-- Map pages of the host or of a peer. -/
def execMapPages (q : Nat) (s : State) : Host.Outcome State Fault Refusal := .next (s.serve q 1 State.mapExtent)

/-! ### Revoke (13 R369, 20 R481) -/

/-- Virtual page numbers of an extent. -/
def Context.extentPages (c : Context) (id : Nat) : List Nat :=
  (c.extents.filter (fun e => e.1 == id)).flatMap (fun e => (List.range e.2.2).map (fun i => e.2.1 + i))

/-- Revoke one page: REVOKED in its leaf, and the page out of every TLB. Its physical page. -/
def State.revokePage (s : State) (ctx P : Nat) : State × List Nat :=
  match s.walk ctx (4096 * P) with
  | .ok l => ((s.writePhys l.at_ 8 (setBit (BitVec.ofNat 64 (s.readPhys l.at_ 8)) 9 true).toNat).dropPage ctx (4096 * P), [l.phys (4096 * P) / 4096])
  | .error _ => (s, [])

/-- Request 0x02. -/
def State.revokeExtent (q : Nat) (s : State) (ctx x : Nat) : Option (State × Nat) :=
  if bytesAt x 32 24 != 0 then none
  else
    let id := bytesAt x 56 8
    let pages := ((s.context ctx).map (fun c => c.extentPages id)).getD []
    let r := pages.foldl (fun (r : State × List Nat) P =>
      let t := r.1.revokePage ctx P
      (t.1, r.2 ++ t.2)) (s, [])
    let s := r.1.modCtx ctx (fun c => { c with extents := c.extents.filter (fun e => e.1 != id) })
    some ((s.modQueue q (fun m => { m with wait := .revoke r.2 })).push [.revokeDrainComplete q], 0)

/-- Revoke an extent. -/
def execRevoke (q : Nat) (s : State) : Host.Outcome State Fault Refusal := .next (s.serve q 2 (State.revokeExtent q))

/-- Every access translated through the revoked leaves has performed or faulted: the request completes (13 R369). -/
def execRevokeDrainComplete (id : Nat) (s : State) : Host.Outcome State Fault Refusal :=
  match (s.mailbox id).wait with
  | .revoke pages => .next (if s.pagesBusy pages.contains then s else s.finishRecord id 0 pages.length)
  | _ => .next s

/-! ### Dispose (13 R366, R367, 17 R422) -/

/-- The host-owned event an entry index names, not disposed of yet. -/
def State.hostEvent (s : State) (i : Nat) : Option Nat :=
  s.slices.findSome? (fun k => (k.2.log.find? (fun r => r.heqIndex == some i && r.owner == 1 && r.disp == 0)).map (fun r => eventKey k.1 r.seq))

/-- Request 0x03. -/
def State.disposeRequest (s : State) (_ x : Nat) : Option (State × Nat) :=
  let d := bytesAt x 36 4
  if d = 0 || 6 < d || bytesAt x 40 24 != 0 then none
  else (s.hostEvent (bytesAt x 32 4)).map (fun k => (s.dispose k (BitVec.ofNat 8 d), 0))

/-- Dispose of a host-owned event. -/
def execDispose (q : Nat) (s : State) : Host.Outcome State Fault Refusal := .next (s.serve q 3 State.disposeRequest)

/-! ### Export (13 R367, R371, R382) -/

/-- Request 0x04. Context 0 owns nothing that could be exported (13 R370; DEDUCED, log 103). -/
def State.exportRange (s : State) (ctx x : Nat) : Option (State × Nat) :=
  let size := bytesAt x 48 8
  if ctx = 0 || bytesAt x 33 1 != 0 || 8 ≤ bytesAt x 38 2 || size % 4096 != 0 || 2 ^ 32 < size || bytesAt x 56 8 != 0 then none
  else
    let e : ExportEntry :=
      { dev := BitVec.ofNat 16 (bytesAt x 34 2), ctx := BitVec.ofNat 16 (bytesAt x 36 2), perms := BitVec.ofNat 16 (bytesAt x 38 2),
        va := BitVec.ofNat 64 (bytesAt x 40 8), size := BitVec.ofNat 64 size }
    some (s.modCtx ctx (fun c => { c with exports := Tab.put (bytesAt x 32 1) e c.exports }), 0)

/-- Write an export entry of the queue's context. -/
def execExportEntry (q : Nat) (s : State) : Host.Outcome State Fault Refusal := .next (s.serve q 4 State.exportRange)

/-! ### Create context (13 R371, R372) -/

/-- An entry of a scope table image (04 R128). -/
def scopeEntry (t e : Nat) : Nat := bytesAt t (32 * e) 32

/-- The image is as step 1 asks. -/
def scopeTableOk (t : Nat) : Bool :=
  (List.range 32).all (fun e =>
    let x := scopeEntry t e
    bytesAt x 24 1 < 2 && bytesAt x 25 7 == 0 && (decide (8 ≤ e) || x == 0))

/-- The valid entries of an image. -/
def scopesOf (t : Nat) : Tab (BitVec 192) :=
  ((List.range 32).filter (fun e => bytesAt (scopeEntry t e) 24 1 == 1)).map (fun e => (e, BitVec.ofNat 192 (bytesAt (scopeEntry t e) 0 24)))

/-- The lowest unused context number. -/
def State.freeContext (s : State) : Option Nat :=
  ((List.range (s.ctxs.length + 2)).filter (fun c => 1 ≤ c)).find? (fun c => decide (c ≤ 65534) && (s.context c).isNone)

/-- The slice, on a die of a mask, that homes the fewest live contexts; the lowest index of those. -/
def State.homeFor (s : State) (dies : BitVec 4) : Nat :=
  let load := fun (k : Nat) => (s.ctxs.filter (fun c => c.2.live && c.2.home == k)).length
  let l := (List.range 64).filter (fun k => dies.getLsbD (k / 16))
  l.foldl (fun b k => if load k < load b then k else b) (l.headD 0)

/-- Allocate a page that a slice homes: one of the pages of a 64 KiB run of its die (log 41). -/
def State.allocHomed (s : State) (ctx k : Nat) : Option (State × Nat) :=
  (s.allocPhys ctx (BitVec.ofNat 4 (2 ^ (k / 16))) 65536 65536).map (fun r =>
    (r.1, ((List.range 16).map (fun i => r.2 + 4096 * i)).find? (fun a => homeSliceOf a == k) |>.getD r.2))

/-- The context descriptor (13 R371). -/
def descriptorFields (n : Nat) (c : Context) (irq exports tasks scope : Nat) : List Field :=
  [(0, 4096, 0), (0, 2, n), (2, 2, (if c.live then 1 else 0) + (if c.debuggable then 2 else 0)), (4, 1, c.priority), (5, 1, c.dieMask.toNat),
   (6, 2, c.fabric.toNat), (8, 8, c.table), (16, 8, c.saveBase), (24, 8, c.saveSize), (32, 8, irq), (40, 8, exports), (48, 8, tasks),
   (96, 64, c.measurement.toNat), (1024, 1024, scope)]

/-! ### The images of a context, kept in its pages -/

/-- The fields of the descriptor that change: live, debuggable, priority and the trace control block (15 R397). -/
def Context.descriptorImage (c : Context) : List Field :=
  [(2, 2, (if c.live then 1 else 0) + (if c.debuggable then 2 else 0)), (4, 1, c.priority), q64 64 c.trace.bufva, (72, 1, c.trace.log2size.toNat),
   (73, 1, c.trace.kinds.toNat), (74, 1, c.trace.log2period.toNat)]

/-- The interrupt block (12 R341). -/
def IrqBlock.image (b : IrqBlock) : List Field :=
  (0, 4096, 0) :: q64 0 b.pending :: q64 8 b.mask :: q64 16 b.inService
    :: b.vectors.flatMap (fun v => [q64 (64 + 16 * v.1) v.2.payload, (72 + 16 * v.1, 8, v.2.count.toNat + 2 ^ 16 * v.2.mode.toNat + (if v.2.wake then 2 ^ 18 else 0))])
    ++ b.senders.flatMap (fun e => [q64 (1088 + 16 * e.1) e.2.allowed,
        (1096 + 16 * e.1, 8, e.2.kind.toNat + 2 ^ 16 * e.2.num.toNat + 2 ^ 32 * e.2.dev.toNat)])

/-- An entry of the export table (13 R371); one that was removed reads as zero. -/
def exportImage (i : Nat) (e : Option ExportEntry) : List Field :=
  (32 * i, 32, 0) :: match e with
    | some e => [(32 * i, 2, e.dev.toNat), (32 * i + 2, 2, e.ctx.toNat), (32 * i + 4, 2, e.perms.toNat), (32 * i + 6, 2, 1), q64 (32 * i + 8) e.va, q64 (32 * i + 16) e.size]
    | none => []

/-- A slot of the task queue: the task record posted to it (02 R53). -/
def Task.image (slot : Nat) (t : Task) : List Field :=
  [(64 * slot, 64, 0), q64 (64 * slot) t.manifest, q64 (64 * slot + 8) t.params, (64 * slot + 16, 2, t.counter.toNat), (64 * slot + 18, 2, t.initial),
   (64 * slot + 20, 2, t.endCounter.toNat + (if t.signal.isSome then 2 ^ 15 else 0))]

/-- The keys of two tables whose entries differ. -/
def changedKeys {α : Type} [DecidableEq α] (old new : Tab α) : List Nat :=
  ((Tab.keys old ++ (Tab.keys new).filter (fun k => !(Tab.keys old).contains k))).filter (fun k => decide (Tab.get? k old ≠ Tab.get? k new))

/-- Write what a step changed of a context into the context's pages (12 R341, 13 R371, 15 R397). -/
def State.keepContext (s : State) (old new : Context) (p : ContextPages) : State :=
  let s := if old.descriptorImage = new.descriptorImage then s else s.writeFields p.desc new.descriptorImage
  let s := if old.irq = new.irq then s else s.writeFields p.irq new.irq.image
  let s := (changedKeys old.exports new.exports).foldl (fun s i => s.writeFields p.exports (exportImage i (Tab.get? i new.exports))) s
  (changedKeys old.tasks new.tasks).foldl (fun s i => match Tab.get? i new.tasks with
    | some t => s.writeFields p.tasks (t.image i)
    | none => s) s

/-- Write what a step changed of the contexts into their pages. -/
def State.keepImages (before after : State) : State :=
  after.ctxs.foldl (fun s e => match e.2.pages, before.context e.1 with
    | some p, some old => if old = e.2 then s else s.keepContext old e.2 p
    | _, _ => s) after

/-- Allocate and write what a context owns: descriptor, level-0 table, interrupt block, export table, task queue, save area. The task queue
is a run of pages of the home die (DESIGN CHOICE, log 41). -/
def State.buildContext (s : State) (n : Nat) (c : Context) (scope : Nat) : Option State :=
  match s.allocHomed n c.home with
  | none => none
  | some (s, desc) =>
    match s.allocHomed n c.home with
    | none => none
    | some (s, irq) =>
      match s.allocPhys n c.dieMask (2 ^ 21) (2 ^ 21) with
      | none => none
      | some (s, table) =>
        match s.allocPhys n c.dieMask 8192 4096 with
        | none => none
        | some (s, exports) =>
          match s.allocPhys n (BitVec.ofNat 4 (2 ^ (c.home / 16))) 65536 4096 with
          | none => none
          | some (s, tasks) =>
            match s.allocPhys n c.dieMask c.saveSize 4096 with
            | none => none
            | some (s, save) =>
              let c := { c with table := table, saveBase := save, pages := some { desc := desc, irq := irq, exports := exports, tasks := tasks } }
              let s := (s.writeFields desc (descriptorFields n c irq exports tasks scope)).writePhys (irq + 8) 8 (2 ^ 64 - 1)
              some { s with ctxs := Tab.put n c s.ctxs }

/-- The request's fields are as step 1 asks. -/
def createFields (x : Nat) : Bool :=
  let mib := bytesAt x 36 4
  bytesAt x 32 1 < 8 && bytesAt x 33 1 != 0 && bytesAt x 33 1 < 16 && bytesAt x 34 2 < 2 && 1 ≤ mib && mib ≤ 65536 && bytesAt x 40 8 % 64 == 0
    && bytesAt x 50 14 == 0

/-- The context a create request asks for; its measurement covers the request's DATA and the scope table as written. -/
def createdContext (x home scope : Nat) : Context :=
  { debuggable := bytesAt x 34 2 == 1, priority := bytesAt x 32 1, dieMask := BitVec.ofNat 4 (bytesAt x 33 1), fabric := BitVec.ofNat 16 (bytesAt x 48 2),
    saveSize := bytesAt x 36 4 * 2 ^ 20, home := home, scopes := scopesOf scope, measurement := shake256 (shakeBytes 32 (bytesAt x 32 32) ++ shakeBytes 1024 scope) }

/-- Request 0x05. What the instance of slice 0 asks of the home slice's instance (01 R20) is done in the step that asks it (DEDUCED, log 95). -/
def State.createRequest (s : State) (_ x : Nat) : Option (State × Nat) :=
  let image := bytesAt x 40 8
  let scope := if image = 0 then 0 else s.hostRead image 1024
  if !createFields x || !scopeTableOk scope then none
  else
    match s.freeContext with
    | none => none
    | some n => (s.buildContext n (createdContext x (s.homeFor (BitVec.ofNat 4 (bytesAt x 33 1))) scope) scope).map (fun s => (s, n))

/-- Create a context. -/
def execCreateContext (q : Nat) (s : State) : Host.Outcome State Fault Refusal := .next (s.serve q 5 State.createRequest)

/-! ### Destroy context (13 R372) -/

/-- Request 0x06. -/
def State.destroyRequest (q : Nat) (s : State) (_ x : Nat) : Option (State × Nat) :=
  let n := bytesAt x 32 2
  if n = 0 || bytesAt x 34 30 != 0 || !(s.context n).any (·.live) then none
  else some ((s.modQueue q (fun m => { m with wait := .destroy n })).endContext n, 0)

/-- Destroy a context. -/
def execDestroyContext (q : Nat) (s : State) : Host.Outcome State Fault Refusal := .next (s.serve q 6 (State.destroyRequest q))

/-- A physical page is allocated to a context. -/
def State.ownsPage (s : State) (c P : Nat) : Bool := s.phys.any (fun e => e.1 == c && decide (e.2.1 ≤ 4096 * P) && decide (4096 * P < e.2.1 + e.2.2))

/-- Every access of a context that ends has performed or faulted (step 6). -/
def State.contextIdle (s : State) (c : Nat) : Bool :=
  (s.context c).any (fun x => !x.live) && !s.groups.any (fun e => e.2.place.ctx == c) && !s.blks.any (fun e => e.2.ctx == c)
    && !s.copies.any (fun e => e.2.ctx == c) && !s.mxops.any (fun e => e.2.ctx == c)
    && !s.remotes.any (fun e => e.2.ctx == c) && !s.pagesBusy (s.ownsPage c)

/-- Its pages, tables and number are free (steps 7 and 8). -/
def State.freeContextOf (s : State) (c : Nat) : State :=
  let mine := fun (key : Nat) => key / 2 ^ 45 == c
  { s with
    zeroing := s.zeroing.filter (fun e => !s.ownsPage c e.1)
    phys := s.phys.filter (fun e => e.1 != c)
    dies := s.dies.map (fun (d : Nat × Die) => (d.1, { d.2 with tlb := d.2.tlb.filter (fun e => !mine e.1) }))
    cores := s.cores.map (fun (k : Nat × Core) =>
      (k.1, { k.2 with l1tlb := k.2.l1tlb.filter (fun e => !mine e.1), scales := k.2.scales.filter (fun e => e.ctx != c), trace := Tab.del c k.2.trace }))
    slices := s.slices.map (fun (k : Nat × Slice) =>
      (k.1, { k.2 with ring := k.2.ring.filter (fun e => e.ctx != c), ringWait := k.2.ringWait.filter (fun g => (s.group g).isSome) }))
    launches := s.launches.filter (fun e => e.2.ctx != c)
    ctxs := Tab.del c s.ctxs }

/-- The queue whose destroy request ends the context. -/
def State.destroyer (s : State) (c : Nat) : Option Nat := (s.host.queues.find? (fun q => q.2.wait == .destroy c)).map Prod.fst

/-- The last steps of a destroy; the completion of the request follows. -/
def execDestroyDrainComplete (id : Nat) (s : State) : Host.Outcome State Fault Refusal :=
  if s.contextIdle id then
    let s := s.freeContextOf id
    .next (match s.destroyer id with
      | some q => s.finishRecord q 0 0
      | none => s)
  else .next s

/-! ### Trace control (13 R373, 15 R397) -/

/-- Request 0x07: a core whose tracing of the context was suspended goes on. -/
def State.traceRequest (s : State) (_ x : Nat) : Option (State × Nat) :=
  let n := bytesAt x 32 2
  let va := bytesAt x 40 8
  let log2 := bytesAt x 48 1
  let kinds := bytesAt x 49 1
  let period := bytesAt x 50 1
  if !(s.context n).any (fun c => c.live && c.debuggable) || bytesAt x 34 6 != 0 || va % 4096 != 0 || log2 < 12 || 30 < log2 || 16 ≤ kinds || period < 10
      || 30 < period || bytesAt x 51 13 != 0 then none
  else
    let s := s.modTrace n (fun t => { t with bufva := BitVec.ofNat 64 va, log2size := BitVec.ofNat 8 log2, kinds := BitVec.ofNat 8 kinds,
                                             log2period := BitVec.ofNat 8 period, enable := va != 0 })
    some ({ s with cores := s.cores.map (fun (c : Nat × Core) => (c.1, { c.2 with trace := Tab.modify n (fun h => { h with suspended := false }) c.2.trace })) }, 0)

/-- Write a trace control block. -/
def execTraceControl (q : Nat) (s : State) : Host.Outcome State Fault Refusal := .next (s.serve q 7 State.traceRequest)

/-! ### Interrupt configuration (13 R373, 12 R341) -/

/-- Request 0x08 for a vector: mode and wake; the rest of the vector stays. -/
def State.configureVector (s : State) (n v x : Nat) : Option State :=
  let w := bytesAt x 40 8
  if 8 ≤ w || bytesAt x 48 16 != 0 then none
  else some (s.modIrq n (fun b => { b with vectors := Tab.put v { b.vector v with mode := BitVec.ofNat 2 w, wake := w / 4 == 1 } b.vectors }))

/-- Request 0x08 for a sender entry: the whole entry; kind 0 empties it. -/
def State.configureSender (s : State) (n i x : Nat) : Option State :=
  let kind := bytesAt x 48 1
  if 4 ≤ kind || bytesAt x 49 1 != 0 || bytesAt x 54 10 != 0 then none
  else if kind = 0 then some (s.modIrq n (fun b => { b with senders := Tab.del i b.senders }))
  else
    let e : IrqSender := { allowed := BitVec.ofNat 64 (bytesAt x 40 8), kind := BitVec.ofNat 2 kind, num := BitVec.ofNat 16 (bytesAt x 50 2),
                           dev := BitVec.ofNat 16 (bytesAt x 52 2) }
    some (s.modIrq n (fun b => { b with senders := Tab.put i e b.senders }))

/-- Request 0x08. Context 0 has none (13 R370; DEDUCED, log 103). -/
def State.irqRequest (s : State) (_ x : Nat) : Option (State × Nat) :=
  let n := bytesAt x 32 2
  let target := bytesAt x 34 1
  let i := bytesAt x 35 1
  if n = 0 || !(s.context n).any (·.live) || 2 ≤ target || 64 ≤ i || bytesAt x 36 4 != 0 then none
  else (if target = 0 then s.configureVector n i x else s.configureSender n i x).map (fun s => (s, 0))

/-- Configure an interrupt block. -/
def execInterruptConfiguration (q : Nat) (s : State) : Host.Outcome State Fault Refusal := .next (s.serve q 8 State.irqRequest)

end Sys2Proof.Machine
end

