-- ==== Sys2Proof/Machine/Platform.lean ====
section
/-! DEFINITION. Power-up and boot, power and temperature, ageing margins, measurement and attestation (16 R405-R415), firmware recovery (17 R427), skew measurement
(15 R396), the debug registers (15 R400-R404) and patrol scrub (20 R477). -/
namespace Sys2Proof.Machine

/-- Change the management block. -/
def State.modPlat (s : State) (f : Platform → Platform) : State := { s with plat := f s.plat }

/-! ### Rails and reset (16 R405) -/

/-- Rails in the order they are turned on: 0 auxiliary, 1 DRAM, 2 I/O, 3 core. -/
def railsUp (p : Platform) : Bool := p.rails == [0, 1, 2, 3] && !p.misordered

/-- Module reset: what the module holds is as after reset. Module flash, the fuses, the strap and the failed units stay; host memory is the host's. -/
def State.moduleReset (s : State) (rails : List Nat) (misordered : Bool) : State :=
  { State.reset with
    mem := s.mem.filter (fun e => decide (2 ^ 48 ≤ e.1))
    free := s.free
    plat := { rails := rails, misordered := misordered, strap := s.plat.strap, defects := s.plat.defects, slacks := s.plat.slacks, main := s.plat.main,
              rescue := s.plat.rescue, carried := s.plat.carried, minVersion := s.plat.minVersion, vendor := s.plat.vendor, secret := s.plat.secret } }

/-- A rail is turned on; out of order, the module stays in reset (16 R405). -/
def execRailOn (rail : Nat) (s : State) : Host.Outcome State Fault Refusal :=
  .next (if s.plat.rails.contains rail || 4 ≤ rail then s
    else s.modPlat (fun p => { p with rails := p.rails ++ [rail], misordered := p.misordered || rail != p.rails.length || !p.perst }))

/-- A rail is turned off: the module is in reset. -/
def execRailOff (rail : Nat) (s : State) : Host.Outcome State Fault Refusal :=
  .next (if s.plat.rails.contains rail then
      let left := s.plat.rails.filter (fun r => r != rail)
      s.moduleReset left (s.plat.misordered && !left.isEmpty)
    else s)

/-- PERST# is asserted: module reset. -/
def execPerstAssert (s : State) : Host.Outcome State Fault Refusal := .next (s.moduleReset s.plat.rails s.plat.misordered)

/-! ### Boot (16 R406, R411, R412) -/

/-- What the check of an image finds: 0 when it passes (16 R411, 17 R418). -/
def Image.fault (i : Image) (vendor : BitVec 512) (least : BitVec 32) : BitVec 16 :=
  if !i.bootable || i.signer != some vendor then 0xEF01 else if i.version.ult least then 0xEF02 else if !i.family then 0xEF03 else 0

/-- Phases 0 and 1: the image is selected, verified and measured; none when boot halts. BOOTERR keeps the code of a main image that failed. -/
def State.bootImage (s : State) : State × Bool :=
  let p := s.plat
  let e := if p.strap then 0 else p.main.fault p.vendor p.minVersion
  let rescue := p.strap || e != 0
  let s := ({ s with bootErr := e }).modPlat (fun p => { p with phase := 1, recovery := rescue })
  if rescue && p.rescue.fault p.vendor p.minVersion != 0 then ({ s with bootErr := 0xEF04 }, false) else (s, true)

/-- The running image. -/
def Platform.running (p : Platform) : Image := if p.recovery then p.rescue else p.main

/-- M takes in what the next stage runs (16 R412). -/
def State.measureStage (s : State) (stage : Nat) : State :=
  s.modPlat (fun p => { p with measurement := shake256 (shakeBytes 64 p.measurement.toNat ++ shakeBytes 64 (Config.imageDigest p.running.id stage).toNat) })

/-- "identity" in ASCII. -/
def identityText : List Byte := [0x69, 0x64, 0x65, 0x6E, 0x74, 0x69, 0x74, 0x79]

/-- Mask ROM derives the seeds of both keys from the device secret and locks it (16 R412, R413). The bytes of the secret are taken lowest first, and 512 bits of output
(DESIGN CHOICE, log 6). -/
def State.deriveKeys (s : State) : State :=
  s.modPlat (fun p =>
    let x := shakeBytes 32 p.secret.toNat
    { p with identitySeed := shake256 (x ++ identityText), aliasSeed := shake256 (x ++ shakeBytes 64 (Config.imageDigest p.running.id 0).toNat), locked := true })

/-- A failed unit: its level in the unit path decides what is fenced (17 R420, R425). -/
def failedPartitions (path : BitVec 32) : List Nat :=
  let core := 48 * (field 26 2 path).toNat + 4 * (field 22 4 path).toNat + (field 20 2 path).toNat
  if field 28 4 path = 4 then [16 * core + (field 16 4 path).toNat]
  else if field 28 4 path = 3 then (List.range 16).map (fun p => 16 * core + p) else []

/-- The self-test code of a unit: 0xDk01. -/
def selfTestCode (path : BitVec 32) : BitVec 16 := 0xD#4 ++ field 12 4 path ++ 1#8

/-- A unit fails self-test: recorded, and fenced when it can be. -/
def State.failUnit (s : State) (path : BitVec 32) : State :=
  let ks := failedPartitions path
  let r : Report := { code := selfTestCode path, path := path, slice := 16 * (field 26 2 path).toNat, auto := if ks.isEmpty then none else some 8 }
  let s := { s with fenced := s.fenced ++ ks.filter (fun k => !s.fenced.contains k) }
  if ks.isEmpty then { s.report r with bootErr := r.code } else s.report r

/-- Phase 2: every failed unit is found; one that cannot be fenced holds the module. -/
def State.selfTest (s : State) : State × Bool :=
  let s := s.modPlat (fun p => { p with phase := 2 })
  (s.plat.defects.foldl State.failUnit s, s.plat.defects.all (fun d => !(failedPartitions d).isEmpty))

/-- Phase 3: the counters of the dies start, each from a value the device does not fix (15 R396). -/
def State.startClocks (s : State) : State :=
  { (s.modPlat (fun p => { p with phase := 3 })) with
    clk := (List.range 4).foldl (fun c d => Assoc.set d (Config.freeWord (s.free + d)) c) s.clk
    free := s.free + 4 }

/-- Context 0: live, homed in slice 0, owning its descriptor and nothing else (13 R370). -/
def State.makeContext0 (s : State) : State :=
  let c : Context := {}
  let s := { s with ctxs := Tab.put 0 c s.ctxs }
  match s.allocHomed 0 0 with
  | some (s, a) => s.writeFields a (descriptorFields 0 c 0 0 0 0)
  | none => s

/-! ### The margin planner (16 R409, R410) -/

/-- Steps a slack asks for: up 2.5 mV per 4 ps short, down 2.5 mV per 8 ps spare. -/
def marginStep (slack : Int) : Int :=
  let short := 50 - slack
  if 0 < short then (short + 3) / 4 else -((-short) / 8)

/-- The offset before clamping. -/
def marginRaw (old slack : Int) : Int := old + marginStep slack

/-- The planned offset. -/
def marginOffset (old slack : Int) : Int := min (max (marginRaw old slack) (-20)) 30

/-- The smallest slack a core's monitors have reported since the previous plan. -/
def Platform.slackOf (p : Platform) (c : Nat) : Int := (Tab.get? c p.slacks).getD 50

/-- A reading of a monitor. -/
def Platform.noteSlack (p : Platform) (e : Nat × Int) : Platform :=
  if e.1 < 192 then { p with slacks := Tab.put e.1 (min e.2 ((Tab.get? e.1 p.slacks).getD e.2)) p.slacks } else p

/-- A core's margin under a new plan. -/
def Platform.planCore (p : Platform) (epoch : Word64) (c : Nat) : Margin :=
  let m := (Tab.get? c p.margins).getD {}
  let k := p.slackOf c
  { m with epoch := field 0 8 epoch, slack := BitVec.ofNat 8 (min (max k 0) 255).toNat, target := marginOffset m.target k }

/-- A core whose offset would exceed the range is fenced (16 R409). -/
def State.planFence (s : State) (old : Platform) (c : Nat) : State :=
  let m := (Tab.get? c old.margins).getD {}
  let ks := (List.range 16).map (fun p => 16 * c + p)
  if marginRaw m.target (old.slackOf c) ≤ 30 || ks.all s.fenced.contains then s
  else
    (s.report { code := 0xCF04, path := modulePath 0xF 0, slice := 0, detail := detail4 (BitVec.ofNat 64 c) 0 0 0, auto := some 8 }).fence ks (corePath c 0 0)

/-- Refresh and scrub of a slice's channel: halved refresh above 85 degrees or after more than 64 corrections; the scrub period lies from 6 to 24 hours and is
otherwise open, but the shorter the more corrections (16 R409): the least of the free values up to the count. -/
def Slice.plan (sl : Slice) (hot : Bool) : Slice :=
  let fixed := (sl.rowCounts.map (fun e => e.2.toNat)).sum
  { sl with refreshHalved := hot || decide (64 < fixed), scrubHours := 6 + ((List.range (fixed + 1)).map (fun i => Config.scrubSpan i % 19)).foldl min 18, rowCounts := [] }

/-- One plan: every core's offset, every channel's refresh and scrub, the fences, and the event of the plan. The shadow disagreements of the period are
forgotten (17 R425). -/
def State.planMargins (s : State) (hot : List Nat) : State :=
  let old := s.plat
  let epoch := old.epoch + 1
  let s := s.modPlat (fun p => { p with epoch := epoch, slacks := [], margins := (List.range 192).map (fun c => (c, old.planCore epoch c)) })
  let s := (List.range 64).foldl (fun s k => s.modSlice k (fun sl => sl.plan (hot.contains k))) s
  let s := { s with parts := s.parts.map (fun (e : Nat × Partition) => (e.1, { e.2 with shadowCount := 0 })) }
  let s := (List.range 192).foldl (fun s c => s.planFence old c) s
  s.report { code := 0xCF03, path := modulePath 0xF 0, slice := 0, detail := detail4 epoch 0 0 0 }

/-- The margin planner runs with what the monitors have reported and the channels that read above 85 degrees. -/
def execMarginPlan (slacks : List (Nat × Int)) (hot : List Nat) (s : State) : Host.Outcome State Fault Refusal :=
  .next (if s.plat.ready then (s.modPlat (fun p => slacks.foldl Platform.noteSlack p)).planMargins hot else s)

/-- A core's voltage moves one step towards its offset (16 R410). -/
def execVoltageStep (core : Nat) (s : State) : Host.Outcome State Fault Refusal :=
  .next (s.modPlat (fun p => { p with margins := Tab.modify core (fun m =>
    { m with offset := if m.offset < m.target then m.offset + 1 else if m.target < m.offset then m.offset - 1 else m.offset }) p.margins }))

/-- The boot sequence goes on with its next phase. -/
def State.bootOn (s : State) : State := (s.modPlat (fun p => { p with booting := true })).push [.perstDeassert]

/-- The boot sequence stands. -/
def State.bootEnds (s : State) : State := s.modPlat (fun p => { p with booting := false })

/-- The phase after the present one is entered and its work done (16 R406). -/
def State.bootPhase (s : State) : State :=
  if s.plat.phase = 1 then
    match s.selfTest with
    | (s, true) => s.bootOn
    | (s, false) => s.bootEnds
  else if s.plat.phase = 2 then s.startClocks.bootOn
  else if s.plat.phase = 3 then (((s.modPlat (fun p => { p with phase := 4 })).measureStage 1).makeContext0.planMargins []).bootOn
  else (s.modPlat (fun p => { p with phase := 5, ready := true })).bootEnds

/-- PERST# is deasserted: mask ROM selects, verifies and measures the image (phases 0 and 1), and the boot sequence goes on, each phase a step of its own, until it is ready, halts
or is held (16 R406). -/
def execPerstDeassert (s : State) : Host.Outcome State Fault Refusal :=
  if !s.plat.perst then .next (if s.plat.booting then s.bootPhase else s)
  else
    let s := s.modPlat (fun p => { p with perst := false })
    if !railsUp s.plat then .next s
    else
      match s.bootImage with
      | (s, false) => .next s
      | (s, true) => .next ((s.measureStage 0).deriveKeys).bootOn

/-! ### Power and temperature (16 R408) -/

/-- Average power of the last millisecond. -/
def Platform.average (p : Platform) : Nat := if p.samples.isEmpty then 0 else p.samples.sum / p.samples.length

/-- Whether issue is held back, from the average, the limit and the hottest sensor: it starts above the limit or at 105 degrees, and ends 5 % below the limit
with every sensor below 100. -/
def Platform.throttles (p : Platform) : Bool :=
  let w := p.average
  if decide (p.powerLim.toNat < w) || decide (105 ≤ p.tmax.toNat) then true
  else if decide (100 * w ≤ 95 * p.powerLim.toNat) && decide (p.tmax.toNat < 100) then false
  else p.throttle

/-- A report of the management block. -/
def platformReport (code : BitVec 16) (a b : Word64) : Report := { code := code, path := modulePath 0xF 0, slice := 0, detail := detail4 a b 0 0 }

/-- Set THROTTLE; a change raises an event of class 13. -/
def State.throttleNow (s : State) : State :=
  let t := s.plat.throttles
  if t = s.plat.throttle then s
  else (s.modPlat (fun p => { p with throttle := t })).report (platformReport 0xCF01 (zext 64 s.plat.watts) (zext 64 s.plat.tmax))

/-- A measurement of power and temperature. At 115 degrees every partition stops issue until the event's disposition. -/
def execPowerSample (watts : Nat) (temp : Nat) (s : State) : Host.Outcome State Fault Refusal :=
  let s := s.modPlat (fun p => { p with samples := (watts :: p.samples).take 100, tmax := BitVec.ofNat 16 (min temp 65535) })
  let s := (s.modPlat (fun p => { p with watts := BitVec.ofNat 16 (min p.average 65535) })).throttleNow
  .next (if decide (115 ≤ temp) && !s.plat.hot then
      (s.modPlat (fun p => { p with hot := true })).report { platformReport 0xCF02 (zext 64 s.plat.tmax) 0 with auto := none }
    else s)

/-- A write of POWERLIM: clamped into 600 to 2,200 W. BAR0 is served from phase 1 on (16 R406). -/
def execPowerlimWrite (x : BitVec 64) (s : State) : Host.Outcome State Fault Refusal :=
  .next (if s.plat.phase = 0 then s
    else (s.modPlat (fun p => { p with powerLim := BitVec.ofNat 12 (min (max (field 0 12 x).toNat 600) 2200) })).throttleNow)

/-! ### Skew (15 R396) -/

/-- The distance of two offsets of 48 bits. -/
def offsetDistance (a b : BitVec 48) : Nat := let d := (a - b).toInt; d.natAbs

/-- DIESKEW d from a measurement: its error bound holds the true offset, or the true offset is taken. -/
def State.dieSkewOf (s : State) (d : Nat) (x : Word64) : Word64 :=
  let real := field 0 48 (s.clkOf d - s.clkOf 0)
  let err := field 56 8 x
  let off := if err = 255 || offsetDistance (field 0 48 x) real ≤ err.toNat then field 0 48 x else real
  err ++ 0x80#8 ++ off

/-- The management block measures the counters: `offs` holds the measurement of dies 0 to 3, then of the ports, ERR in [63:56] and OFFSET in [47:0]. -/
def execSkewMeasurement (offs : List (BitVec 64)) (s : State) : Host.Outcome State Fault Refusal :=
  .next { s with
    dieSkew := (List.range 4).foldl (fun t d => Assoc.set d (s.dieSkewOf d (offs.getD d 0)) t) s.dieSkew
    portSkew := ((offs.drop 4).take 16).zipIdx.foldl (fun t e => Assoc.set e.2 (field 56 8 e.1 ++ 0x80#8 ++ field 0 48 e.1) t) s.portSkew }

/-! ### Attestation (16 R413-R415) -/

/-- The fenced set as 3,072 bits (17 R426). -/
def State.fencedBits (s : State) : Nat := s.fenced.foldl (fun a k => a ||| 2 ^ k) 0

/-- The signed part of a report. -/
def State.reportFields (s : State) : List Field :=
  let p := s.plat
  let c : Option Context := (s.context p.attCtx.toNat).filter (·.live)
  let flags := (if c.any (·.debuggable) then 1 else 0) + (if p.recovery then 2 else 0) + (if c.isNone then 4 else 0)
  [(0, 2, 1), (2, 2, p.attCtx.toNat), (4, 1, flags), (8, 8, Config.serialNumber.toNat), (16, 32, p.attNonce.toNat), (48, 64, p.measurement.toNat),
   (112, 64, ((c.map (fun (x : Context) => x.measurement)).getD 0).toNat), (176, 8, p.epoch.toNat), (184, 384, s.fencedBits), (568, 4, p.running.version.toNat),
   (640, 64, (Config.publicKey p.aliasSeed).toNat)]

/-- Value of fields. -/
def fieldsValue (l : List Field) : Nat := l.foldl (fun a f => a + f.2.2 % 256 ^ f.2.1 * 256 ^ f.1) 0

/-- The report: its signed part and the signature of the alias key (16 R414, R415). -/
def State.reportBuilt (s : State) : List Field :=
  let x := fieldsValue s.reportFields
  (0, 704, x) :: (List.range 3724).map (fun i => (704 + 8 * i, 8, (Config.signatureWord s.plat.aliasSeed x i).toNat))

/-- The certificate chain: its length, then the identity certificate and the alias certificate. -/
def State.chainBuilt (s : State) : List Field :=
  let p := s.plat
  let l := Config.identityCertificate Config.serialNumber (Config.publicKey p.identitySeed) ++ Config.aliasCertificate p.identitySeed (Config.publicKey p.aliasSeed)
  (0, 4, l.length % 2 ^ 32) :: l.zipIdx.map (fun b => (4 + b.2, 1, b.1.toNat))

/-- A write of ATTCTL, once BAR0 is served: CTX is kept; GO starts a report, or the chain for context 0xFFFF, unless one is being built. -/
def State.writeAttctl (s : State) (x : Word64) : State :=
  if s.plat.phase = 0 then s
  else
  let s := s.modPlat (fun p => { p with attCtx := field 32 16 x })
  if bit x 0 && !s.plat.attBusy then
    let chain := s.plat.attCtx == 0xFFFF
    let l := if chain then s.chainBuilt else s.reportBuilt
    let a := s.plat.attDst.toNat
    s.modPlat (fun p => { p with attBusy := true, attChain := chain, attReport := l.map (fun f => (a + f.1, f.2)) })
  else s

/-- GO with a context. -/
def execAttestationGo (x : BitVec 64) (s : State) : Host.Outcome State Fault Refusal := .next (s.writeAttctl x)

/-- GO with context 0xFFFF. -/
def execCertificateChainRequest (x : BitVec 64) (s : State) : Host.Outcome State Fault Refusal :=
  .next (if field 32 16 x = 0xFFFF then s.writeAttctl x else s)

/-- The report is written to the host, and BUSY clears. -/
def execAttestationReportDone (s : State) : Host.Outcome State Fault Refusal :=
  .next (if s.plat.attBusy then
      (s.plat.attReport.foldl (fun s f => s.hostWrite f.1 f.2.1 f.2.2) s).modPlat (fun p => { p with attBusy := false, attChain := false, attReport := [] })
    else s)

/-! ### Firmware recovery (17 R427) -/

/-- A write of FWCTL acts only in recovery: RESTORE starts the copy of the carried main image. -/
def execFirmwareRestore (x : BitVec 64) (s : State) : Host.Outcome State Fault Refusal :=
  .next (if s.plat.recovery && bit x 0 && !s.plat.fwBusy then s.modPlat (fun p => { p with fwBusy := true }) else s)

/-- The copied image is verified: it becomes bootable, or the main slot is marked unbootable. -/
def execFirmwareRestoreDone (s : State) : Host.Outcome State Fault Refusal :=
  .next (if !s.plat.fwBusy then s
    else if s.plat.carried.fault s.plat.vendor s.plat.minVersion = 0 then s.modPlat (fun p => { p with fwBusy := false, fwStatus := 0, main := p.carried })
    else ({ s with bootErr := 0xEF05 }).modPlat (fun p => { p with fwBusy := false, fwStatus := 0xEF05, main := { p.carried with bootable := false } }))

/-! ### Debug (15 R400-R404) -/

/-- The context the debug registers act on. -/
def State.debugCtx (s : State) : Nat := (field 32 16 s.dbg.tgt).toNat

/-- STOP freezes the target partition, unless it is stopped (15 R402, R403). -/
def State.stopTarget (s : State) : State :=
  if s.dbg.frozen.contains (field 0 12 s.dbg.tgt).toNat then s else s.stopPartition (field 0 12 s.dbg.tgt).toNat s.debugCtx

/-- RESUME restarts issue wherever it is stopped (DEDUCED, log 100). -/
def State.resumeTarget (s : State) : State := { s with dbg := { s.dbg with frozen := [], stopped := false } }

/-- A write of DBGCTL: an action that names a context that is not debuggable sets REFUSED and changes nothing (15 R404). -/
def State.writeDbgctl (s : State) (x : Word64) : State :=
  let s := if bit x 5 then { s with dbg := { s.dbg with refused := false } } else s
  if (bit x 0 || bit x 1 || bit x 2 || bit x 3) && !s.debuggable s.debugCtx then { s with dbg := { s.dbg with refused := true } }
  else
    let s := { s with dbg := { s.dbg with armBrk := bit x 2, armWp := bit x 3 } }
    let s := if bit x 1 then s.resumeTarget else s
    if bit x 0 then s.stopTarget else s

/-- STOP, with the arm bits of the write. -/
def execDebugStop (x : BitVec 64) (s : State) : Host.Outcome State Fault Refusal := .next (s.writeDbgctl (setBit x 0 true))

/-- RESUME, with the arm bits of the write. -/
def execDebugResume (x : BitVec 64) (s : State) : Host.Outcome State Fault Refusal := .next (s.writeDbgctl (setBit x 1 true))

/-- REFUSED is cleared. -/
def execDebugRefusedClear (s : State) : Host.Outcome State Fault Refusal := .next { s with dbg := { s.dbg with refused := false } }

/-! ### Patrol scrub (20 R477) -/

/-- The home L2 holds a dirty copy of a sector. -/
def State.dirtyInL2 (s : State) (k : Nat) : Bool := (s.line (k / 4)).dirty.getLsbD (k % 4)

/-- The scrub reads a sector: a corrected one is recorded and rewritten unless the L2 holds later data, an uncorrectable or misdirected one gets the poison
word, which a later write-back of the L2's data replaces. -/
def execPatrolScrub (sector : Nat) (s : State) : Host.Outcome State Fault Refusal :=
  let s' := s.modSector sector (fun t => { t with ecc := none })
  .next (match (s.sector sector).ecc with
    | none => s
    | some .corrected =>
      (if s.dirtyInL2 sector then s else s').report (memReport s 0xFFFF 0 0x3605 (64 * sector) 0 0 false)
    | some e =>
      (if s.dirtyInL2 sector then s' else s'.modSector sector (fun t => { t with poison := true })).report (memReport s 0xFFFF 0 0x3606 (64 * sector) (if e == .misdirected then 3 else 1) 0 false))

end Sys2Proof.Machine
end

