-- ==== Sys2Proof/Machine/Remote.lean ====
section
/-! DEFINITION. The coherent port and Wayline: acknowledgements, refusals, failures of ports and requests, the route table, and the accesses of peers (13 R381-R385,
20 R483-R485). -/
namespace Sys2Proof.Machine

/-- Releases of every core look at their acknowledgements again. -/
def State.wakeGates (s : State) : State := (Tab.keys s.cores).foldl State.wakeGate s

/-! ### The route table (13 R384) -/

/-- A request to a device is not acknowledged yet. -/
def State.owedBy (s : State) (dev : Nat) : Bool := s.remotes.any (fun e => !e.2.host && e.2.dev == dev)

/-- Changes whose old route has nothing outstanding take effect. -/
def State.applyRoutes (s : State) : State :=
  let now := s.routePending.filter (fun r => !s.owedBy r.1)
  now.foldl (fun s r => { s with routes := Assoc.set r.1 r.2 s.routes, ports := s.ports ||| r.2, routePending := s.routePending.erase r }) s

/-- The management block changes the ports of a destination device: after every request on the old route is acknowledged. -/
def execRouteTableChange (dev : Nat) (ports : BitVec 16) (s : State) : Host.Outcome State Fault Refusal :=
  .next ({ s with routePending := s.routePending ++ [(dev % 256, ports)] }).applyRoutes

/-! ### Answers to this device's requests -/

/-- A request is answered or given up. -/
def State.dropRemote (s : State) (id : Nat) : State := { s with remotes := Tab.del id s.remotes }

/-- A lane of a request to a peer is refused: it writes nothing, an `s.ld` nothing at all (20 R484). -/
def Group.refuseLane (g : Group) (out : Nat) (m : Mask) (ptr : Word64) : Group :=
  { g with flow := { g.flow with
    watch := g.flow.watch.map (fun (w : Nat × RunOn) =>
      if w.1 = out then (w.1, { w.2 with addr := if w.2.lanes = 0 ∨ m.ult w.2.lanes then ptr else w.2.addr, lanes := w.2.lanes ||| m }) else w)
    outstanding := g.flow.outstanding.map (fun o =>
      if o.id = out then { o with writes := o.writes.filter (fun w => match w with
        | .v L _ _ _ _ => !m.getLsbD L
        | .s _ _ => false
        | _ => true) } else o) } }

/-- A lane of a request that failed: its destination words are poisoned (20 R485). -/
def Group.poisonLane (g : Group) (out : Nat) (m : Mask) : Group :=
  { g with flow := { g.flow with outstanding := g.flow.outstanding.map (fun o =>
    if o.id = out then { o with writes := o.writes.map (fun w => match w with
      | .v L n x t p => .v L n x t (p || m.getLsbD L)
      | w => w) } else o) } }

/-- What the rear of a convoy was to receive of lanes that were refused, or whose request failed: refused lanes come with the re-injection, failed ones are
poisoned, and a failed `s.ld` has no value (02 R76). -/
def State.spoilPassed (s : State) (gi out : Nat) (m : Mask) (refused : Bool) : State :=
  { s with convoys := s.convoys.map (fun (e : Nat × Convoy) =>
      if e.2.lead = gi then
        (e.1, { e.2 with loads := e.2.loads.map (fun (x : PassedLoad) =>
          if x.out ≠ some out then x
          else if x.writes.any (fun w => match w with
            | .s _ _ => true
            | _ => false) then { x with missing := x.missing ||| m, writes := [] }
          else if refused then { x with missing := x.missing ||| m, writes := x.writes.filter (fun w => match w with
            | .v L _ _ _ _ => !m.getLsbD L
            | _ => true) }
          else { x with writes := x.writes.map (fun w => match w with
            | .v L n v t p => .v L n v t (p || m.getLsbD L)
            | w => w) }) })
      else e) }

/-- The uniform register that an outstanding instruction writes: it is an `s.ld`. -/
def Outstanding.uniformDst (o : Outstanding) : Option Nat :=
  o.writes.findSome? (fun w => match w with
    | .s n _ => some n
    | _ => none)

/-- A failed `s.ld` writes nothing and is the lane condition 0x100A (10 R283, 20 R485). -/
def Group.failUniform (g : Group) (out d : Nat) (m : Mask) : Group :=
  { g with flow := { g.flow with
    watch := g.flow.watch.map (fun (w : Nat × RunOn) => if w.1 = out then (w.1, { w.2 with cause := 0x100A, addr := operandAddr 1 d, lanes := m }) else w)
    outstanding := g.flow.outstanding.map (fun o => if o.id = out then { o with writes := [] } else o) } }

/-- A request of a load or atomic failed. -/
def Group.failRequest (g : Group) (out : Nat) (m : Mask) : Group :=
  match (g.out out).bind Outstanding.uniformDst with
  | some d => g.failUniform out d m
  | none => g.poisonLane out m

/-- The entry of the refused instruction, done but on the refused lanes. -/
def RunOn.refused (r : RunOn) : List ReplayEntry :=
  match r.queue with
  | e :: es => { e with done := e.mask &&& ~~~r.lanes } :: es
  | [] => []

/-- The lane condition of the refused lanes (20 R484): it joins the run-on of an older condition, or is taken once what its bundle has issued since has
completed. -/
def State.refusedStop (s : State) (gi : Nat) (r : RunOn) : State :=
  match s.group gi with
  | none => s
  | some g =>
    match g.runOn r.bundle with
    | some _ =>
      s.modGroup gi (fun g => g.modRunOn r.bundle (fun o => { o with queue := o.queue.map (fun e =>
        if e.pc = r.pc then { e with done := e.done &&& ~~~r.lanes } else e) }))
    | none =>
      (s.modGroup gi (fun g => { g with flow := { g.flow with runOns := g.flow.runOns ++
        [{ r with queue := r.refused ++ g.pendingEntries r.bundle, ended := true }] } })).settleEnded gi

/-- Every peer has answered an outstanding load or atomic: its data returns, and refused lanes are a lane condition. -/
def State.settleRemote (s : State) (gi out : Nat) : State :=
  match s.group gi with
  | none => s
  | some g =>
    if s.dataHere gi out then
      let ws := g.flow.watch.filter (fun w => w.1 == out && w.2.lanes != 0)
      let s := (s.modGroup gi (fun g => { g with flow := { g.flow with watch := g.flow.watch.filter (fun w => w.1 != out) } })).push [.loadDataReturn gi out]
      ws.foldl (fun s w => s.refusedStop gi w.2) s
    else s

/-- A write of a mailbox record was refused, or failed: its queue halts with a status (DESIGN CHOICE, log 86). -/
def State.failRecord (s : State) (q status : Nat) : State :=
  if (s.mailbox q).wait == .acks then (s.haltQueue q status).modQueue q (fun m => { m with wait := .none }) else s

/-- What follows every answer: releases, a mailbox record whose writes have all performed (04 R151) and pending routes look again. -/
def State.afterAnswer (s : State) (r : Remote) : State :=
  let s := match r.out with
    | some o => s.settleRemote r.g o
    | none => s
  let s := if r.kind < 3 then s.modGroup r.g Group.wakeTurned else s
  let s := if r.kind = 4 && !s.mailboxOwed r.g && (s.mailbox r.g).wait == .acks then s.finishRecord r.g 0 0 else s
  s.applyRoutes.wakeGates

/-- A peer acknowledges a request (13 R385). -/
def execWaylineAck (id : Nat) (s : State) : Host.Outcome State Fault Refusal :=
  match Tab.get? id s.remotes with
  | none => .next s
  | some r =>
    if r.host then .next s
    else
      let s := s.dropRemote id
      let s := if r.kind = 3 then s.copyAnswered id false else s
      .next (s.afterAnswer r)

/-- A peer refuses a request (20 R484): a load or an atomic stops its lanes, a store makes its bundle trap at its next issue, a copy segment ends its record. A
refused interrupt is not told. -/
def execRemoteRefusal (id : Nat) (s : State) : Host.Outcome State Fault Refusal :=
  match Tab.get? id s.remotes with
  | none => .next s
  | some r =>
    if r.host then .next s
    else
      let s := s.dropRemote id
      let s := if r.kind = 3 then s.copyAnswered id true
        else if r.kind = 0 then s.modGroup r.g (fun g => { g with flow := { g.flow with refusals := g.flow.refusals ++ [(r.mask, r.ptr)] } })
        else if r.kind = 1 then s.modGroup r.g (fun g => g.refuseLane (r.out.getD 0) r.mask r.ptr) |>.spoilPassed r.g (r.out.getD 0) r.mask true
        else if r.kind = 4 then s.failRecord r.g 3
        else s
      .next (s.afterAnswer r)

/-- The record of a request that stays unacknowledged. -/
def unackedReport (s : State) (r : Remote) : Report :=
  let ctx := if r.kind = 4 then some (s.mailbox r.g).ctx else (s.group r.g).map (·.place.ctx)
  { code := 0xAD03, path := diePath (r.port / 4 % 4) 0xD r.port, ctx := (ctx.map (BitVec.ofNat 16)).getD 0xFFFF, slice := (ctx.map s.homeSlice).getD 0
    detail := detail4 r.ptr (BitVec.ofNat 64 r.pa) 0 0 }

/-- Fabric releases that wait for a failed store are stopped; with none, the failure is recorded by itself. -/
def State.failStore (s : State) (id : Nat) (r : Remote) : State :=
  let hs := s.cores.flatMap (fun c => (c.2.gate.filter (fun h => h.acks.contains id)).map (fun h => (c.1, h)))
  let rep := unackedReport s r
  if hs.isEmpty then s.report rep else hs.foldl (fun s h => s.failHeld h.1 h.2 0xAD03 h.2.act.pointer h.2.pc rep) s

/-- A request has had no acknowledgement for 1 ms: with a route it is sent again, else it fails (20 R485). -/
def execWaylineRequestTimeout (id : Nat) (s : State) : Host.Outcome State Fault Refusal :=
  match Tab.get? id s.remotes with
  | none => .next s
  | some r =>
    if r.host then .next s
    else if s.portsTo r.die r.dev != 0 then .next (s.push [.waylineAck id])
    else
      let s := s.dropRemote id
      let s := if r.kind = 0 then s.failStore id r
        else
          let s := s.report (unackedReport s r)
          if r.kind = 3 then s.copyAnswered id true
          else if r.kind = 1 then s.modGroup r.g (fun g => g.failRequest (r.out.getD 0) r.mask) |>.spoilPassed r.g (r.out.getD 0) r.mask false
          else if r.kind = 4 then s.failRecord r.g 2
          else s
      .next (s.afterAnswer r)

/-- The record of a port. -/
def portReport (code : BitVec 16) (port : Nat) : Report :=
  { code := code, path := diePath (port / 4 % 4) 0xD port, slice := 16 * (port / 4 % 4), detail := detail4 (BitVec.ofNat 64 port) 0 0 0 }

/-- A port fails: it leaves the route table, and its unacknowledged requests go over another route, in their order, or wait for their failure (20 R485). -/
def execWaylinePortDown (port : Nat) (s : State) : Host.Outcome State Fault Refusal :=
  let s := (s.report (portReport 0xAD01 port))
  let s := { s with ports := s.ports &&& ~~~(BitVec.ofNat 16 (2 ^ port)) }
  let owed := s.remotes.filter (fun e => !e.2.host && e.2.port == port)
  .next (owed.foldl (fun s e =>
    let ps := s.portsTo e.2.die e.2.dev
    if ps = 0 then s.push [.waylineRequestTimeout e.1]
    else { s with remotes := Tab.put e.1 { e.2 with port := ctzFrom ps 16 0 } s.remotes }) s)

/-- A port retrains without losing a request. -/
def execWaylinePortRetrained (port : Nat) (s : State) : Host.Outcome State Fault Refusal := .next (s.report (portReport 0xAD02 port))

/-! ### The coherent port (20 R483) -/

/-- Host memory acknowledges a write; nothing comes while the port is down. -/
def execCxlWriteAcknowledgement (id : Nat) (s : State) : Host.Outcome State Fault Refusal :=
  match Tab.get? id s.remotes with
  | none => .next s
  | some r => .next (if r.host && s.cxlUp then (s.dropRemote id).wakeGates else s)

/-- The coherent port fails. -/
def execCxlPortFailure (s : State) : Host.Outcome State Fault Refusal := .next { s with cxlUp := false }

/-- The coherent port is up again: the held writes reach the host. -/
def execCxlPortRecovery (s : State) : Host.Outcome State Fault Refusal :=
  .next (({ s with cxlUp := true }).push ((s.remotes.filter (fun (e : Nat × Remote) => e.2.host)).map (fun (e : Nat × Remote) => Instr.cxlWriteAcknowledgement e.1)))

/-! ### Accesses of peers (13 R382) -/

/-- The kinds of a peer's access: bits [5:4] 0 load, 1 store, 2 atomic of operation [3:0], 3 addition of a copy record, FP32 or BF16 pairs by bit 0. -/
def peerNeed (op : BitVec 6) : Need := if field 4 2 op = 0 then { read := true } else if field 4 2 op = 2 then { read := true, write := true } else { write := true }

/-- The permission bit a peer's access needs: read, write, or atomic for a read-modify-write. -/
def peerPermission (op : BitVec 6) : Nat := if field 4 2 op = 0 then 0 else if field 4 2 op = 1 then 1 else 2

/-- The context whose export entry names the sender and covers the access. -/
def State.exporter (s : State) (dev ctx : BitVec 16) (entry : BitVec 8) (off : BitVec 32) (op : BitVec 6) (size : Nat) : Option (Nat × ExportEntry) :=
  (s.ctxs.filter (·.2.live)).findSome? (fun c => (Tab.get? entry.toNat c.2.exports).bind (fun e =>
    if e.dev = dev ∧ e.ctx = ctx ∧ off.toNat + size ≤ e.size.toNat ∧ bit e.perms (peerPermission op) then some (c.1, e) else none))

/-- Translate the pieces of the access in the exporter's context; none when one fails. -/
def State.exportPieces (s : State) (ctx : Nat) (need : Need) : List Piece → State × Option (List Landed)
  | [] => (s, some [])
  | p :: ps =>
    match s.leafFor 0 ctx (virtOf p.2.2) with
    | .error _ => (s, none)
    | .ok l =>
      match l.check need with
      | some _ => (s, none)
      | none =>
        let s := s.fillTlb 0 ctx (virtOf p.2.2) l need.write
        let r := s.exportPieces ctx need ps
        (r.1, r.2.map (fun t => landed p (l.phys (virtOf p.2.2)) l :: t))

/-- A peer's write performs at the home, which records it with role 6. -/
def State.peerWrite (s : State) (dev : Nat) (x : Landed) (v : Nat) : State :=
  s.agentWrite (peerAgent dev) x.pa x.home x.pin (fun s => (s.showCode x.pa x.len).writeMem x.pa x.len v)

/-- The words of a store or an addition, as a value. -/
def wordsValue (l : List (BitVec 32)) : Nat := valueOf l

/-- Perform a peer's access on its pieces: the value read, the first byte lowest. -/
def State.peerPerform (s : State) (dev : Nat) (op : BitVec 6) (size : Nat) (data : List (BitVec 32)) (l : List Landed) : State × Nat :=
  let old := l.foldl (fun a x => a + s.readPhys x.pa x.len * 256 ^ x.off) 0
  if field 4 2 op = 0 then (l.foldl (fun s x => s.agentRead (peerAgent dev) x.pa x.home x.pin) s, old)
  else
    let new : Option Nat :=
      if field 4 2 op = 1 then some (wordsValue data)
      else if field 4 2 op = 2 then atomNew (field 0 4 op) old data
      else some (valueOf ((List.range (size / 4)).map (fun i =>
        let a := BitVec.ofNat 32 (old / 2 ^ (32 * i))
        let b := data.getD i 0
        if bit op 0 then halves (fun x y => bf16.addCode x y) a b else fadd a b)))
    match new with
    | none => (s, old)
    | some v => (l.foldl (fun s x => s.peerWrite dev x (v / 256 ^ x.off % 256 ^ x.len)) s, old)

/-- A peer's access arrives: performed at the home when the export entry allows it and it translates, else refused. It waits for a line that an engine owns
(03 R108). -/
def execWaylineRemoteAccess (dev : BitVec 16) (ctx : BitVec 16) (entry : BitVec 8) (off : BitVec 32) (op : BitVec 6) (size : Nat) (data : List (BitVec 32)) (s : State) :
    Host.Outcome State Fault Refusal :=
  let refuse := fun (s : State) => { s with replies := s.replies ++ [{ dev := dev, value := none }] }
  match s.exporter dev ctx entry off op size with
  | none => .next (refuse s)
  | some (c, e) =>
    match s.exportPieces c (peerNeed op) (pieces (plusPtr e.va off.toNat) size) with
    | (s, none) => .next (refuse s)
    | (s, some l) =>
      if l.any (fun x => s.engineOwns (sectorOf x.pa)) then .next (s.later 1 (.waylineRemoteAccess dev ctx entry off op size data))
      else
      let r := s.peerPerform dev.toNat op size data l
      .next { r.1 with replies := r.1.replies ++ [{ dev := dev, value := some r.2 }] }

end Sys2Proof.Machine
end

