-- ==== Sys2Proof/Machine/Bar0.lean ====
section
/-! DEFINITION. The registers of BAR0 (13 R353): what a host write does and what a read returns. -/
namespace Sys2Proof.Machine

/-- Change the debug registers. -/
def State.modDebug (s : State) (f : DebugRegs → DebugRegs) : State := { s with dbg := f s.dbg }

/-- Change the host-facing registers. -/
def State.modHost (s : State) (f : HostSide → HostSide) : State := { s with host := f s.host }

/-- Bits that a write of DBGTGT and of a WPCTL keeps (15 R400). -/
def dbgtgtMask : Word64 := 0x0000FFFF00000FFF#64
def wpctlMask : Word64 := 0x1F07#64
/-- Bits [63:12]. -/
def pageMask : Word64 := 0xFFFFFFFFFFFFF000#64

/-- The debug registers, by offset from 0xC000 (15 R400). -/
def State.writeDebug (s : State) (o : Nat) (x : Word64) : State :=
  if o = 0 then s.modDebug (fun d => { d with tgt := x &&& dbgtgtMask })
  else if o = 8 then s.writeDbgctl x
  else if o = 16 then s.modDebug (fun d => { d with dump := x &&& pageMask })
  else if 0x20 ≤ o ∧ o < 0x60 then
    let n := (o - 0x20) / 16
    if o % 16 = 0 then s.modDebug (fun d => { d with wpAddr := Assoc.set n x d.wpAddr })
    else s.modDebug (fun d => { d with wpCtl := Assoc.set n (x &&& wpctlMask) d.wpCtl })
  else s

/-- The management registers, by offset (16 R408, R414, 17 R427). -/
def State.writeManagement (s : State) (o : Nat) (x : Word64) : State :=
  if o = 0x10 then (s.modPlat (fun p => { p with powerLim := BitVec.ofNat 12 (min (max (field 0 12 x).toNat 600) 2200) })).throttleNow
  else if o = 0x800 then s.writeAttctl x
  else if o = 0x808 then s.modPlat (fun p => { p with attDst := x &&& pageMask })
  else if 0x810 ≤ o ∧ o < 0x830 then
    let k := 8 * (o - 0x810)
    s.modPlat (fun p => { p with attNonce := (p.attNonce &&& ~~~(zext 256 (BitVec.allOnes 64) <<< k)) ||| (zext 256 x <<< k) })
  else if o = 0x900 then (if s.plat.recovery && bit x 0 && !s.plat.fwBusy then s.modPlat (fun p => { p with fwBusy := true }) else s)
  else if 0xC000 ≤ o then s.writeDebug (o - 0xC000) x
  else s

/-- The value a routing entry takes: OWNER of class 1 stays 0 (13 R365). -/
def routeValue (c : Nat) (x : Word64) : Word64 := x &&& (if c = 1 then 0x07FF0004#64 else 0x07FF0007#64)

/-- The routing table and the host event queue, by offset from 0x10000 (13 R363, R365). -/
def State.writeRouting (s : State) (o : Nat) (x : Word64) : State :=
  if o < 128 then s.modHost (fun h => { h with route := h.route.set (o / 8) (routeValue (o / 8) x) })
  else if o = 0x200 then s.modHost (fun h => { h with heqBase := x &&& pageMask })
  else if o = 0x208 then s.writeHeqctl x
  else if o = 0x210 then s.modHost (fun h => { h with heqHead := field 0 32 x })
  else s

/-- The registers of a mailbox queue, by offset (13 R355). -/
def State.writeMailbox (s : State) (q o : Nat) (x : Word64) : State :=
  if o = 0 then s.modQueue q (fun m => { m with base := x &&& pageMask })
  else if o = 8 then s.writeMqctl q x
  else if o = 16 then s.writeTail q (field 0 32 x)
  else if o = 32 then s.modQueue q (fun m => { m with cbase := x &&& pageMask })
  else s

/-- A write of 8 bytes at an offset of BAR0; offsets not listed ignore it (13 R353). -/
def State.writeBar0 (s : State) (off : Nat) (x : Word64) : State :=
  let o := off / 8 * 8
  if o < 0x10000 then s.writeManagement o x
  else if o < 0x20000 then s.writeRouting (o - 0x10000) x
  else if 0x100000 ≤ o ∧ o < 0x104000 then s.writeMailbox ((o - 0x100000) / 64) ((o - 0x100000) % 64) x
  else if 0x200000 ≤ o ∧ o < 0x208000 then s.modHost (fun h => h.writeMsix ((o - 0x200000) / 8) x)
  else s

/-- The host writes a register of BAR0, which is served from boot phase 1 on (16 R406). -/
def execBar0RegisterWrite (off : Nat) (x : BitVec 64) (s : State) : Host.Outcome State Fault Refusal :=
  .next (if 1 ≤ s.plat.phase then s.writeBar0 off x else s)

/-! ### Reads -/

/-- MGMTSTAT (16 R407). -/
def Platform.status (p : Platform) : Word64 :=
  0#56 ++ p.phase ++ ofBool 1 p.recovery ++ ofBool 1 p.strap ++ ofBool 1 p.throttle ++ ofBool 1 p.ready

/-- MARGIN c (16 R410). -/
def Margin.register (m : Margin) : Word64 := 0#24 ++ m.epoch ++ m.slack ++ 0#8 ++ BitVec.ofInt 8 m.target ++ 0#8

/-- DBGCTL as it reads (15 R400). -/
def DebugRegs.control (d : DebugRegs) : Word64 :=
  0#58 ++ ofBool 1 d.refused ++ ofBool 1 (d.stopped && d.frozen.contains (field 0 12 d.tgt).toNat) ++ ofBool 1 d.armWp ++ ofBool 1 d.armBrk ++ 0#2

/-- The debug registers. -/
def State.readDebug (s : State) (o : Nat) : Word64 :=
  let d := s.dbg
  if o = 0 then d.tgt else if o = 8 then d.control else if o = 16 then d.dump
  else if 0x20 ≤ o ∧ o < 0x60 then (if o % 16 = 0 then Assoc.get ((o - 0x20) / 16) d.wpAddr else Assoc.get ((o - 0x20) / 16) d.wpCtl)
  else 0

/-- The management registers. -/
def State.readManagement (s : State) (o : Nat) : Word64 :=
  let p := s.plat
  if o = 8 then p.status
  else if o = 0x10 then zext 64 p.powerLim
  else if o = 0x18 then 0#32 ++ p.tmax ++ p.watts
  else if o = 0x28 then zext 64 s.bootErr
  else if 0x100 ≤ o ∧ o < 0x700 then ((Tab.get? ((o - 0x100) / 8) p.margins).getD {}).register
  else if o = 0x800 then 0#16 ++ p.attCtx ++ 0#30 ++ ofBool 1 p.attBusy ++ 0#1
  else if o = 0x808 then p.attDst
  else if 0x810 ≤ o ∧ o < 0x830 then field (8 * (o - 0x810)) 64 p.attNonce
  else if o = 0x900 then 0#32 ++ p.fwStatus ++ 0#14 ++ ofBool 1 p.fwBusy ++ 0#1
  else if 0xA00 ≤ o ∧ o < 0xB80 then BitVec.ofNat 64 (s.fencedBits / 2 ^ (8 * (o - 0xA00)))
  else if 0xC000 ≤ o then s.readDebug (o - 0xC000)
  else 0

/-- The registers of a mailbox queue. -/
def Mailbox.register (m : Mailbox) (o : Nat) : Word64 :=
  if o = 0 then m.base else if o = 8 then m.ctl else if o = 16 then zext 64 m.tail else if o = 24 then zext 64 m.head else if o = 32 then m.cbase
  else if o = 40 then 0#16 ++ m.status ++ m.index else 0

/-- The routing table and the host event queue. -/
def State.readRouting (s : State) (o : Nat) : Word64 :=
  let h := s.host
  if o < 128 then (h.route[o / 8]?).getD 0 else if o = 0x200 then h.heqBase else if o = 0x208 then h.heqCtl
  else if o = 0x210 then zext 64 h.heqHead else if o = 0x218 then zext 64 h.heqTail else 0

/-- What a read of 8 bytes returns. Offsets not listed read as zero, and so does all of BAR0 before boot phase 1. -/
def State.readBar0 (s : State) (off : Nat) : Word64 :=
  let o := off / 8 * 8
  if s.plat.phase = 0 then 0
  else if o < 0x10000 then s.readManagement o
  else if o < 0x20000 then s.readRouting (o - 0x10000)
  else if 0x100000 ≤ o ∧ o < 0x104000 then (s.mailbox ((o - 0x100000) / 64)).register ((o - 0x100000) % 64)
  else if 0x200000 ≤ o ∧ o < 0x208000 then s.host.msixWord ((o - 0x200000) / 8)
  else if 0x208000 ≤ o ∧ o < 0x208100 then field (8 * (o - 0x208000)) 64 s.host.msixPending
  else 0

end Sys2Proof.Machine
end

