-- ==== Sys2Proof/Machine/CrossLane.lean ====
section
/-! DEFINITION. Reductions, scans, lane reads, broadcasts, permutation slots and block encoding (09 R269-R275). -/
namespace Sys2Proof.Machine

/-- The operands of `vred`. -/
def useVred (v : BitVec 6) (u : BitVec 8) (p : BitVec 2) : Use :=
  { vsrc := [{ reg := v.toNat, sel := p.toNat }], sdst := [u.toNat] }

/-- The combination of a list from left to right. A single value is no arithmetic result: it passes with its bits (DESIGN CHOICE, log 94). -/
def combine (f : Word32 → Word32 → Word32) : List Word32 → Word32
  | [] => 0#32
  | x :: xs => xs.foldl f x

/-- A reduction over the active threads in ascending index (09 R269); `sg` sign-extends the result. -/
def vredOp (v : BitVec 6) (u : BitVec 8) (p : BitVec 2) (sw sg : Bool) (f : Word32 → Word32 → Word32) : VecOp :=
  { use := useVred v u p, sw := sw
    writes := fun _ _ ins =>
      let r := combine f (ins.map LaneIn.a)
      [.s u.toNat (if sg then sext 64 r else zext 64 r)] }

/-- The prefix combinations of a list: element j combines elements 0 to j. -/
def scanl1 (f : Word32 → Word32 → Word32) : List Word32 → List Word32
  | [] => []
  | x :: xs => x :: scanFrom f x xs
where
  scanFrom (f : Word32 → Word32 → Word32) (acc : Word32) : List Word32 → List Word32
    | [] => []
    | y :: ys => f acc y :: scanFrom f (f acc y) ys

/-- The scan results of the active threads: inclusive, or exclusive with an identity (09 R270). -/
def scanResults (f : Word32 → Word32 → Word32) (idn : Word32) (ex : Bool) (xs : List Word32) : List Word32 :=
  if ex then idn :: (scanl1 f xs).dropLast else scanl1 f xs

/-- A thread's scan result is tainted when a value combined into it is (03 R89). -/
def scanTaint (ex : Bool) (ts : List Bool) (j : Nat) : Bool := (ts.take (if ex then j else j + 1)).any id

/-- The writes of a scan, from position `j` on. -/
def scanWrites (d : Nat) (ex : Bool) (ts : List Bool) : Nat → List LaneIn → List Word32 → List RegWrite
  | _, [], _ => []
  | _, _, [] => []
  | j, i :: is, x :: xs => .v i.L d x (scanTaint ex ts j) false :: scanWrites d ex ts (j + 1) is xs

/-- A scan (09 R270). -/
def vscanOp (d a : BitVec 6) (p : BitVec 2) (e : BitVec 1) (sw : Bool) (f : Word32 → Word32 → Word32) (idn : Word32) : VecOp :=
  { use := useVUslow d a p, sw := sw
    writes := fun _ _ ins =>
      scanWrites d.toNat (e == 1) (ins.map anyTaint) 0 ins (scanResults f idn (e == 1) (ins.map LaneIn.a)) }

/-- The exact value of the last step of a thread's add.f32 scan, and its shadow (21 R494). -/
def scanShadow (ex : Bool) (L : Nat) (ins : List LaneIn) : BitVec 16 :=
  let xs := (ins.takeWhile (fun i => if ex then i.L < L else i.L ≤ L)).map LaneIn.a
  match xs.reverse with
  | [] => 0
  | [x] => shadow32 (f32.decode x.toNat)
  | x :: rest => shadow32 (faddV (combine fadd rest.reverse) x)

/-- The operands of `rdlane` (09 R271): its word comes from the thread that the uniform register names, which need not be active. -/
def useRdlane (v : BitVec 6) (u : BitVec 8) : Use := { vsrc := [{ reg := v.toNat, sel := 4 + u.toNat }], ssrc := [u.toNat], sdst := [u.toNat] }

/-- `rdlane` as an issue. -/
def rdlaneOp (v : BitVec 6) (u : BitVec 8) (sw : Bool) : Op :=
  ({ use := useRdlane v u, sw := sw
     writes := fun _ _ ins => match ins with
       | [] => []
       | i :: _ => [.s u.toNat (zext 64 i.a)] } : VecOp).op

/-- The operands of `bcast` and `bcastd`. -/
def useBcast (v : BitVec 6) (u : BitVec 8) (cnt : Nat) : Use := { ssrc := [u.toNat], vdst := [(v.toNat, cnt)] }

/-- The illegal-operand condition of a permutation descriptor (09 R272): kind 9, number the slot. That of a re-injected entry is the captured one (18
R432). -/
def permStop (v : BitVec 6) (u : BitVec 8) (is : Issue) (sel : Sel) (g : Group) : Option Stop :=
  let x := uniSrc is g u 0
  if field 21 43 x != 0 || field 0 3 x == 7 || field 9 3 x == 7 || (bit x 12 && decide (g.place.ucount ≤ (field 13 8 x).toNat)) then
    some (illegal sel.mask 9 v.toNat)
  else none

/-- `perm.set` (09 R272): the slot takes the descriptor at once (03 R87). -/
def permSetOp (v : BitVec 6) (u : BitVec 8) (sw : Bool) : Op :=
  { use := { ssrc := [u.toNat] }, sw := sw
    checks := fun _ is sel g =>
      let c := stdChecks { ssrc := [u.toNat] } is sel g
      match c with
      | op :: rest => op :: permStop v u is sel g :: rest
      | [] => []
    effect := fun _ sel e => onGroup (fun g =>
      { g with regs := { g.regs with perm := Assoc.set v.toNat (lowWord (e.uni.getD 0 0)) g.regs.perm } }) sel }

/-- The `d` of a block encoding (06 R194). -/
def bxShift (dflt : Nat) (u : BitVec 8) (i : LaneIn) : Nat := if u = 0 then dflt else (field 0 5 (i.s.getD 0 0)).toNat

/-- The operands of `bx.enc8` and `bx.enc4`. -/
def useBxEnc (v : BitVec 6) (u : BitVec 8) (p : BitVec 2) : Use :=
  { vsrc := [{ reg := v.toNat, sel := p.toNat }], ssrc := [u.toNat], vdst := [(v.toNat, 1)] }

/-- The elements of block `blk`: the active threads' values, 0.0 for the others (09 R274). -/
def bxInputs (blk : Nat) (ins : List LaneIn) : List Word32 :=
  (List.range 32).map (fun i => match ins.find? (fun l => l.L == 32 * blk + i) with
    | some l => l.a
    | none => 0#32)

/-- The word a thread of an encoded block receives: X1, X0 and its element (09 R274). -/
def bxEncWord (f : BxFmt) (d : Nat) (xs : List Word32) (i : Nat) : Word32 :=
  match bxEncode f d xs with
  | (x0, x1, els) => 0#8 ++ BitVec.ofNat 8 x1 ++ BitVec.ofNat 8 x0 ++ BitVec.ofNat 8 (els.getD i 0)

/-- The write of one thread of a block encoding; a tainted active thread of the block taints every word of it (03 R89). -/
def bxEncWrite (f : BxFmt) (dflt : Nat) (v : BitVec 6) (u : BitVec 8) (ins : List LaneIn) (i : LaneIn) : RegWrite :=
  .v i.L v.toNat (bxEncWord f (bxShift dflt u i) (bxInputs (i.L / 32) ins) (i.L % 32))
    ((ins.filter (fun j => j.L / 32 == i.L / 32)).any anyTaint) false

/-- Block encoding (09 R274). -/
def bxEncOp (f : BxFmt) (dflt : Nat) (v : BitVec 6) (u : BitVec 8) (p : BitVec 2) (sw : Bool) : VecOp :=
  { use := useBxEnc v u p, sw := sw, writes := fun _ _ ins => ins.map (bxEncWrite f dflt v u ins) }

/-- Block decoding of one word (09 R275). -/
def bxDecW (f : BxFmt) (width : Nat) (a : Word32) : Word32 :=
  bxDecode f (field 8 8 a).toNat (field 16 8 a).toNat (a.toNat % 2 ^ width)

/-- `vred` AddS32 (09 R269). -/
def execVredAddS32 (v : BitVec 6) (u : BitVec 8) (p : BitVec 2) (sw : Bool) (s : State) : Host.Outcome State Fault Refusal :=
  issueVector (vredOp v u p sw true (fun x y => x + y)) s

/-- `vred` MinS32 (09 R269). -/
def execVredMinS32 (v : BitVec 6) (u : BitVec 8) (p : BitVec 2) (sw : Bool) (s : State) : Host.Outcome State Fault Refusal :=
  issueVector (vredOp v u p sw true iminW) s

/-- `vred` MaxS32 (09 R269). -/
def execVredMaxS32 (v : BitVec 6) (u : BitVec 8) (p : BitVec 2) (sw : Bool) (s : State) : Host.Outcome State Fault Refusal :=
  issueVector (vredOp v u p sw true imaxW) s

/-- `vred` MinB32 (09 R269). -/
def execVredMinB32 (v : BitVec 6) (u : BitVec 8) (p : BitVec 2) (sw : Bool) (s : State) : Host.Outcome State Fault Refusal :=
  issueVector (vredOp v u p sw false nminW) s

/-- `vred` MaxB32 (09 R269). -/
def execVredMaxB32 (v : BitVec 6) (u : BitVec 8) (p : BitVec 2) (sw : Bool) (s : State) : Host.Outcome State Fault Refusal :=
  issueVector (vredOp v u p sw false nmaxW) s

/-- `vred` MinF32 (09 R269). -/
def execVredMinF32 (v : BitVec 6) (u : BitVec 8) (p : BitVec 2) (sw : Bool) (s : State) : Host.Outcome State Fault Refusal :=
  issueVector (vredOp v u p sw false fminW) s

/-- `vred` MaxF32 (09 R269). -/
def execVredMaxF32 (v : BitVec 6) (u : BitVec 8) (p : BitVec 2) (sw : Bool) (s : State) : Host.Outcome State Fault Refusal :=
  issueVector (vredOp v u p sw false fmaxW) s

/-- `vred` And (09 R269). -/
def execVredAnd (v : BitVec 6) (u : BitVec 8) (p : BitVec 2) (sw : Bool) (s : State) : Host.Outcome State Fault Refusal :=
  issueVector (vredOp v u p sw false (fun x y => x &&& y)) s

/-- `vred` Or (09 R269). -/
def execVredOr (v : BitVec 6) (u : BitVec 8) (p : BitVec 2) (sw : Bool) (s : State) : Host.Outcome State Fault Refusal :=
  issueVector (vredOp v u p sw false (fun x y => x ||| y)) s

/-- `vred` Xor (09 R269). -/
def execVredXor (v : BitVec 6) (u : BitVec 8) (p : BitVec 2) (sw : Bool) (s : State) : Host.Outcome State Fault Refusal :=
  issueVector (vredOp v u p sw false (fun x y => x ^^^ y)) s

/-- `vred.add.f32` (09 R269): each step rounded. -/
def execVredAddF32 (v : BitVec 6) (u : BitVec 8) (p : BitVec 2) (sw : Bool) (s : State) : Host.Outcome State Fault Refusal :=
  issueVector ({ vredOp v u p sw false fadd with shadowed := true }) s

/-- `vscan` AddS32 (09 R270). -/
def execVscanAddS32 (d a : BitVec 6) (p : BitVec 2) (e : BitVec 1) (sw : Bool) (s : State) : Host.Outcome State Fault Refusal :=
  issueVector (vscanOp d a p e sw (fun x y => x + y) 0#32) s

/-- `vscan` MinS32 (09 R270). -/
def execVscanMinS32 (d a : BitVec 6) (p : BitVec 2) (e : BitVec 1) (sw : Bool) (s : State) : Host.Outcome State Fault Refusal :=
  issueVector (vscanOp d a p e sw iminW 0x7FFFFFFF#32) s

/-- `vscan` MaxS32 (09 R270). -/
def execVscanMaxS32 (d a : BitVec 6) (p : BitVec 2) (e : BitVec 1) (sw : Bool) (s : State) : Host.Outcome State Fault Refusal :=
  issueVector (vscanOp d a p e sw imaxW 0x80000000#32) s

/-- `vscan` MinF32 (09 R270). -/
def execVscanMinF32 (d a : BitVec 6) (p : BitVec 2) (e : BitVec 1) (sw : Bool) (s : State) : Host.Outcome State Fault Refusal :=
  issueVector (vscanOp d a p e sw fminW 0x7F800000#32) s

/-- `vscan` MaxF32 (09 R270). -/
def execVscanMaxF32 (d a : BitVec 6) (p : BitVec 2) (e : BitVec 1) (sw : Bool) (s : State) : Host.Outcome State Fault Refusal :=
  issueVector (vscanOp d a p e sw fmaxW 0xFF800000#32) s

/-- `vscan.add.f32` (09 R270): each step rounded. -/
def execVscanAddF32 (d a : BitVec 6) (p : BitVec 2) (e : BitVec 1) (sw : Bool) (s : State) : Host.Outcome State Fault Refusal :=
  issueVector ({ vscanOp d a p e sw fadd 0#32 with shadowed := true, shadow := some (scanShadow (e == 1)) }) s

/-- `rdlane` (09 R271). -/
def execRdlane (v : BitVec 6) (u : BitVec 8) (sw : Bool) (s : State) : Host.Outcome State Fault Refusal := issue (rdlaneOp v u sw) s

/-- `bcast` (09 R271). -/
def execBcast (v : BitVec 6) (u : BitVec 8) (sw : Bool) (s : State) : Host.Outcome State Fault Refusal :=
  issueVector (laneOp (useBcast v u 1) sw (fun i => [i.u])) s

/-- `bcastd` (09 R271). -/
def execBcastd (v : BitVec 6) (u : BitVec 8) (sw : Bool) (s : State) : Host.Outcome State Fault Refusal :=
  issueVector (pairOp (useBcast v u 2) sw (fun i => i.s.getD 0 0)) s

/-- `perm.set` (09 R272). -/
def execPermSet (v : BitVec 6) (u : BitVec 8) (sw : Bool) (s : State) : Host.Outcome State Fault Refusal := issue (permSetOp v u sw) s

/-- `bx.enc8` (06 R193, 09 R274). -/
def execBxEnc8 (v : BitVec 6) (u : BitVec 8) (p : BitVec 2) (sw : Bool) (s : State) : Host.Outcome State Fault Refusal :=
  issueVector (bxEncOp bx8 4 v u p sw) s

/-- `bx.enc4` (06 R193, 09 R274). -/
def execBxEnc4 (v : BitVec 6) (u : BitVec 8) (p : BitVec 2) (sw : Bool) (s : State) : Host.Outcome State Fault Refusal :=
  issueVector (bxEncOp bx4 2 v u p sw) s

/-- `bx.dec8` (06 R192, 09 R275). -/
def execBxDec8 (v : BitVec 6) (p : BitVec 2) (sw : Bool) (s : State) : Host.Outcome State Fault Refusal :=
  issueVector (vuOp (useVU v v p) sw (bxDecW bx8 8)) s

/-- `bx.dec4` (06 R192, 09 R275). -/
def execBxDec4 (v : BitVec 6) (p : BitVec 2) (sw : Bool) (s : State) : Host.Outcome State Fault Refusal :=
  issueVector (vuOp (useVU v v p) sw (bxDecW bx4 4)) s

end Sys2Proof.Machine
end

