-- ==== Sys2Proof/WellFormed.lean ====
section
/-! DEFINITION. The field values an encoding admits (07 R216-R221 and its reserved list, 18 R437). Zero fields have no place in
the syntax; register numbers past R80, R81 and R212 are not reserved (they trap 0x1002 when the instruction issues). -/
namespace Sys2Proof

/-- Width codes of `ld` and `lds` (07 R216): 7 is reserved. -/
def loadWidth (w : BitVec 3) : Bool := w != 7
/-- Width codes of `st` and `sts` (07 R216): 1, 3 and 7 are reserved. -/
def storeWidth (w : BitVec 3) : Bool := w != 1 && w != 3 && w != 7
/-- Width codes of `ld.acq` and `ld.con` (07 R216): 6 and 7 are reserved. -/
def orderedLoadWidth (w : BitVec 3) : Bool := w != 6 && w != 7
/-- Width codes of `st.rel` (07 R216): 1, 3, 6 and 7 are reserved. -/
def orderedStoreWidth (w : BitVec 3) : Bool := w != 1 && w != 3 && w != 6 && w != 7
/-- Operations allowed in `red` (07 R218): 9, 10, 12 and 13 are reserved. -/
def redOp (o : BitVec 4) : Bool := o != 9 && o != 10 && o != 12 && o != 13
/-- Conversion types (07 R219): 12 to 15 are reserved. -/
def cvtType (t : BitVec 4) : Bool := t < 12
/-- Register formats of AV (07 R211): 3 to 7 are reserved. -/
def avFormat (f : BitVec 3) : Bool := f < 3
/-- x3 of `cache.wb` and `cache.inv` (10 R300): 2 to 7 are reserved. -/
def cacheLevel (x : BitVec 3) : Bool := x < 2
/-- x3 of `xreg.acq` and `xreg.try` (08 R246): 0 and 7 are reserved. -/
def xregAmount (x : BitVec 3) : Bool := x != 0 && x != 7
/-- The v field of `perm.set` names slot 1, 2 or 3 (18 R437). -/
def permSlot (v : BitVec 6) : Bool := v == 1 || v == 2 || v == 3
/-- Conditions of `icmp` (07 R217): 6 and 7 are reserved. -/
def icmpCond (c : BitVec 3) : Bool := c != 6 && c != 7

/-- The per-thread system registers TIDX and LANE (07 R221). -/
def perThreadSysReg (r : BitVec 11) : Bool := r == 0x000 || r == 0x002

/-- The system register numbers R221 lists (07 R220: every other number is reserved). -/
def listedSysReg (r : BitVec 11) : Bool :=
  r ≤ 0x00B || (0x010 ≤ r && r ≤ 0x015) || (0x020 ≤ r && r ≤ 0x026) || r == 0x028 || r == 0x030 || r == 0x040 ||
  r == 0x050 || r == 0x051 || r == 0x060 || (0x070 ≤ r && r ≤ 0x09F) || r == 0x0C0 || (0x100 ≤ r && r ≤ 0x111) ||
  (0x120 ≤ r && r ≤ 0x123) || (0x130 ≤ r && r ≤ 0x13F)

/-- The reserved decode reason of a word carries one of the numbers of 18 R434. -/
def decodeReason (k : BitVec 4) : Bool := 1 ≤ k && k ≤ 5

/-- The instruction's fields hold values its encoding admits. Events carry no encoding; what an event names is checked by its
own meaning. -/
def Instr.wellFormed : Instr → Bool
  | .cvt _ _ _ f e _ _ => cvtType e && cvtType f
  | .permSet v _ _ => permSlot v
  | .icmp _ c _ _ _ _ _ _ => icmpCond c
  | .xregAcq x _ => xregAmount x
  | .xregTry _ x _ => xregAmount x
  | .rdsr r d _ => listedSysReg r && !(perThreadSysReg r && d.extractLsb' 6 2 != 0)
  | .wrsr r _ _ => listedSysReg r
  | .ld _ _ w _ _ => loadWidth w
  | .st _ _ w _ _ => storeWidth w
  | .lds _ _ w _ _ => loadWidth w
  | .sts _ _ w _ _ => storeWidth w
  | .ldAcq _ _ w _ _ _ => orderedLoadWidth w
  | .ldCon _ _ w _ _ _ => orderedLoadWidth w
  | .stRel _ _ w _ _ _ => orderedStoreWidth w
  | .red r _ _ o q _ => redOp o && (r == 1 || q == 0)
  | .cacheWb _ _ x _ => cacheLevel x
  | .cacheInv _ _ x _ => cacheLevel x
  | .accLd _ _ _ f _ => avFormat f
  | .accSt _ _ _ f _ => avFormat f
  | .reservedEncoding _ k => decodeReason k
  | _ => true

end Sys2Proof
end

