-- ==== Sys2Proof/Decode.lean ====
section
/-! DEFINITION. The decoder, total on any bytes, and the encoder (07 R206-R221, 18 R437, R438). Both are written from the
format table R210 and the opcode map R214, R215.
The decoder's definitions are marked noncomputable for one reason: Lean's code generator builds no constructor numbered above 244,
and Instr has one per row of the table. The kernel evaluates them all. -/
namespace Sys2Proof

/-- What a word decodes to: an instruction, or a reserved encoding with the number of the decode check that failed
(18 R434: 1 major, 2 function code, 3 field value, 4 zero field non-zero, 5 system register number), the checks being made in
that order (18 R438). -/
inductive Decoded where
  | instr (i : Instr)
  | reserved (reason : BitVec 4)
deriving DecidableEq, Repr

/-- The sixteen 16-bit forms, selected by bits [5:2]; none is reserved (07 R207, R208). -/
noncomputable def decode16 (w : BitVec 16) : Instr :=
  match (field 2 4 w).toNat with
  | 0 => .mov16 (field 6 5 w) (field 11 5 w) (bit w 1)
  | 1 => .iadd16 (field 6 5 w) (field 11 5 w) (bit w 1)
  | 2 => .isub16 (field 6 5 w) (field 11 5 w) (bit w 1)
  | 3 => .imul16 (field 6 5 w) (field 11 5 w) (bit w 1)
  | 4 => .and16 (field 6 5 w) (field 11 5 w) (bit w 1)
  | 5 => .or16 (field 6 5 w) (field 11 5 w) (bit w 1)
  | 6 => .xor16 (field 6 5 w) (field 11 5 w) (bit w 1)
  | 7 => .shl16 (field 6 5 w) (field 11 5 w) (bit w 1)
  | 8 => .shr16 (field 6 5 w) (field 11 5 w) (bit w 1)
  | 9 => .sar16 (field 6 5 w) (field 11 5 w) (bit w 1)
  | 10 => .imin16 (field 6 5 w) (field 11 5 w) (bit w 1)
  | 11 => .imax16 (field 6 5 w) (field 11 5 w) (bit w 1)
  | 12 => .fadd16 (field 6 5 w) (field 11 5 w) (bit w 1)
  | 13 => .fmul16 (field 6 5 w) (field 11 5 w) (bit w 1)
  | 14 => .fmin16 (field 6 5 w) (field 11 5 w) (bit w 1)
  | _ => .fmax16 (field 6 5 w) (field 11 5 w) (bit w 1)

/-- `rdsr`: the number must be listed (reason 5), and sd[7:6] is zero for a per-thread register (18 R437, reason 4). -/
noncomputable def decodeRdsr (w : BitVec 32) : Decoded :=
  let r : BitVec 11 := field 29 3 w ++ field 16 8 w
  if perThreadSysReg r && field 14 2 w != 0 then .reserved 4
  else if listedSysReg r then .instr (.rdsr r (field 8 8 w) (bit w 1)) else .reserved 5

/-- `wrsr`: the number must be listed (reason 5). -/
noncomputable def decodeWrsr (w : BitVec 32) : Decoded :=
  let r : BitVec 11 := field 29 3 w ++ field 16 8 w
  if listedSysReg r then .instr (.wrsr r (field 8 8 w) (bit w 1)) else .reserved 5

/-- Major 0x00, format VV (07 R210, R214). -/
noncomputable def decodeMajor00 (w : BitVec 32) : Decoded :=
  match (field 30 2 w).toNat with
  | 0 => .instr (.iadd (field 8 6 w) (field 14 6 w) (field 20 2 w) (field 22 6 w) (field 28 2 w) (bit w 1))
  | 1 => .instr (.isub (field 8 6 w) (field 14 6 w) (field 20 2 w) (field 22 6 w) (field 28 2 w) (bit w 1))
  | 2 => .instr (.imul (field 8 6 w) (field 14 6 w) (field 20 2 w) (field 22 6 w) (field 28 2 w) (bit w 1))
  | _ => .instr (.imulh (field 8 6 w) (field 14 6 w) (field 20 2 w) (field 22 6 w) (field 28 2 w) (bit w 1))

/-- Major 0x01, format VV (07 R210, R214). -/
noncomputable def decodeMajor01 (w : BitVec 32) : Decoded :=
  match (field 30 2 w).toNat with
  | 0 => .instr (.imulhn (field 8 6 w) (field 14 6 w) (field 20 2 w) (field 22 6 w) (field 28 2 w) (bit w 1))
  | 1 => .instr (.iaddsat (field 8 6 w) (field 14 6 w) (field 20 2 w) (field 22 6 w) (field 28 2 w) (bit w 1))
  | 2 => .instr (.isubsat (field 8 6 w) (field 14 6 w) (field 20 2 w) (field 22 6 w) (field 28 2 w) (bit w 1))
  | _ => .instr (.iaddmin (field 8 6 w) (field 14 6 w) (field 20 2 w) (field 22 6 w) (field 28 2 w) (bit w 1))

/-- Major 0x02, format VV (07 R210, R214). -/
noncomputable def decodeMajor02 (w : BitVec 32) : Decoded :=
  match (field 30 2 w).toNat with
  | 0 => .instr (.vAnd (field 8 6 w) (field 14 6 w) (field 20 2 w) (field 22 6 w) (field 28 2 w) (bit w 1))
  | 1 => .instr (.vOr (field 8 6 w) (field 14 6 w) (field 20 2 w) (field 22 6 w) (field 28 2 w) (bit w 1))
  | 2 => .instr (.vXor (field 8 6 w) (field 14 6 w) (field 20 2 w) (field 22 6 w) (field 28 2 w) (bit w 1))
  | _ => .instr (.andn (field 8 6 w) (field 14 6 w) (field 20 2 w) (field 22 6 w) (field 28 2 w) (bit w 1))

/-- Major 0x03, format VV (07 R210, R214). -/
noncomputable def decodeMajor03 (w : BitVec 32) : Decoded :=
  match (field 30 2 w).toNat with
  | 0 => .instr (.shl (field 8 6 w) (field 14 6 w) (field 20 2 w) (field 22 6 w) (field 28 2 w) (bit w 1))
  | 1 => .instr (.shr (field 8 6 w) (field 14 6 w) (field 20 2 w) (field 22 6 w) (field 28 2 w) (bit w 1))
  | 2 => .instr (.sar (field 8 6 w) (field 14 6 w) (field 20 2 w) (field 22 6 w) (field 28 2 w) (bit w 1))
  | _ => .instr (.rotl (field 8 6 w) (field 14 6 w) (field 20 2 w) (field 22 6 w) (field 28 2 w) (bit w 1))

/-- Major 0x04, format VV (07 R210, R214). -/
noncomputable def decodeMajor04 (w : BitVec 32) : Decoded :=
  match (field 30 2 w).toNat with
  | 0 => .instr (.imin (field 8 6 w) (field 14 6 w) (field 20 2 w) (field 22 6 w) (field 28 2 w) (bit w 1))
  | 1 => .instr (.imax (field 8 6 w) (field 14 6 w) (field 20 2 w) (field 22 6 w) (field 28 2 w) (bit w 1))
  | 2 => .instr (.nmin (field 8 6 w) (field 14 6 w) (field 20 2 w) (field 22 6 w) (field 28 2 w) (bit w 1))
  | _ => .instr (.nmax (field 8 6 w) (field 14 6 w) (field 20 2 w) (field 22 6 w) (field 28 2 w) (bit w 1))

/-- Major 0x05, format VV (07 R210, R214). -/
noncomputable def decodeMajor05 (w : BitVec 32) : Decoded :=
  match (field 30 2 w).toNat with
  | 0 => .instr (.fadd (field 8 6 w) (field 14 6 w) (field 20 2 w) (field 22 6 w) (field 28 2 w) (bit w 1))
  | 1 => .instr (.fsub (field 8 6 w) (field 14 6 w) (field 20 2 w) (field 22 6 w) (field 28 2 w) (bit w 1))
  | 2 => .instr (.fmul (field 8 6 w) (field 14 6 w) (field 20 2 w) (field 22 6 w) (field 28 2 w) (bit w 1))
  | _ => .instr (.fmad (field 8 6 w) (field 14 6 w) (field 20 2 w) (field 22 6 w) (field 28 2 w) (bit w 1))

/-- Major 0x06, format VV (07 R210, R214). -/
noncomputable def decodeMajor06 (w : BitVec 32) : Decoded :=
  match (field 30 2 w).toNat with
  | 0 => .instr (.fmin (field 8 6 w) (field 14 6 w) (field 20 2 w) (field 22 6 w) (field 28 2 w) (bit w 1))
  | 1 => .instr (.fmax (field 8 6 w) (field 14 6 w) (field 20 2 w) (field 22 6 w) (field 28 2 w) (bit w 1))
  | 2 => .instr (.faddmin (field 8 6 w) (field 14 6 w) (field 20 2 w) (field 22 6 w) (field 28 2 w) (bit w 1))
  | _ => .instr (.fscale (field 8 6 w) (field 14 6 w) (field 20 2 w) (field 22 6 w) (field 28 2 w) (bit w 1))

/-- Major 0x07, format VV (07 R210, R214). -/
noncomputable def decodeMajor07 (w : BitVec 32) : Decoded :=
  match (field 30 2 w).toNat with
  | 0 => .instr (.dadd (field 8 6 w) (field 14 6 w) (field 20 2 w) (field 22 6 w) (field 28 2 w) (bit w 1))
  | 1 => .instr (.dmul (field 8 6 w) (field 14 6 w) (field 20 2 w) (field 22 6 w) (field 28 2 w) (bit w 1))
  | 2 => .instr (.dmad (field 8 6 w) (field 14 6 w) (field 20 2 w) (field 22 6 w) (field 28 2 w) (bit w 1))
  | _ => .instr (.dmin (field 8 6 w) (field 14 6 w) (field 20 2 w) (field 22 6 w) (field 28 2 w) (bit w 1))

/-- Major 0x08, format VV (07 R210, R214). -/
noncomputable def decodeMajor08 (w : BitVec 32) : Decoded :=
  match (field 30 2 w).toNat with
  | 0 => .instr (.bfadd2 (field 8 6 w) (field 14 6 w) (field 20 2 w) (field 22 6 w) (field 28 2 w) (bit w 1))
  | 1 => .instr (.bfmul2 (field 8 6 w) (field 14 6 w) (field 20 2 w) (field 22 6 w) (field 28 2 w) (bit w 1))
  | 2 => .instr (.bfmad2 (field 8 6 w) (field 14 6 w) (field 20 2 w) (field 22 6 w) (field 28 2 w) (bit w 1))
  | _ => .instr (.bfmax2 (field 8 6 w) (field 14 6 w) (field 20 2 w) (field 22 6 w) (field 28 2 w) (bit w 1))

/-- Major 0x09, format VV (07 R210, R214). -/
noncomputable def decodeMajor09 (w : BitVec 32) : Decoded :=
  match (field 30 2 w).toNat with
  | 0 => .instr (.hadd2 (field 8 6 w) (field 14 6 w) (field 20 2 w) (field 22 6 w) (field 28 2 w) (bit w 1))
  | 1 => .instr (.hmul2 (field 8 6 w) (field 14 6 w) (field 20 2 w) (field 22 6 w) (field 28 2 w) (bit w 1))
  | 2 => .instr (.hmad2 (field 8 6 w) (field 14 6 w) (field 20 2 w) (field 22 6 w) (field 28 2 w) (bit w 1))
  | _ => .instr (.hmax2 (field 8 6 w) (field 14 6 w) (field 20 2 w) (field 22 6 w) (field 28 2 w) (bit w 1))

/-- Major 0x0A, format VS (07 R210, R214). -/
noncomputable def decodeMajor0A (w : BitVec 32) : Decoded :=
  match (field 30 2 w).toNat with
  | 0 => .instr (.iaddVs (field 8 6 w) (field 14 6 w) (field 20 2 w) (field 22 8 w) (bit w 1))
  | 1 => .instr (.isubVs (field 8 6 w) (field 14 6 w) (field 20 2 w) (field 22 8 w) (bit w 1))
  | 2 => .instr (.imulVs (field 8 6 w) (field 14 6 w) (field 20 2 w) (field 22 8 w) (bit w 1))
  | _ => .instr (.iaddminVs (field 8 6 w) (field 14 6 w) (field 20 2 w) (field 22 8 w) (bit w 1))

/-- Major 0x0B, format VS (07 R210, R214). -/
noncomputable def decodeMajor0B (w : BitVec 32) : Decoded :=
  match (field 30 2 w).toNat with
  | 0 => .instr (.andVs (field 8 6 w) (field 14 6 w) (field 20 2 w) (field 22 8 w) (bit w 1))
  | 1 => .instr (.orVs (field 8 6 w) (field 14 6 w) (field 20 2 w) (field 22 8 w) (bit w 1))
  | 2 => .instr (.xorVs (field 8 6 w) (field 14 6 w) (field 20 2 w) (field 22 8 w) (bit w 1))
  | _ => .instr (.shlVs (field 8 6 w) (field 14 6 w) (field 20 2 w) (field 22 8 w) (bit w 1))

/-- Major 0x0C, format VS (07 R210, R214). -/
noncomputable def decodeMajor0C (w : BitVec 32) : Decoded :=
  match (field 30 2 w).toNat with
  | 0 => .instr (.shrVs (field 8 6 w) (field 14 6 w) (field 20 2 w) (field 22 8 w) (bit w 1))
  | 1 => .instr (.sarVs (field 8 6 w) (field 14 6 w) (field 20 2 w) (field 22 8 w) (bit w 1))
  | 2 => .instr (.iminVs (field 8 6 w) (field 14 6 w) (field 20 2 w) (field 22 8 w) (bit w 1))
  | _ => .instr (.imaxVs (field 8 6 w) (field 14 6 w) (field 20 2 w) (field 22 8 w) (bit w 1))

/-- Major 0x0D, format VS (07 R210, R214). -/
noncomputable def decodeMajor0D (w : BitVec 32) : Decoded :=
  match (field 30 2 w).toNat with
  | 0 => .instr (.faddVs (field 8 6 w) (field 14 6 w) (field 20 2 w) (field 22 8 w) (bit w 1))
  | 1 => .instr (.fmulVs (field 8 6 w) (field 14 6 w) (field 20 2 w) (field 22 8 w) (bit w 1))
  | 2 => .instr (.fmadVs (field 8 6 w) (field 14 6 w) (field 20 2 w) (field 22 8 w) (bit w 1))
  | _ => .instr (.faddminVs (field 8 6 w) (field 14 6 w) (field 20 2 w) (field 22 8 w) (bit w 1))

/-- Major 0x0E, format VI (07 R210, R214). -/
noncomputable def decodeMajor0E (w : BitVec 32) : Decoded :=
  .instr (.iaddi (field 8 6 w) (field 14 6 w) (field 20 2 w) (field 22 10 w) (bit w 1))

/-- Major 0x0F, format VI (07 R210, R214). -/
noncomputable def decodeMajor0F (w : BitVec 32) : Decoded :=
  .instr (.andi (field 8 6 w) (field 14 6 w) (field 20 2 w) (field 22 10 w) (bit w 1))

/-- Major 0x10, format VI (07 R210, R214). -/
noncomputable def decodeMajor10 (w : BitVec 32) : Decoded :=
  .instr (.ori (field 8 6 w) (field 14 6 w) (field 20 2 w) (field 22 10 w) (bit w 1))

/-- Major 0x11, format VI (07 R210, R214). -/
noncomputable def decodeMajor11 (w : BitVec 32) : Decoded :=
  .instr (.xori (field 8 6 w) (field 14 6 w) (field 20 2 w) (field 22 10 w) (bit w 1))

/-- Major 0x12, format VI (07 R210, R214). -/
noncomputable def decodeMajor12 (w : BitVec 32) : Decoded :=
  if field 27 5 w == 0 then .instr (.shli (field 8 6 w) (field 14 6 w) (field 20 2 w) (field 22 5 w) (bit w 1)) else .reserved 4

/-- Major 0x13, format VI (07 R210, R214). -/
noncomputable def decodeMajor13 (w : BitVec 32) : Decoded :=
  if field 27 5 w == 0 then .instr (.shri (field 8 6 w) (field 14 6 w) (field 20 2 w) (field 22 5 w) (bit w 1)) else .reserved 4

/-- Major 0x14, format VI (07 R210, R214). -/
noncomputable def decodeMajor14 (w : BitVec 32) : Decoded :=
  if field 27 5 w == 0 then .instr (.sari (field 8 6 w) (field 14 6 w) (field 20 2 w) (field 22 5 w) (bit w 1)) else .reserved 4

/-- Major 0x15, format VV (07 R210, R214). -/
noncomputable def decodeMajor15 (w : BitVec 32) : Decoded :=
  match (field 30 2 w).toNat with
  | 0 => .instr (.pack2h (field 8 6 w) (field 14 6 w) (field 20 2 w) (field 22 6 w) (field 28 2 w) (bit w 1))
  | 1 => .instr (.bperm (field 8 6 w) (field 14 6 w) (field 20 2 w) (field 22 6 w) (field 28 2 w) (bit w 1))
  | 2 => .instr (.fcopysign (field 8 6 w) (field 14 6 w) (field 20 2 w) (field 22 6 w) (field 28 2 w) (bit w 1))
  | _ => .instr (.nabsdiff (field 8 6 w) (field 14 6 w) (field 20 2 w) (field 22 6 w) (field 28 2 w) (bit w 1))

/-- Major 0x16, format V4 (07 R210, R214). -/
noncomputable def decodeMajor16 (w : BitVec 32) : Decoded :=
  .instr (.ffma (field 8 6 w) (field 14 6 w) (field 20 6 w) (field 26 6 w) (bit w 1))

/-- Major 0x17, format V4 (07 R210, R214). -/
noncomputable def decodeMajor17 (w : BitVec 32) : Decoded :=
  .instr (.imad (field 8 6 w) (field 14 6 w) (field 20 6 w) (field 26 6 w) (bit w 1))

/-- Major 0x18, format V4 (07 R210, R214). -/
noncomputable def decodeMajor18 (w : BitVec 32) : Decoded :=
  if field 29 3 w == 0 then .instr (.sel (field 8 6 w) (field 14 6 w) (field 20 6 w) (field 26 3 w) (bit w 1)) else .reserved 4

/-- Major 0x19, format V4 (07 R210, R214). -/
noncomputable def decodeMajor19 (w : BitVec 32) : Decoded :=
  .instr (.bfe (field 8 6 w) (field 14 6 w) (field 20 6 w) (field 26 6 w) (bit w 1))

/-- Major 0x1A, format V4 (07 R210, R214). -/
noncomputable def decodeMajor1A (w : BitVec 32) : Decoded :=
  .instr (.bfi (field 8 6 w) (field 14 6 w) (field 20 6 w) (field 26 6 w) (bit w 1))

/-- Major 0x1B, format VU (07 R210, R214). -/
noncomputable def decodeMajor1B (w : BitVec 32) : Decoded :=
  match (field 22 10 w).toNat with
  | 0 => .instr (.mov (field 8 6 w) (field 14 6 w) (field 20 2 w) (bit w 1))
  | 1 => .instr (.vNot (field 8 6 w) (field 14 6 w) (field 20 2 w) (bit w 1))
  | 2 => .instr (.ineg (field 8 6 w) (field 14 6 w) (field 20 2 w) (bit w 1))
  | 3 => .instr (.iabs (field 8 6 w) (field 14 6 w) (field 20 2 w) (bit w 1))
  | 4 => .instr (.clz (field 8 6 w) (field 14 6 w) (field 20 2 w) (bit w 1))
  | 5 => .instr (.ctz (field 8 6 w) (field 14 6 w) (field 20 2 w) (bit w 1))
  | 6 => .instr (.popc (field 8 6 w) (field 14 6 w) (field 20 2 w) (bit w 1))
  | 7 => .instr (.brev (field 8 6 w) (field 14 6 w) (field 20 2 w) (bit w 1))
  | _ => .reserved 2

/-- Major 0x1C, format VU (07 R210, R214). -/
noncomputable def decodeMajor1C (w : BitVec 32) : Decoded :=
  match (field 22 4 w).toNat with
  | 0 => if field 26 6 w == 0 then .instr (.fabs (field 8 6 w) (field 14 6 w) (field 20 2 w) (bit w 1)) else .reserved 4
  | 1 => if field 26 6 w == 0 then .instr (.fneg (field 8 6 w) (field 14 6 w) (field 20 2 w) (bit w 1)) else .reserved 4
  | 2 => if field 26 6 w == 0 then .instr (.frcp (field 8 6 w) (field 14 6 w) (field 20 2 w) (bit w 1)) else .reserved 4
  | 3 => if field 26 6 w == 0 then .instr (.frsq (field 8 6 w) (field 14 6 w) (field 20 2 w) (bit w 1)) else .reserved 4
  | 4 => if field 26 6 w == 0 then .instr (.fsqrt (field 8 6 w) (field 14 6 w) (field 20 2 w) (bit w 1)) else .reserved 4
  | 5 => if field 26 6 w == 0 then .instr (.fexp2 (field 8 6 w) (field 14 6 w) (field 20 2 w) (bit w 1)) else .reserved 4
  | 6 => if field 26 6 w == 0 then .instr (.flog2 (field 8 6 w) (field 14 6 w) (field 20 2 w) (bit w 1)) else .reserved 4
  | 7 => if field 26 6 w == 0 then .instr (.fsin (field 8 6 w) (field 14 6 w) (field 20 2 w) (bit w 1)) else .reserved 4
  | 8 => if field 26 6 w == 0 then .instr (.fcos (field 8 6 w) (field 14 6 w) (field 20 2 w) (bit w 1)) else .reserved 4
  | 9 => if field 28 4 w == 0 then .instr (.fround (field 8 6 w) (field 14 6 w) (field 20 2 w) (field 26 2 w) (bit w 1)) else .reserved 4
  | 10 => if field 26 6 w == 0 then .instr (.ffract (field 8 6 w) (field 14 6 w) (field 20 2 w) (bit w 1)) else .reserved 4
  | 11 => if field 26 6 w == 0 then .instr (.fclass (field 8 6 w) (field 14 6 w) (field 20 2 w) (bit w 1)) else .reserved 4
  | _ => .reserved 2

/-- Major 0x1D, format VU (07 R210, R214). -/
noncomputable def decodeMajor1D (w : BitVec 32) : Decoded :=
  if cvtType (field 26 4 w) && cvtType (field 22 4 w) then .instr (.cvt (field 8 6 w) (field 14 6 w) (field 20 2 w) (field 22 4 w) (field 26 4 w) (field 30 2 w) (bit w 1)) else .reserved 3

/-- Major 0x1E, format VL (07 R210, R214). -/
noncomputable def decodeMajor1E (w : BitVec 32) : Decoded :=
  match (field 30 2 w).toNat with
  | 0 => .instr (.movi (field 8 6 w) (field 14 16 w) (bit w 1))
  | 1 => .instr (.movhi (field 8 6 w) (field 14 16 w) (bit w 1))
  | 2 => .instr (.movf (field 8 6 w) (field 14 16 w) (bit w 1))
  | _ => .reserved 2

/-- Major 0x1F, format VR (07 R210, R214). -/
noncomputable def decodeMajor1F (w : BitVec 32) : Decoded :=
  match (field 24 8 w).toNat with
  | 0 => .instr (.vredAddS32 (field 8 6 w) (field 14 8 w) (field 22 2 w) (bit w 1))
  | 1 => .instr (.vredAddF32 (field 8 6 w) (field 14 8 w) (field 22 2 w) (bit w 1))
  | 2 => .instr (.vredMinS32 (field 8 6 w) (field 14 8 w) (field 22 2 w) (bit w 1))
  | 3 => .instr (.vredMaxS32 (field 8 6 w) (field 14 8 w) (field 22 2 w) (bit w 1))
  | 4 => .instr (.vredMinB32 (field 8 6 w) (field 14 8 w) (field 22 2 w) (bit w 1))
  | 5 => .instr (.vredMaxB32 (field 8 6 w) (field 14 8 w) (field 22 2 w) (bit w 1))
  | 6 => .instr (.vredMinF32 (field 8 6 w) (field 14 8 w) (field 22 2 w) (bit w 1))
  | 7 => .instr (.vredMaxF32 (field 8 6 w) (field 14 8 w) (field 22 2 w) (bit w 1))
  | 8 => .instr (.vredAnd (field 8 6 w) (field 14 8 w) (field 22 2 w) (bit w 1))
  | 9 => .instr (.vredOr (field 8 6 w) (field 14 8 w) (field 22 2 w) (bit w 1))
  | 10 => .instr (.vredXor (field 8 6 w) (field 14 8 w) (field 22 2 w) (bit w 1))
  | 16 => if field 22 2 w == 0 then .instr (.rdlane (field 8 6 w) (field 14 8 w) (bit w 1)) else .reserved 4
  | 17 => if field 22 2 w == 0 then .instr (.bcast (field 8 6 w) (field 14 8 w) (bit w 1)) else .reserved 4
  | 18 => if field 22 2 w == 0 then .instr (.bcastd (field 8 6 w) (field 14 8 w) (bit w 1)) else .reserved 4
  | 19 => if permSlot (field 8 6 w) then (if field 22 2 w == 0 then .instr (.permSet (field 8 6 w) (field 14 8 w) (bit w 1)) else .reserved 4) else .reserved 3
  | 24 => .instr (.bxEnc8 (field 8 6 w) (field 14 8 w) (field 22 2 w) (bit w 1))
  | 25 => .instr (.bxEnc4 (field 8 6 w) (field 14 8 w) (field 22 2 w) (bit w 1))
  | 26 => if field 14 8 w == 0 then .instr (.bxDec8 (field 8 6 w) (field 22 2 w) (bit w 1)) else .reserved 4
  | 27 => if field 14 8 w == 0 then .instr (.bxDec4 (field 8 6 w) (field 22 2 w) (bit w 1)) else .reserved 4
  | _ => .reserved 2

/-- Major 0x20, format VU (07 R210, R214). -/
noncomputable def decodeMajor20 (w : BitVec 32) : Decoded :=
  match (field 22 3 w).toNat with
  | 0 => if field 26 6 w == 0 then .instr (.vscanAddS32 (field 8 6 w) (field 14 6 w) (field 20 2 w) (field 25 1 w) (bit w 1)) else .reserved 4
  | 1 => if field 26 6 w == 0 then .instr (.vscanAddF32 (field 8 6 w) (field 14 6 w) (field 20 2 w) (field 25 1 w) (bit w 1)) else .reserved 4
  | 2 => if field 26 6 w == 0 then .instr (.vscanMinS32 (field 8 6 w) (field 14 6 w) (field 20 2 w) (field 25 1 w) (bit w 1)) else .reserved 4
  | 3 => if field 26 6 w == 0 then .instr (.vscanMaxS32 (field 8 6 w) (field 14 6 w) (field 20 2 w) (field 25 1 w) (bit w 1)) else .reserved 4
  | 4 => if field 26 6 w == 0 then .instr (.vscanMinF32 (field 8 6 w) (field 14 6 w) (field 20 2 w) (field 25 1 w) (bit w 1)) else .reserved 4
  | 5 => if field 26 6 w == 0 then .instr (.vscanMaxF32 (field 8 6 w) (field 14 6 w) (field 20 2 w) (field 25 1 w) (bit w 1)) else .reserved 4
  | _ => .reserved 2

/-- Compares (format PC): the type selects, and cc 6 and 7 are reserved for integers (07 R217). -/
noncomputable def decodeMajor22 (w : BitVec 32) : Decoded :=
  match (field 30 2 w).toNat with
  | 2 => .instr (.fcmp (field 8 3 w) (field 11 3 w) (field 14 6 w) (field 20 2 w) (field 22 6 w) (field 28 2 w) (bit w 1))
  | 3 => .reserved 3
  | _ => if icmpCond (field 11 3 w) then
      .instr (.icmp (field 8 3 w) (field 11 3 w) (field 14 6 w) (field 20 2 w) (field 22 6 w) (field 28 2 w) (field 30 1 w) (bit w 1))
    else .reserved 3

/-- Major 0x23, format PP (07 R210, R214). -/
noncomputable def decodeMajor23 (w : BitVec 32) : Decoded :=
  match (field 17 5 w).toNat with
  | 0 => if field 22 10 w == 0 then .instr (.pand (field 8 3 w) (field 11 3 w) (field 14 3 w) (bit w 1)) else .reserved 4
  | 1 => if field 22 10 w == 0 then .instr (.por (field 8 3 w) (field 11 3 w) (field 14 3 w) (bit w 1)) else .reserved 4
  | 2 => if field 22 10 w == 0 then .instr (.pxor (field 8 3 w) (field 11 3 w) (field 14 3 w) (bit w 1)) else .reserved 4
  | 3 => if field 22 10 w == 0 then .instr (.pandn (field 8 3 w) (field 11 3 w) (field 14 3 w) (bit w 1)) else .reserved 4
  | 4 => if field 14 3 w == 0 && field 22 10 w == 0 then .instr (.pnot (field 8 3 w) (field 11 3 w) (bit w 1)) else .reserved 4
  | 5 => if field 14 3 w == 0 && field 22 10 w == 0 then .instr (.pmov (field 8 3 w) (field 11 3 w) (bit w 1)) else .reserved 4
  | 6 => if field 14 3 w == 0 && field 22 10 w == 0 then .instr (.voteAny (field 8 3 w) (field 11 3 w) (bit w 1)) else .reserved 4
  | 7 => if field 14 3 w == 0 && field 22 10 w == 0 then .instr (.voteAll (field 8 3 w) (field 11 3 w) (bit w 1)) else .reserved 4
  | 8 => if field 8 3 w == 0 && field 14 3 w == 0 && field 30 2 w == 0 then .instr (.ballot (field 11 3 w) (field 22 8 w) (bit w 1)) else .reserved 4
  | _ => .reserved 2

/-- Major 0x25, format BR (07 R210, R214). -/
noncomputable def decodeMajor25 (w : BitVec 32) : Decoded :=
  match (field 8 2 w).toNat with
  | 0 => if field 10 4 w == 0 then .instr (.bra (field 14 18 w) (bit w 1)) else .reserved 4
  | 1 => .instr (.brp (field 10 3 w) (field 13 1 w) (field 14 18 w) (bit w 1))
  | 2 => if field 10 4 w == 0 then .instr (.call (field 14 18 w) (bit w 1)) else .reserved 4
  | _ => .reserved 2

/-- Major 0x26, format BU (07 R210, R214). -/
noncomputable def decodeMajor26 (w : BitVec 32) : Decoded :=
  match (field 16 2 w).toNat with
  | 0 => if field 8 8 w == 0 then .instr (.sBra (field 18 14 w) (bit w 1)) else .reserved 4
  | 1 => .instr (.sBrz (field 8 8 w) (field 18 14 w) (bit w 1))
  | 2 => .instr (.sBrnz (field 8 8 w) (field 18 14 w) (bit w 1))
  | _ => .instr (.sBrlt (field 8 8 w) (field 18 14 w) (bit w 1))

/-- Major 0x27, format CT (07 R210, R214). -/
noncomputable def decodeMajor27 (w : BitVec 32) : Decoded :=
  match (field 22 10 w).toNat with
  | 0 => if field 8 14 w == 0 then .instr (.nop (bit w 1)) else .reserved 4
  | 1 => if field 8 14 w == 0 then .instr (.ret (bit w 1)) else .reserved 4
  | 2 => if field 14 8 w == 0 then .instr (.jmp (field 8 6 w) (bit w 1)) else .reserved 4
  | 3 => if field 8 14 w == 0 then .instr (.exit (bit w 1)) else .reserved 4
  | 4 => if field 8 14 w == 0 then .instr (.yield (bit w 1)) else .reserved 4
  | 5 => if field 8 14 w == 0 then .instr (.gbar (bit w 1)) else .reserved 4
  | 6 => if field 8 6 w == 0 then .instr (.brk (field 14 8 w) (bit w 1)) else .reserved 4
  | 7 => if field 14 8 w == 0 then .instr (.rdlnk (field 8 6 w) (bit w 1)) else .reserved 4
  | 8 => if field 14 8 w == 0 then .instr (.wrlnk (field 8 6 w) (bit w 1)) else .reserved 4
  | _ => .reserved 2

/-- Major 0x28, format UA (07 R210, R214). -/
noncomputable def decodeMajor28 (w : BitVec 32) : Decoded :=
  match (field 24 8 w).toNat with
  | 0 => .instr (.sMov (field 8 8 w) (field 16 8 w) (bit w 1))
  | 1 => .instr (.sAdd (field 8 8 w) (field 16 8 w) (bit w 1))
  | 2 => .instr (.sSub (field 8 8 w) (field 16 8 w) (bit w 1))
  | 3 => .instr (.sMul (field 8 8 w) (field 16 8 w) (bit w 1))
  | 4 => .instr (.sMulh (field 8 8 w) (field 16 8 w) (bit w 1))
  | 5 => .instr (.sMulhn (field 8 8 w) (field 16 8 w) (bit w 1))
  | 6 => .instr (.sAnd (field 8 8 w) (field 16 8 w) (bit w 1))
  | 7 => .instr (.sOr (field 8 8 w) (field 16 8 w) (bit w 1))
  | 8 => .instr (.sXor (field 8 8 w) (field 16 8 w) (bit w 1))
  | 9 => .instr (.sShl (field 8 8 w) (field 16 8 w) (bit w 1))
  | 10 => .instr (.sShr (field 8 8 w) (field 16 8 w) (bit w 1))
  | 11 => .instr (.sSar (field 8 8 w) (field 16 8 w) (bit w 1))
  | 12 => .instr (.sMin (field 8 8 w) (field 16 8 w) (bit w 1))
  | 13 => .instr (.sMax (field 8 8 w) (field 16 8 w) (bit w 1))
  | 14 => .instr (.sNmin (field 8 8 w) (field 16 8 w) (bit w 1))
  | 15 => .instr (.sNmax (field 8 8 w) (field 16 8 w) (bit w 1))
  | 16 => .instr (.sSlt (field 8 8 w) (field 16 8 w) (bit w 1))
  | 17 => .instr (.sSltn (field 8 8 w) (field 16 8 w) (bit w 1))
  | 18 => .instr (.sSeq (field 8 8 w) (field 16 8 w) (bit w 1))
  | 19 => .instr (.sNot (field 8 8 w) (field 16 8 w) (bit w 1))
  | 20 => .instr (.sNeg (field 8 8 w) (field 16 8 w) (bit w 1))
  | 21 => .instr (.sClz (field 8 8 w) (field 16 8 w) (bit w 1))
  | 22 => .instr (.sPopc (field 8 8 w) (field 16 8 w) (bit w 1))
  | 23 => .instr (.sDivn (field 8 8 w) (field 16 8 w) (bit w 1))
  | 24 => .instr (.sRemn (field 8 8 w) (field 16 8 w) (bit w 1))
  | 25 => .instr (.sFadd (field 8 8 w) (field 16 8 w) (bit w 1))
  | 26 => .instr (.sFmul (field 8 8 w) (field 16 8 w) (bit w 1))
  | _ => .reserved 2

/-- Major 0x29, format UI (07 R210, R214). -/
noncomputable def decodeMajor29 (w : BitVec 32) : Decoded :=
  match (field 16 4 w).toNat with
  | 0 => .instr (.sAddi (field 8 8 w) (field 20 12 w) (bit w 1))
  | 1 => .instr (.sAndi (field 8 8 w) (field 20 12 w) (bit w 1))
  | 2 => .instr (.sOri (field 8 8 w) (field 20 12 w) (bit w 1))
  | 3 => .instr (.sXori (field 8 8 w) (field 20 12 w) (bit w 1))
  | 4 => if field 26 6 w == 0 then .instr (.sShli (field 8 8 w) (field 20 6 w) (bit w 1)) else .reserved 4
  | 5 => if field 26 6 w == 0 then .instr (.sShri (field 8 8 w) (field 20 6 w) (bit w 1)) else .reserved 4
  | 6 => if field 26 6 w == 0 then .instr (.sSari (field 8 8 w) (field 20 6 w) (bit w 1)) else .reserved 4
  | 7 => .instr (.sSlti (field 8 8 w) (field 20 12 w) (bit w 1))
  | 8 => .instr (.sMuli (field 8 8 w) (field 20 12 w) (bit w 1))
  | _ => .reserved 2

/-- Major 0x2A, format UL (07 R210, R214). -/
noncomputable def decodeMajor2A (w : BitVec 32) : Decoded :=
  .instr (.sLi (field 8 8 w) (field 16 16 w) (bit w 1))

/-- Major 0x2B, format UL (07 R210, R214). -/
noncomputable def decodeMajor2B (w : BitVec 32) : Decoded :=
  .instr (.sLih (field 8 8 w) (field 16 16 w) (bit w 1))

/-- Major 0x2C, format EN (07 R210, R214). -/
noncomputable def decodeMajor2C (w : BitVec 32) : Decoded :=
  match (field 24 5 w).toNat with
  | 0 => if field 29 3 w == 0 then .instr (.cpyKick (field 8 8 w) (field 16 8 w) (bit w 1)) else .reserved 4
  | 1 => if field 8 16 w == 0 && field 29 3 w == 0 then .instr (.cpyStage (bit w 1)) else .reserved 4
  | 2 => if field 16 8 w == 0 then .instr (.cpyWp (field 8 8 w) (field 29 3 w) (bit w 1)) else .reserved 4
  | 3 => if field 16 8 w == 0 && field 29 3 w == 0 then .instr (.cpyCancel (field 8 8 w) (bit w 1)) else .reserved 4
  | 4 => if field 8 8 w == 0 && field 29 3 w == 0 then .instr (.taskPost (field 16 8 w) (bit w 1)) else .reserved 4
  | 5 => if field 8 8 w == 0 && field 29 3 w == 0 then .instr (.taskSig (field 16 8 w) (bit w 1)) else .reserved 4
  | 6 => if field 8 8 w == 0 && field 29 3 w == 0 then .instr (.gangSet (field 16 8 w) (bit w 1)) else .reserved 4
  | 7 => if field 16 8 w == 0 && field 29 3 w == 0 then .instr (.gangGet (field 8 8 w) (bit w 1)) else .reserved 4
  | 8 => if xregAmount (field 29 3 w) then (if field 8 16 w == 0 then .instr (.xregAcq (field 29 3 w) (bit w 1)) else .reserved 4) else .reserved 3
  | 9 => if field 8 16 w == 0 && field 29 3 w == 0 then .instr (.xregRel (bit w 1)) else .reserved 4
  | 10 => if xregAmount (field 29 3 w) then (if field 16 8 w == 0 then .instr (.xregTry (field 8 8 w) (field 29 3 w) (bit w 1)) else .reserved 4) else .reserved 3
  | 11 => if field 8 16 w == 0 && field 29 3 w == 0 then .instr (.genPass (bit w 1)) else .reserved 4
  | 12 => if field 16 8 w == 0 && field 29 3 w == 0 then .instr (.genCur (field 8 8 w) (bit w 1)) else .reserved 4
  | 13 => if field 12 4 w == 0 && field 29 3 w == 0 then .instr (.kset (field 8 4 w) (field 16 8 w) (bit w 1)) else .reserved 4
  | 14 => if field 20 4 w == 0 && field 29 3 w == 0 then .instr (.kget (field 8 8 w) (field 16 4 w) (bit w 1)) else .reserved 4
  | 15 => if field 13 11 w == 0 && field 31 1 w == 0 then .instr (.scopeSet (field 8 5 w) (field 29 2 w) (bit w 1)) else .reserved 4
  | _ => .reserved 2

/-- Major 0x2D, format EN (07 R210, R214). -/
noncomputable def decodeMajor2D (w : BitVec 32) : Decoded :=
  match (field 24 5 w).toNat with
  | 0 => if field 29 3 w == 0 then .instr (.uirqSend (field 8 8 w) (field 16 8 w) (bit w 1)) else .reserved 4
  | 1 => if field 8 16 w == 0 && field 29 3 w == 0 then .instr (.uirqWait (bit w 1)) else .reserved 4
  | 2 => if field 16 8 w == 0 && field 29 3 w == 0 then .instr (.uirqTake (field 8 8 w) (bit w 1)) else .reserved 4
  | 3 => if field 29 3 w == 0 then .instr (.uirqMask (field 8 8 w) (field 16 8 w) (bit w 1)) else .reserved 4
  | 4 => if field 16 8 w == 0 && field 29 3 w == 0 then .instr (.uirqPend (field 8 8 w) (bit w 1)) else .reserved 4
  | 5 => if field 8 8 w == 0 && field 29 3 w == 0 then .instr (.uirqDone (field 16 8 w) (bit w 1)) else .reserved 4
  | _ => .reserved 2

/-- Major 0x2E, format EN (07 R210, R214). -/
noncomputable def decodeMajor2E (w : BitVec 32) : Decoded :=
  match (field 24 5 w).toNat with
  | 0 => if field 8 8 w == 0 && field 29 3 w == 0 then .instr (.svc (field 16 8 w) (bit w 1)) else .reserved 4
  | 1 => if field 8 8 w == 0 && field 29 3 w == 0 then .instr (.trap (field 16 8 w) (bit w 1)) else .reserved 4
  | 2 => if field 8 16 w == 0 && field 29 3 w == 0 then .instr (.rett (bit w 1)) else .reserved 4
  | 3 => if field 8 16 w == 0 && field 29 3 w == 0 then .instr (.tmask (bit w 1)) else .reserved 4
  | 4 => if field 8 16 w == 0 && field 29 3 w == 0 then .instr (.tunmask (bit w 1)) else .reserved 4
  | 5 => decodeRdsr w
  | 6 => decodeWrsr w
  | 7 => if field 8 16 w == 0 && field 29 3 w == 0 then .instr (.ckpt (bit w 1)) else .reserved 4
  | 8 => if field 8 8 w == 0 && field 29 3 w == 0 then .instr (.profMark (field 16 8 w) (bit w 1)) else .reserved 4
  | _ => .reserved 2

/-- Major 0x30, format M (07 R210, R214). -/
noncomputable def decodeMajor30 (w : BitVec 32) : Decoded :=
  if loadWidth (field 20 3 w) then .instr (.ld (field 8 6 w) (field 14 6 w) (field 20 3 w) (field 23 9 w) (bit w 1)) else .reserved 3

/-- Major 0x31, format M (07 R210, R214). -/
noncomputable def decodeMajor31 (w : BitVec 32) : Decoded :=
  if storeWidth (field 20 3 w) then .instr (.st (field 8 6 w) (field 14 6 w) (field 20 3 w) (field 23 9 w) (bit w 1)) else .reserved 3

/-- Major 0x32, format M (07 R210, R214). -/
noncomputable def decodeMajor32 (w : BitVec 32) : Decoded :=
  if loadWidth (field 20 3 w) then .instr (.lds (field 8 6 w) (field 14 6 w) (field 20 3 w) (field 23 9 w) (bit w 1)) else .reserved 3

/-- Major 0x33, format M (07 R210, R214). -/
noncomputable def decodeMajor33 (w : BitVec 32) : Decoded :=
  if storeWidth (field 20 3 w) then .instr (.sts (field 8 6 w) (field 14 6 w) (field 20 3 w) (field 23 9 w) (bit w 1)) else .reserved 3

/-- Major 0x34, format MO (07 R210, R214). -/
noncomputable def decodeMajor34 (w : BitVec 32) : Decoded :=
  match (field 23 1 w).toNat with
  | 0 => if orderedLoadWidth (field 20 3 w) then .instr (.ldAcq (field 8 6 w) (field 14 6 w) (field 20 3 w) (field 24 2 w) (field 26 6 w) (bit w 1)) else .reserved 3
  | _ => if orderedLoadWidth (field 20 3 w) then .instr (.ldCon (field 8 6 w) (field 14 6 w) (field 20 3 w) (field 24 2 w) (field 26 6 w) (bit w 1)) else .reserved 3

/-- Major 0x35, format MO (07 R210, R214). -/
noncomputable def decodeMajor35 (w : BitVec 32) : Decoded :=
  match (field 23 1 w).toNat with
  | 0 => if orderedStoreWidth (field 20 3 w) then .instr (.stRel (field 8 6 w) (field 14 6 w) (field 20 3 w) (field 24 2 w) (field 26 6 w) (bit w 1)) else .reserved 3
  | _ => .reserved 2

/-- Major 0x36, format SM (07 R210, R214). -/
noncomputable def decodeMajor36 (w : BitVec 32) : Decoded :=
  .instr (.sLd (field 8 8 w) (field 16 8 w) (field 24 8 w) (bit w 1))

/-- Major 0x37, format SM (07 R210, R214). -/
noncomputable def decodeMajor37 (w : BitVec 32) : Decoded :=
  .instr (.sSt (field 8 8 w) (field 16 8 w) (field 24 8 w) (bit w 1))

/-- Major 0x38, format A (07 R210, R214). -/
noncomputable def decodeMajor38 (w : BitVec 32) : Decoded :=
  if field 30 2 w == 0 then .instr (.atom (field 8 6 w) (field 14 6 w) (field 20 6 w) (field 26 4 w) (bit w 1)) else .reserved 4

/-- Major 0x39, format A (07 R210, R214). -/
noncomputable def decodeMajor39 (w : BitVec 32) : Decoded :=
  .instr (.atomAcq (field 8 6 w) (field 14 6 w) (field 20 6 w) (field 26 4 w) (field 30 2 w) (bit w 1))

/-- Major 0x3A, format A (07 R210, R214). -/
noncomputable def decodeMajor3A (w : BitVec 32) : Decoded :=
  .instr (.atomRel (field 8 6 w) (field 14 6 w) (field 20 6 w) (field 26 4 w) (field 30 2 w) (bit w 1))

/-- Major 0x3B, format A (07 R210, R214). -/
noncomputable def decodeMajor3B (w : BitVec 32) : Decoded :=
  .instr (.atomAr (field 8 6 w) (field 14 6 w) (field 20 6 w) (field 26 4 w) (field 30 2 w) (bit w 1))

/-- Major 0x3C, format A (07 R210, R214). -/
noncomputable def decodeMajor3C (w : BitVec 32) : Decoded :=
  if redOp (field 26 4 w) then (if field 9 5 w == 0 && (field 8 1 w == 1 || field 30 2 w == 0) then .instr (.red (field 8 1 w) (field 14 6 w) (field 20 6 w) (field 26 4 w) (field 30 2 w) (bit w 1)) else .reserved 4) else .reserved 3

/-- Major 0x3D, format SY (07 R210, R214). -/
noncomputable def decodeMajor3D (w : BitVec 32) : Decoded :=
  match (field 8 5 w).toNat with
  | 0 => if field 13 8 w == 0 && field 28 4 w == 0 then .instr (.fence (field 21 5 w) (field 26 2 w) (bit w 1)) else .reserved 4
  | 1 => if field 29 3 w == 0 then .instr (.barInit (field 13 8 w) (field 21 8 w) (bit w 1)) else .reserved 4
  | 2 => if field 29 3 w == 0 then .instr (.barArrive (field 13 8 w) (field 21 8 w) (bit w 1)) else .reserved 4
  | 3 => if field 29 3 w == 0 then .instr (.barExpect (field 13 8 w) (field 21 8 w) (bit w 1)) else .reserved 4
  | 4 => if field 29 3 w == 0 then .instr (.barWait (field 13 8 w) (field 21 8 w) (bit w 1)) else .reserved 4
  | 5 => .instr (.barTest (field 13 8 w) (field 21 8 w) (field 29 3 w) (bit w 1))
  | 6 => if field 29 3 w == 0 then .instr (.barStat (field 13 8 w) (field 21 8 w) (bit w 1)) else .reserved 4
  | 7 => if field 13 19 w == 0 then .instr (.bsync (bit w 1)) else .reserved 4
  | 8 => if cacheLevel (field 29 3 w) then .instr (.cacheWb (field 13 8 w) (field 21 8 w) (field 29 3 w) (bit w 1)) else .reserved 3
  | 9 => if cacheLevel (field 29 3 w) then .instr (.cacheInv (field 13 8 w) (field 21 8 w) (field 29 3 w) (bit w 1)) else .reserved 3
  | 10 => if field 29 3 w == 0 then .instr (.cachePf (field 13 8 w) (field 21 8 w) (bit w 1)) else .reserved 4
  | 11 => if field 29 3 w == 0 then .instr (.cachePf2 (field 13 8 w) (field 21 8 w) (bit w 1)) else .reserved 4
  | _ => .reserved 2

/-- Major 0x3E, format MX (07 R210, R214). -/
noncomputable def decodeMajor3E (w : BitVec 32) : Decoded :=
  match (field 28 4 w).toNat with
  | 0 => .instr (.mma (field 8 8 w) (field 16 6 w) (field 22 6 w) (bit w 1))
  | 1 => .instr (.mmaZ (field 8 8 w) (field 16 6 w) (field 22 6 w) (bit w 1))
  | 2 => if field 16 6 w == 0 then .instr (.mmaS (field 8 8 w) (field 22 6 w) (bit w 1)) else .reserved 4
  | 3 => if field 16 6 w == 0 then .instr (.mmaF (field 8 8 w) (field 22 6 w) (bit w 1)) else .reserved 4
  | 4 => if field 16 12 w == 0 then .instr (.mpoly (field 8 8 w) (bit w 1)) else .reserved 4
  | 5 => if field 16 12 w == 0 then .instr (.miter (field 8 8 w) (bit w 1)) else .reserved 4
  | 6 => if field 16 12 w == 0 then .instr (.accZero (field 8 8 w) (bit w 1)) else .reserved 4
  | 7 => if field 16 12 w == 0 then .instr (.accScale (field 8 8 w) (bit w 1)) else .reserved 4
  | 8 => if field 16 12 w == 0 then .instr (.accAdd (field 8 8 w) (bit w 1)) else .reserved 4
  | 9 => if field 16 12 w == 0 then .instr (.accTr (field 8 8 w) (bit w 1)) else .reserved 4
  | 10 => if field 16 12 w == 0 then .instr (.accNorm (field 8 8 w) (bit w 1)) else .reserved 4
  | 11 => if field 16 12 w == 0 then .instr (.accOut (field 8 8 w) (bit w 1)) else .reserved 4
  | 12 => if field 16 12 w == 0 then .instr (.accIn (field 8 8 w) (bit w 1)) else .reserved 4
  | _ => .reserved 2

/-- Major 0x3F, format AV (07 R210, R214). -/
noncomputable def decodeMajor3F (w : BitVec 32) : Decoded :=
  match (field 28 4 w).toNat with
  | 0 => if avFormat (field 25 3 w) then .instr (.accLd (field 8 6 w) (field 14 9 w) (field 23 2 w) (field 25 3 w) (bit w 1)) else .reserved 3
  | 1 => if avFormat (field 25 3 w) then .instr (.accSt (field 8 6 w) (field 14 9 w) (field 23 2 w) (field 25 3 w) (bit w 1)) else .reserved 3
  | _ => .reserved 2

/-- A 32-bit word, by its major opcode in bits [7:2]; majors 0x21, 0x24 and 0x2F are reserved (07 R207, R214). -/
noncomputable def decode32 (w : BitVec 32) : Decoded :=
  match (field 2 6 w).toNat with
  | 0x00 => decodeMajor00 w
  | 0x01 => decodeMajor01 w
  | 0x02 => decodeMajor02 w
  | 0x03 => decodeMajor03 w
  | 0x04 => decodeMajor04 w
  | 0x05 => decodeMajor05 w
  | 0x06 => decodeMajor06 w
  | 0x07 => decodeMajor07 w
  | 0x08 => decodeMajor08 w
  | 0x09 => decodeMajor09 w
  | 0x0A => decodeMajor0A w
  | 0x0B => decodeMajor0B w
  | 0x0C => decodeMajor0C w
  | 0x0D => decodeMajor0D w
  | 0x0E => decodeMajor0E w
  | 0x0F => decodeMajor0F w
  | 0x10 => decodeMajor10 w
  | 0x11 => decodeMajor11 w
  | 0x12 => decodeMajor12 w
  | 0x13 => decodeMajor13 w
  | 0x14 => decodeMajor14 w
  | 0x15 => decodeMajor15 w
  | 0x16 => decodeMajor16 w
  | 0x17 => decodeMajor17 w
  | 0x18 => decodeMajor18 w
  | 0x19 => decodeMajor19 w
  | 0x1A => decodeMajor1A w
  | 0x1B => decodeMajor1B w
  | 0x1C => decodeMajor1C w
  | 0x1D => decodeMajor1D w
  | 0x1E => decodeMajor1E w
  | 0x1F => decodeMajor1F w
  | 0x20 => decodeMajor20 w
  | 0x22 => decodeMajor22 w
  | 0x23 => decodeMajor23 w
  | 0x25 => decodeMajor25 w
  | 0x26 => decodeMajor26 w
  | 0x27 => decodeMajor27 w
  | 0x28 => decodeMajor28 w
  | 0x29 => decodeMajor29 w
  | 0x2A => decodeMajor2A w
  | 0x2B => decodeMajor2B w
  | 0x2C => decodeMajor2C w
  | 0x2D => decodeMajor2D w
  | 0x2E => decodeMajor2E w
  | 0x30 => decodeMajor30 w
  | 0x31 => decodeMajor31 w
  | 0x32 => decodeMajor32 w
  | 0x33 => decodeMajor33 w
  | 0x34 => decodeMajor34 w
  | 0x35 => decodeMajor35 w
  | 0x36 => decodeMajor36 w
  | 0x37 => decodeMajor37 w
  | 0x38 => decodeMajor38 w
  | 0x39 => decodeMajor39 w
  | 0x3A => decodeMajor3A w
  | 0x3B => decodeMajor3B w
  | 0x3C => decodeMajor3C w
  | 0x3D => decodeMajor3D w
  | 0x3E => decodeMajor3E w
  | 0x3F => decodeMajor3F w
  | _ => .reserved 1

/-- What the bytes at a program counter hold. -/
inductive Fetched where
  | short (h : BitVec 16)
  | long (w : BitVec 32)
deriving DecidableEq, Repr

/-- The byte length of what was fetched (07 R206). -/
def Fetched.size : Fetched → Nat
  | .short _ => 2
  | .long _ => 4

/-- The instruction word as the replay queue and TRAPADDR hold it: a 16-bit form zero-extended (02 R67). -/
def Fetched.word : Fetched → BitVec 32
  | .short h => h.setWidth 32
  | .long w => w

/-- Decode what was fetched. -/
noncomputable def Fetched.decode : Fetched → Decoded
  | .short h => .instr (decode16 h)
  | .long w => decode32 w

/-- A halfword from its two bytes, the lower address first (00 R3). -/
def halfOfBytes (b0 b1 : Byte) : BitVec 16 := b1 ++ b0

/-- A 32-bit word from its two halfwords, the lower address first (00 R3). -/
def wordOfHalves (h0 h1 : BitVec 16) : BitVec 32 := h1 ++ h0

/-- The decoder over bytes: the instruction (or the failed check) and the bytes that follow it; nothing when the bytes end
inside an instruction. Bit 0 of the first halfword gives the length (07 R206). -/
noncomputable def decodeBytes : List Byte → Option (Decoded × List Byte)
  | b0 :: b1 :: rest =>
    if b0.getLsbD 0 then
      match rest with
      | b2 :: b3 :: rest' => some (decode32 (wordOfHalves (halfOfBytes b0 b1) (halfOfBytes b2 b3)), rest')
      | _ => none
    else some (.instr (decode16 (halfOfBytes b0 b1)), rest)
  | _ => none

/-- The little-endian bytes of the low `8 * k` bits of `w`, lowest address first. -/
def bytesOfNat : Nat → Nat → List Byte
  | 0, _ => []
  | k + 1, w => BitVec.ofNat 8 w :: bytesOfNat k (w / 256)

/-- The instruction this decoder reads from the bits `w` of an opcode-table row, numbered as the table numbers them. The bits
above `nbits` are zero; the words are laid out little-endian and given to `decodeBytes`. -/
noncomputable def decodeTableWord (nbits w : Nat) : Option Instr :=
  match decodeBytes (bytesOfNat 4 (w % 2 ^ nbits)) with
  | some (.instr i, _) => some i
  | _ => none

/-- An encoding: a halfword, a word, or none for an event of the device. -/
inductive Encoded where
  | half (h : BitVec 16)
  | word (w : BitVec 32)
  | event
deriving DecidableEq, Repr

/-- The bytes of an encoding, lowest address first (00 R3). -/
def Encoded.bytes : Encoded → List Byte
  | .half h => bytesOfNat 2 h.toNat
  | .word w => bytesOfNat 4 w.toNat
  | .event => []

/-- The words of a well-formed instruction, fields from high bits to low as R208 and R210 lay them out. An event has none. -/
def encode : Instr → Encoded
  | .mov16 d b sw => .half (b ++ d ++ 0x0#4 ++ BitVec.ofBool sw ++ 0x0#1)
  | .iadd16 d b sw => .half (b ++ d ++ 0x1#4 ++ BitVec.ofBool sw ++ 0x0#1)
  | .isub16 d b sw => .half (b ++ d ++ 0x2#4 ++ BitVec.ofBool sw ++ 0x0#1)
  | .imul16 d b sw => .half (b ++ d ++ 0x3#4 ++ BitVec.ofBool sw ++ 0x0#1)
  | .and16 d b sw => .half (b ++ d ++ 0x4#4 ++ BitVec.ofBool sw ++ 0x0#1)
  | .or16 d b sw => .half (b ++ d ++ 0x5#4 ++ BitVec.ofBool sw ++ 0x0#1)
  | .xor16 d b sw => .half (b ++ d ++ 0x6#4 ++ BitVec.ofBool sw ++ 0x0#1)
  | .shl16 d b sw => .half (b ++ d ++ 0x7#4 ++ BitVec.ofBool sw ++ 0x0#1)
  | .shr16 d b sw => .half (b ++ d ++ 0x8#4 ++ BitVec.ofBool sw ++ 0x0#1)
  | .sar16 d b sw => .half (b ++ d ++ 0x9#4 ++ BitVec.ofBool sw ++ 0x0#1)
  | .imin16 d b sw => .half (b ++ d ++ 0xA#4 ++ BitVec.ofBool sw ++ 0x0#1)
  | .imax16 d b sw => .half (b ++ d ++ 0xB#4 ++ BitVec.ofBool sw ++ 0x0#1)
  | .fadd16 d b sw => .half (b ++ d ++ 0xC#4 ++ BitVec.ofBool sw ++ 0x0#1)
  | .fmul16 d b sw => .half (b ++ d ++ 0xD#4 ++ BitVec.ofBool sw ++ 0x0#1)
  | .fmin16 d b sw => .half (b ++ d ++ 0xE#4 ++ BitVec.ofBool sw ++ 0x0#1)
  | .fmax16 d b sw => .half (b ++ d ++ 0xF#4 ++ BitVec.ofBool sw ++ 0x0#1)
  | .iadd d a p b q sw => .word (0x0#2 ++ q ++ b ++ p ++ a ++ d ++ 0x0#6 ++ BitVec.ofBool sw ++ 0x1#1)
  | .isub d a p b q sw => .word (0x1#2 ++ q ++ b ++ p ++ a ++ d ++ 0x0#6 ++ BitVec.ofBool sw ++ 0x1#1)
  | .imul d a p b q sw => .word (0x2#2 ++ q ++ b ++ p ++ a ++ d ++ 0x0#6 ++ BitVec.ofBool sw ++ 0x1#1)
  | .imulh d a p b q sw => .word (0x3#2 ++ q ++ b ++ p ++ a ++ d ++ 0x0#6 ++ BitVec.ofBool sw ++ 0x1#1)
  | .imulhn d a p b q sw => .word (0x0#2 ++ q ++ b ++ p ++ a ++ d ++ 0x1#6 ++ BitVec.ofBool sw ++ 0x1#1)
  | .iaddsat d a p b q sw => .word (0x1#2 ++ q ++ b ++ p ++ a ++ d ++ 0x1#6 ++ BitVec.ofBool sw ++ 0x1#1)
  | .isubsat d a p b q sw => .word (0x2#2 ++ q ++ b ++ p ++ a ++ d ++ 0x1#6 ++ BitVec.ofBool sw ++ 0x1#1)
  | .iaddmin d a p b q sw => .word (0x3#2 ++ q ++ b ++ p ++ a ++ d ++ 0x1#6 ++ BitVec.ofBool sw ++ 0x1#1)
  | .vAnd d a p b q sw => .word (0x0#2 ++ q ++ b ++ p ++ a ++ d ++ 0x2#6 ++ BitVec.ofBool sw ++ 0x1#1)
  | .vOr d a p b q sw => .word (0x1#2 ++ q ++ b ++ p ++ a ++ d ++ 0x2#6 ++ BitVec.ofBool sw ++ 0x1#1)
  | .vXor d a p b q sw => .word (0x2#2 ++ q ++ b ++ p ++ a ++ d ++ 0x2#6 ++ BitVec.ofBool sw ++ 0x1#1)
  | .andn d a p b q sw => .word (0x3#2 ++ q ++ b ++ p ++ a ++ d ++ 0x2#6 ++ BitVec.ofBool sw ++ 0x1#1)
  | .shl d a p b q sw => .word (0x0#2 ++ q ++ b ++ p ++ a ++ d ++ 0x3#6 ++ BitVec.ofBool sw ++ 0x1#1)
  | .shr d a p b q sw => .word (0x1#2 ++ q ++ b ++ p ++ a ++ d ++ 0x3#6 ++ BitVec.ofBool sw ++ 0x1#1)
  | .sar d a p b q sw => .word (0x2#2 ++ q ++ b ++ p ++ a ++ d ++ 0x3#6 ++ BitVec.ofBool sw ++ 0x1#1)
  | .rotl d a p b q sw => .word (0x3#2 ++ q ++ b ++ p ++ a ++ d ++ 0x3#6 ++ BitVec.ofBool sw ++ 0x1#1)
  | .imin d a p b q sw => .word (0x0#2 ++ q ++ b ++ p ++ a ++ d ++ 0x4#6 ++ BitVec.ofBool sw ++ 0x1#1)
  | .imax d a p b q sw => .word (0x1#2 ++ q ++ b ++ p ++ a ++ d ++ 0x4#6 ++ BitVec.ofBool sw ++ 0x1#1)
  | .nmin d a p b q sw => .word (0x2#2 ++ q ++ b ++ p ++ a ++ d ++ 0x4#6 ++ BitVec.ofBool sw ++ 0x1#1)
  | .nmax d a p b q sw => .word (0x3#2 ++ q ++ b ++ p ++ a ++ d ++ 0x4#6 ++ BitVec.ofBool sw ++ 0x1#1)
  | .fadd d a p b q sw => .word (0x0#2 ++ q ++ b ++ p ++ a ++ d ++ 0x5#6 ++ BitVec.ofBool sw ++ 0x1#1)
  | .fsub d a p b q sw => .word (0x1#2 ++ q ++ b ++ p ++ a ++ d ++ 0x5#6 ++ BitVec.ofBool sw ++ 0x1#1)
  | .fmul d a p b q sw => .word (0x2#2 ++ q ++ b ++ p ++ a ++ d ++ 0x5#6 ++ BitVec.ofBool sw ++ 0x1#1)
  | .fmad d a p b q sw => .word (0x3#2 ++ q ++ b ++ p ++ a ++ d ++ 0x5#6 ++ BitVec.ofBool sw ++ 0x1#1)
  | .fmin d a p b q sw => .word (0x0#2 ++ q ++ b ++ p ++ a ++ d ++ 0x6#6 ++ BitVec.ofBool sw ++ 0x1#1)
  | .fmax d a p b q sw => .word (0x1#2 ++ q ++ b ++ p ++ a ++ d ++ 0x6#6 ++ BitVec.ofBool sw ++ 0x1#1)
  | .faddmin d a p b q sw => .word (0x2#2 ++ q ++ b ++ p ++ a ++ d ++ 0x6#6 ++ BitVec.ofBool sw ++ 0x1#1)
  | .fscale d a p b q sw => .word (0x3#2 ++ q ++ b ++ p ++ a ++ d ++ 0x6#6 ++ BitVec.ofBool sw ++ 0x1#1)
  | .dadd d a p b q sw => .word (0x0#2 ++ q ++ b ++ p ++ a ++ d ++ 0x7#6 ++ BitVec.ofBool sw ++ 0x1#1)
  | .dmul d a p b q sw => .word (0x1#2 ++ q ++ b ++ p ++ a ++ d ++ 0x7#6 ++ BitVec.ofBool sw ++ 0x1#1)
  | .dmad d a p b q sw => .word (0x2#2 ++ q ++ b ++ p ++ a ++ d ++ 0x7#6 ++ BitVec.ofBool sw ++ 0x1#1)
  | .dmin d a p b q sw => .word (0x3#2 ++ q ++ b ++ p ++ a ++ d ++ 0x7#6 ++ BitVec.ofBool sw ++ 0x1#1)
  | .bfadd2 d a p b q sw => .word (0x0#2 ++ q ++ b ++ p ++ a ++ d ++ 0x8#6 ++ BitVec.ofBool sw ++ 0x1#1)
  | .bfmul2 d a p b q sw => .word (0x1#2 ++ q ++ b ++ p ++ a ++ d ++ 0x8#6 ++ BitVec.ofBool sw ++ 0x1#1)
  | .bfmad2 d a p b q sw => .word (0x2#2 ++ q ++ b ++ p ++ a ++ d ++ 0x8#6 ++ BitVec.ofBool sw ++ 0x1#1)
  | .bfmax2 d a p b q sw => .word (0x3#2 ++ q ++ b ++ p ++ a ++ d ++ 0x8#6 ++ BitVec.ofBool sw ++ 0x1#1)
  | .hadd2 d a p b q sw => .word (0x0#2 ++ q ++ b ++ p ++ a ++ d ++ 0x9#6 ++ BitVec.ofBool sw ++ 0x1#1)
  | .hmul2 d a p b q sw => .word (0x1#2 ++ q ++ b ++ p ++ a ++ d ++ 0x9#6 ++ BitVec.ofBool sw ++ 0x1#1)
  | .hmad2 d a p b q sw => .word (0x2#2 ++ q ++ b ++ p ++ a ++ d ++ 0x9#6 ++ BitVec.ofBool sw ++ 0x1#1)
  | .hmax2 d a p b q sw => .word (0x3#2 ++ q ++ b ++ p ++ a ++ d ++ 0x9#6 ++ BitVec.ofBool sw ++ 0x1#1)
  | .iaddVs d a p u sw => .word (0x0#2 ++ u ++ p ++ a ++ d ++ 0xA#6 ++ BitVec.ofBool sw ++ 0x1#1)
  | .isubVs d a p u sw => .word (0x1#2 ++ u ++ p ++ a ++ d ++ 0xA#6 ++ BitVec.ofBool sw ++ 0x1#1)
  | .imulVs d a p u sw => .word (0x2#2 ++ u ++ p ++ a ++ d ++ 0xA#6 ++ BitVec.ofBool sw ++ 0x1#1)
  | .iaddminVs d a p u sw => .word (0x3#2 ++ u ++ p ++ a ++ d ++ 0xA#6 ++ BitVec.ofBool sw ++ 0x1#1)
  | .andVs d a p u sw => .word (0x0#2 ++ u ++ p ++ a ++ d ++ 0xB#6 ++ BitVec.ofBool sw ++ 0x1#1)
  | .orVs d a p u sw => .word (0x1#2 ++ u ++ p ++ a ++ d ++ 0xB#6 ++ BitVec.ofBool sw ++ 0x1#1)
  | .xorVs d a p u sw => .word (0x2#2 ++ u ++ p ++ a ++ d ++ 0xB#6 ++ BitVec.ofBool sw ++ 0x1#1)
  | .shlVs d a p u sw => .word (0x3#2 ++ u ++ p ++ a ++ d ++ 0xB#6 ++ BitVec.ofBool sw ++ 0x1#1)
  | .shrVs d a p u sw => .word (0x0#2 ++ u ++ p ++ a ++ d ++ 0xC#6 ++ BitVec.ofBool sw ++ 0x1#1)
  | .sarVs d a p u sw => .word (0x1#2 ++ u ++ p ++ a ++ d ++ 0xC#6 ++ BitVec.ofBool sw ++ 0x1#1)
  | .iminVs d a p u sw => .word (0x2#2 ++ u ++ p ++ a ++ d ++ 0xC#6 ++ BitVec.ofBool sw ++ 0x1#1)
  | .imaxVs d a p u sw => .word (0x3#2 ++ u ++ p ++ a ++ d ++ 0xC#6 ++ BitVec.ofBool sw ++ 0x1#1)
  | .faddVs d a p u sw => .word (0x0#2 ++ u ++ p ++ a ++ d ++ 0xD#6 ++ BitVec.ofBool sw ++ 0x1#1)
  | .fmulVs d a p u sw => .word (0x1#2 ++ u ++ p ++ a ++ d ++ 0xD#6 ++ BitVec.ofBool sw ++ 0x1#1)
  | .fmadVs d a p u sw => .word (0x2#2 ++ u ++ p ++ a ++ d ++ 0xD#6 ++ BitVec.ofBool sw ++ 0x1#1)
  | .faddminVs d a p u sw => .word (0x3#2 ++ u ++ p ++ a ++ d ++ 0xD#6 ++ BitVec.ofBool sw ++ 0x1#1)
  | .iaddi d a p i sw => .word (i ++ p ++ a ++ d ++ 0xE#6 ++ BitVec.ofBool sw ++ 0x1#1)
  | .andi d a p i sw => .word (i ++ p ++ a ++ d ++ 0xF#6 ++ BitVec.ofBool sw ++ 0x1#1)
  | .ori d a p i sw => .word (i ++ p ++ a ++ d ++ 0x10#6 ++ BitVec.ofBool sw ++ 0x1#1)
  | .xori d a p i sw => .word (i ++ p ++ a ++ d ++ 0x11#6 ++ BitVec.ofBool sw ++ 0x1#1)
  | .shli d a p i sw => .word (0x0#5 ++ i ++ p ++ a ++ d ++ 0x12#6 ++ BitVec.ofBool sw ++ 0x1#1)
  | .shri d a p i sw => .word (0x0#5 ++ i ++ p ++ a ++ d ++ 0x13#6 ++ BitVec.ofBool sw ++ 0x1#1)
  | .sari d a p i sw => .word (0x0#5 ++ i ++ p ++ a ++ d ++ 0x14#6 ++ BitVec.ofBool sw ++ 0x1#1)
  | .pack2h d a p b q sw => .word (0x0#2 ++ q ++ b ++ p ++ a ++ d ++ 0x15#6 ++ BitVec.ofBool sw ++ 0x1#1)
  | .bperm d a p b q sw => .word (0x1#2 ++ q ++ b ++ p ++ a ++ d ++ 0x15#6 ++ BitVec.ofBool sw ++ 0x1#1)
  | .fcopysign d a p b q sw => .word (0x2#2 ++ q ++ b ++ p ++ a ++ d ++ 0x15#6 ++ BitVec.ofBool sw ++ 0x1#1)
  | .nabsdiff d a p b q sw => .word (0x3#2 ++ q ++ b ++ p ++ a ++ d ++ 0x15#6 ++ BitVec.ofBool sw ++ 0x1#1)
  | .ffma d a b c sw => .word (c ++ b ++ a ++ d ++ 0x16#6 ++ BitVec.ofBool sw ++ 0x1#1)
  | .imad d a b c sw => .word (c ++ b ++ a ++ d ++ 0x17#6 ++ BitVec.ofBool sw ++ 0x1#1)
  | .sel d a b c sw => .word (0x0#3 ++ c ++ b ++ a ++ d ++ 0x18#6 ++ BitVec.ofBool sw ++ 0x1#1)
  | .bfe d a b c sw => .word (c ++ b ++ a ++ d ++ 0x19#6 ++ BitVec.ofBool sw ++ 0x1#1)
  | .bfi d a b c sw => .word (c ++ b ++ a ++ d ++ 0x1A#6 ++ BitVec.ofBool sw ++ 0x1#1)
  | .mov d a p sw => .word (0x0#10 ++ p ++ a ++ d ++ 0x1B#6 ++ BitVec.ofBool sw ++ 0x1#1)
  | .vNot d a p sw => .word (0x1#10 ++ p ++ a ++ d ++ 0x1B#6 ++ BitVec.ofBool sw ++ 0x1#1)
  | .ineg d a p sw => .word (0x2#10 ++ p ++ a ++ d ++ 0x1B#6 ++ BitVec.ofBool sw ++ 0x1#1)
  | .iabs d a p sw => .word (0x3#10 ++ p ++ a ++ d ++ 0x1B#6 ++ BitVec.ofBool sw ++ 0x1#1)
  | .clz d a p sw => .word (0x4#10 ++ p ++ a ++ d ++ 0x1B#6 ++ BitVec.ofBool sw ++ 0x1#1)
  | .ctz d a p sw => .word (0x5#10 ++ p ++ a ++ d ++ 0x1B#6 ++ BitVec.ofBool sw ++ 0x1#1)
  | .popc d a p sw => .word (0x6#10 ++ p ++ a ++ d ++ 0x1B#6 ++ BitVec.ofBool sw ++ 0x1#1)
  | .brev d a p sw => .word (0x7#10 ++ p ++ a ++ d ++ 0x1B#6 ++ BitVec.ofBool sw ++ 0x1#1)
  | .fabs d a p sw => .word (0x0#10 ++ p ++ a ++ d ++ 0x1C#6 ++ BitVec.ofBool sw ++ 0x1#1)
  | .fneg d a p sw => .word (0x1#10 ++ p ++ a ++ d ++ 0x1C#6 ++ BitVec.ofBool sw ++ 0x1#1)
  | .frcp d a p sw => .word (0x2#10 ++ p ++ a ++ d ++ 0x1C#6 ++ BitVec.ofBool sw ++ 0x1#1)
  | .frsq d a p sw => .word (0x3#10 ++ p ++ a ++ d ++ 0x1C#6 ++ BitVec.ofBool sw ++ 0x1#1)
  | .fsqrt d a p sw => .word (0x4#10 ++ p ++ a ++ d ++ 0x1C#6 ++ BitVec.ofBool sw ++ 0x1#1)
  | .fexp2 d a p sw => .word (0x5#10 ++ p ++ a ++ d ++ 0x1C#6 ++ BitVec.ofBool sw ++ 0x1#1)
  | .flog2 d a p sw => .word (0x6#10 ++ p ++ a ++ d ++ 0x1C#6 ++ BitVec.ofBool sw ++ 0x1#1)
  | .fsin d a p sw => .word (0x7#10 ++ p ++ a ++ d ++ 0x1C#6 ++ BitVec.ofBool sw ++ 0x1#1)
  | .fcos d a p sw => .word (0x8#10 ++ p ++ a ++ d ++ 0x1C#6 ++ BitVec.ofBool sw ++ 0x1#1)
  | .fround d a p r sw => .word (0x0#4 ++ r ++ 0x9#4 ++ p ++ a ++ d ++ 0x1C#6 ++ BitVec.ofBool sw ++ 0x1#1)
  | .ffract d a p sw => .word (0xA#10 ++ p ++ a ++ d ++ 0x1C#6 ++ BitVec.ofBool sw ++ 0x1#1)
  | .fclass d a p sw => .word (0xB#10 ++ p ++ a ++ d ++ 0x1C#6 ++ BitVec.ofBool sw ++ 0x1#1)
  | .cvt d a p f e r sw => .word (r ++ e ++ f ++ p ++ a ++ d ++ 0x1D#6 ++ BitVec.ofBool sw ++ 0x1#1)
  | .movi d i sw => .word (0x0#2 ++ i ++ d ++ 0x1E#6 ++ BitVec.ofBool sw ++ 0x1#1)
  | .movhi d i sw => .word (0x1#2 ++ i ++ d ++ 0x1E#6 ++ BitVec.ofBool sw ++ 0x1#1)
  | .movf d i sw => .word (0x2#2 ++ i ++ d ++ 0x1E#6 ++ BitVec.ofBool sw ++ 0x1#1)
  | .vredAddS32 v u p sw => .word (0x0#8 ++ p ++ u ++ v ++ 0x1F#6 ++ BitVec.ofBool sw ++ 0x1#1)
  | .vredAddF32 v u p sw => .word (0x1#8 ++ p ++ u ++ v ++ 0x1F#6 ++ BitVec.ofBool sw ++ 0x1#1)
  | .vredMinS32 v u p sw => .word (0x2#8 ++ p ++ u ++ v ++ 0x1F#6 ++ BitVec.ofBool sw ++ 0x1#1)
  | .vredMaxS32 v u p sw => .word (0x3#8 ++ p ++ u ++ v ++ 0x1F#6 ++ BitVec.ofBool sw ++ 0x1#1)
  | .vredMinB32 v u p sw => .word (0x4#8 ++ p ++ u ++ v ++ 0x1F#6 ++ BitVec.ofBool sw ++ 0x1#1)
  | .vredMaxB32 v u p sw => .word (0x5#8 ++ p ++ u ++ v ++ 0x1F#6 ++ BitVec.ofBool sw ++ 0x1#1)
  | .vredMinF32 v u p sw => .word (0x6#8 ++ p ++ u ++ v ++ 0x1F#6 ++ BitVec.ofBool sw ++ 0x1#1)
  | .vredMaxF32 v u p sw => .word (0x7#8 ++ p ++ u ++ v ++ 0x1F#6 ++ BitVec.ofBool sw ++ 0x1#1)
  | .vredAnd v u p sw => .word (0x8#8 ++ p ++ u ++ v ++ 0x1F#6 ++ BitVec.ofBool sw ++ 0x1#1)
  | .vredOr v u p sw => .word (0x9#8 ++ p ++ u ++ v ++ 0x1F#6 ++ BitVec.ofBool sw ++ 0x1#1)
  | .vredXor v u p sw => .word (0xA#8 ++ p ++ u ++ v ++ 0x1F#6 ++ BitVec.ofBool sw ++ 0x1#1)
  | .rdlane v u sw => .word (0x40#10 ++ u ++ v ++ 0x1F#6 ++ BitVec.ofBool sw ++ 0x1#1)
  | .bcast v u sw => .word (0x44#10 ++ u ++ v ++ 0x1F#6 ++ BitVec.ofBool sw ++ 0x1#1)
  | .bcastd v u sw => .word (0x48#10 ++ u ++ v ++ 0x1F#6 ++ BitVec.ofBool sw ++ 0x1#1)
  | .permSet v u sw => .word (0x4C#10 ++ u ++ v ++ 0x1F#6 ++ BitVec.ofBool sw ++ 0x1#1)
  | .bxEnc8 v u p sw => .word (0x18#8 ++ p ++ u ++ v ++ 0x1F#6 ++ BitVec.ofBool sw ++ 0x1#1)
  | .bxEnc4 v u p sw => .word (0x19#8 ++ p ++ u ++ v ++ 0x1F#6 ++ BitVec.ofBool sw ++ 0x1#1)
  | .bxDec8 v p sw => .word (0x1A#8 ++ p ++ 0x0#8 ++ v ++ 0x1F#6 ++ BitVec.ofBool sw ++ 0x1#1)
  | .bxDec4 v p sw => .word (0x1B#8 ++ p ++ 0x0#8 ++ v ++ 0x1F#6 ++ BitVec.ofBool sw ++ 0x1#1)
  | .vscanAddS32 d a p e sw => .word (0x0#6 ++ e ++ 0x0#3 ++ p ++ a ++ d ++ 0x20#6 ++ BitVec.ofBool sw ++ 0x1#1)
  | .vscanAddF32 d a p e sw => .word (0x0#6 ++ e ++ 0x1#3 ++ p ++ a ++ d ++ 0x20#6 ++ BitVec.ofBool sw ++ 0x1#1)
  | .vscanMinS32 d a p e sw => .word (0x0#6 ++ e ++ 0x2#3 ++ p ++ a ++ d ++ 0x20#6 ++ BitVec.ofBool sw ++ 0x1#1)
  | .vscanMaxS32 d a p e sw => .word (0x0#6 ++ e ++ 0x3#3 ++ p ++ a ++ d ++ 0x20#6 ++ BitVec.ofBool sw ++ 0x1#1)
  | .vscanMinF32 d a p e sw => .word (0x0#6 ++ e ++ 0x4#3 ++ p ++ a ++ d ++ 0x20#6 ++ BitVec.ofBool sw ++ 0x1#1)
  | .vscanMaxF32 d a p e sw => .word (0x0#6 ++ e ++ 0x5#3 ++ p ++ a ++ d ++ 0x20#6 ++ BitVec.ofBool sw ++ 0x1#1)
  | .icmp d c a p b q t sw => .word (0x0#1 ++ t ++ q ++ b ++ p ++ a ++ c ++ d ++ 0x22#6 ++ BitVec.ofBool sw ++ 0x1#1)
  | .fcmp d c a p b q sw => .word (0x2#2 ++ q ++ b ++ p ++ a ++ c ++ d ++ 0x22#6 ++ BitVec.ofBool sw ++ 0x1#1)
  | .pand d p q sw => .word (0x0#15 ++ q ++ p ++ d ++ 0x23#6 ++ BitVec.ofBool sw ++ 0x1#1)
  | .por d p q sw => .word (0x1#15 ++ q ++ p ++ d ++ 0x23#6 ++ BitVec.ofBool sw ++ 0x1#1)
  | .pxor d p q sw => .word (0x2#15 ++ q ++ p ++ d ++ 0x23#6 ++ BitVec.ofBool sw ++ 0x1#1)
  | .pandn d p q sw => .word (0x3#15 ++ q ++ p ++ d ++ 0x23#6 ++ BitVec.ofBool sw ++ 0x1#1)
  | .pnot d p sw => .word (0x20#18 ++ p ++ d ++ 0x23#6 ++ BitVec.ofBool sw ++ 0x1#1)
  | .pmov d p sw => .word (0x28#18 ++ p ++ d ++ 0x23#6 ++ BitVec.ofBool sw ++ 0x1#1)
  | .voteAny d p sw => .word (0x30#18 ++ p ++ d ++ 0x23#6 ++ BitVec.ofBool sw ++ 0x1#1)
  | .voteAll d p sw => .word (0x38#18 ++ p ++ d ++ 0x23#6 ++ BitVec.ofBool sw ++ 0x1#1)
  | .ballot p u sw => .word (0x0#2 ++ u ++ 0x40#8 ++ p ++ 0x0#3 ++ 0x23#6 ++ BitVec.ofBool sw ++ 0x1#1)
  | .bra o sw => .word (o ++ 0x0#6 ++ 0x25#6 ++ BitVec.ofBool sw ++ 0x1#1)
  | .brp p n o sw => .word (o ++ n ++ p ++ 0x1#2 ++ 0x25#6 ++ BitVec.ofBool sw ++ 0x1#1)
  | .call o sw => .word (o ++ 0x2#6 ++ 0x25#6 ++ BitVec.ofBool sw ++ 0x1#1)
  | .sBra o sw => .word (o ++ 0x0#10 ++ 0x26#6 ++ BitVec.ofBool sw ++ 0x1#1)
  | .sBrz u o sw => .word (o ++ 0x1#2 ++ u ++ 0x26#6 ++ BitVec.ofBool sw ++ 0x1#1)
  | .sBrnz u o sw => .word (o ++ 0x2#2 ++ u ++ 0x26#6 ++ BitVec.ofBool sw ++ 0x1#1)
  | .sBrlt u o sw => .word (o ++ 0x3#2 ++ u ++ 0x26#6 ++ BitVec.ofBool sw ++ 0x1#1)
  | .nop sw => .word (0x0#24 ++ 0x27#6 ++ BitVec.ofBool sw ++ 0x1#1)
  | .ret sw => .word (0x4000#24 ++ 0x27#6 ++ BitVec.ofBool sw ++ 0x1#1)
  | .jmp a sw => .word (0x200#18 ++ a ++ 0x27#6 ++ BitVec.ofBool sw ++ 0x1#1)
  | .exit sw => .word (0xC000#24 ++ 0x27#6 ++ BitVec.ofBool sw ++ 0x1#1)
  | .yield sw => .word (0x10000#24 ++ 0x27#6 ++ BitVec.ofBool sw ++ 0x1#1)
  | .gbar sw => .word (0x14000#24 ++ 0x27#6 ++ BitVec.ofBool sw ++ 0x1#1)
  | .brk c sw => .word (0x6#10 ++ c ++ 0x0#6 ++ 0x27#6 ++ BitVec.ofBool sw ++ 0x1#1)
  | .rdlnk a sw => .word (0x700#18 ++ a ++ 0x27#6 ++ BitVec.ofBool sw ++ 0x1#1)
  | .wrlnk a sw => .word (0x800#18 ++ a ++ 0x27#6 ++ BitVec.ofBool sw ++ 0x1#1)
  | .sMov d b sw => .word (0x0#8 ++ b ++ d ++ 0x28#6 ++ BitVec.ofBool sw ++ 0x1#1)
  | .sAdd d b sw => .word (0x1#8 ++ b ++ d ++ 0x28#6 ++ BitVec.ofBool sw ++ 0x1#1)
  | .sSub d b sw => .word (0x2#8 ++ b ++ d ++ 0x28#6 ++ BitVec.ofBool sw ++ 0x1#1)
  | .sMul d b sw => .word (0x3#8 ++ b ++ d ++ 0x28#6 ++ BitVec.ofBool sw ++ 0x1#1)
  | .sMulh d b sw => .word (0x4#8 ++ b ++ d ++ 0x28#6 ++ BitVec.ofBool sw ++ 0x1#1)
  | .sMulhn d b sw => .word (0x5#8 ++ b ++ d ++ 0x28#6 ++ BitVec.ofBool sw ++ 0x1#1)
  | .sAnd d b sw => .word (0x6#8 ++ b ++ d ++ 0x28#6 ++ BitVec.ofBool sw ++ 0x1#1)
  | .sOr d b sw => .word (0x7#8 ++ b ++ d ++ 0x28#6 ++ BitVec.ofBool sw ++ 0x1#1)
  | .sXor d b sw => .word (0x8#8 ++ b ++ d ++ 0x28#6 ++ BitVec.ofBool sw ++ 0x1#1)
  | .sShl d b sw => .word (0x9#8 ++ b ++ d ++ 0x28#6 ++ BitVec.ofBool sw ++ 0x1#1)
  | .sShr d b sw => .word (0xA#8 ++ b ++ d ++ 0x28#6 ++ BitVec.ofBool sw ++ 0x1#1)
  | .sSar d b sw => .word (0xB#8 ++ b ++ d ++ 0x28#6 ++ BitVec.ofBool sw ++ 0x1#1)
  | .sMin d b sw => .word (0xC#8 ++ b ++ d ++ 0x28#6 ++ BitVec.ofBool sw ++ 0x1#1)
  | .sMax d b sw => .word (0xD#8 ++ b ++ d ++ 0x28#6 ++ BitVec.ofBool sw ++ 0x1#1)
  | .sNmin d b sw => .word (0xE#8 ++ b ++ d ++ 0x28#6 ++ BitVec.ofBool sw ++ 0x1#1)
  | .sNmax d b sw => .word (0xF#8 ++ b ++ d ++ 0x28#6 ++ BitVec.ofBool sw ++ 0x1#1)
  | .sSlt d b sw => .word (0x10#8 ++ b ++ d ++ 0x28#6 ++ BitVec.ofBool sw ++ 0x1#1)
  | .sSltn d b sw => .word (0x11#8 ++ b ++ d ++ 0x28#6 ++ BitVec.ofBool sw ++ 0x1#1)
  | .sSeq d b sw => .word (0x12#8 ++ b ++ d ++ 0x28#6 ++ BitVec.ofBool sw ++ 0x1#1)
  | .sNot d b sw => .word (0x13#8 ++ b ++ d ++ 0x28#6 ++ BitVec.ofBool sw ++ 0x1#1)
  | .sNeg d b sw => .word (0x14#8 ++ b ++ d ++ 0x28#6 ++ BitVec.ofBool sw ++ 0x1#1)
  | .sClz d b sw => .word (0x15#8 ++ b ++ d ++ 0x28#6 ++ BitVec.ofBool sw ++ 0x1#1)
  | .sPopc d b sw => .word (0x16#8 ++ b ++ d ++ 0x28#6 ++ BitVec.ofBool sw ++ 0x1#1)
  | .sDivn d b sw => .word (0x17#8 ++ b ++ d ++ 0x28#6 ++ BitVec.ofBool sw ++ 0x1#1)
  | .sRemn d b sw => .word (0x18#8 ++ b ++ d ++ 0x28#6 ++ BitVec.ofBool sw ++ 0x1#1)
  | .sFadd d b sw => .word (0x19#8 ++ b ++ d ++ 0x28#6 ++ BitVec.ofBool sw ++ 0x1#1)
  | .sFmul d b sw => .word (0x1A#8 ++ b ++ d ++ 0x28#6 ++ BitVec.ofBool sw ++ 0x1#1)
  | .sAddi d i sw => .word (i ++ 0x0#4 ++ d ++ 0x29#6 ++ BitVec.ofBool sw ++ 0x1#1)
  | .sAndi d i sw => .word (i ++ 0x1#4 ++ d ++ 0x29#6 ++ BitVec.ofBool sw ++ 0x1#1)
  | .sOri d i sw => .word (i ++ 0x2#4 ++ d ++ 0x29#6 ++ BitVec.ofBool sw ++ 0x1#1)
  | .sXori d i sw => .word (i ++ 0x3#4 ++ d ++ 0x29#6 ++ BitVec.ofBool sw ++ 0x1#1)
  | .sShli d i sw => .word (0x0#6 ++ i ++ 0x4#4 ++ d ++ 0x29#6 ++ BitVec.ofBool sw ++ 0x1#1)
  | .sShri d i sw => .word (0x0#6 ++ i ++ 0x5#4 ++ d ++ 0x29#6 ++ BitVec.ofBool sw ++ 0x1#1)
  | .sSari d i sw => .word (0x0#6 ++ i ++ 0x6#4 ++ d ++ 0x29#6 ++ BitVec.ofBool sw ++ 0x1#1)
  | .sSlti d i sw => .word (i ++ 0x7#4 ++ d ++ 0x29#6 ++ BitVec.ofBool sw ++ 0x1#1)
  | .sMuli d i sw => .word (i ++ 0x8#4 ++ d ++ 0x29#6 ++ BitVec.ofBool sw ++ 0x1#1)
  | .sLi d i sw => .word (i ++ d ++ 0x2A#6 ++ BitVec.ofBool sw ++ 0x1#1)
  | .sLih d i sw => .word (i ++ d ++ 0x2B#6 ++ BitVec.ofBool sw ++ 0x1#1)
  | .cpyKick d a sw => .word (0x0#8 ++ a ++ d ++ 0x2C#6 ++ BitVec.ofBool sw ++ 0x1#1)
  | .cpyStage sw => .word (0x10000#24 ++ 0x2C#6 ++ BitVec.ofBool sw ++ 0x1#1)
  | .cpyWp d c sw => .word (c ++ 0x200#13 ++ d ++ 0x2C#6 ++ BitVec.ofBool sw ++ 0x1#1)
  | .cpyCancel d sw => .word (0x300#16 ++ d ++ 0x2C#6 ++ BitVec.ofBool sw ++ 0x1#1)
  | .taskPost a sw => .word (0x4#8 ++ a ++ 0x0#8 ++ 0x2C#6 ++ BitVec.ofBool sw ++ 0x1#1)
  | .taskSig a sw => .word (0x5#8 ++ a ++ 0x0#8 ++ 0x2C#6 ++ BitVec.ofBool sw ++ 0x1#1)
  | .gangSet a sw => .word (0x6#8 ++ a ++ 0x0#8 ++ 0x2C#6 ++ BitVec.ofBool sw ++ 0x1#1)
  | .gangGet d sw => .word (0x700#16 ++ d ++ 0x2C#6 ++ BitVec.ofBool sw ++ 0x1#1)
  | .xregAcq x sw => .word (x ++ 0x80000#21 ++ 0x2C#6 ++ BitVec.ofBool sw ++ 0x1#1)
  | .xregRel sw => .word (0x90000#24 ++ 0x2C#6 ++ BitVec.ofBool sw ++ 0x1#1)
  | .xregTry d x sw => .word (x ++ 0xA00#13 ++ d ++ 0x2C#6 ++ BitVec.ofBool sw ++ 0x1#1)
  | .genPass sw => .word (0xB0000#24 ++ 0x2C#6 ++ BitVec.ofBool sw ++ 0x1#1)
  | .genCur d sw => .word (0xC00#16 ++ d ++ 0x2C#6 ++ BitVec.ofBool sw ++ 0x1#1)
  | .kset k a sw => .word (0xD#8 ++ a ++ 0x0#4 ++ k ++ 0x2C#6 ++ BitVec.ofBool sw ++ 0x1#1)
  | .kget d k sw => .word (0xE0#12 ++ k ++ d ++ 0x2C#6 ++ BitVec.ofBool sw ++ 0x1#1)
  | .scopeSet i q sw => .word (0x0#1 ++ q ++ 0x7800#16 ++ i ++ 0x2C#6 ++ BitVec.ofBool sw ++ 0x1#1)
  | .uirqSend d a sw => .word (0x0#8 ++ a ++ d ++ 0x2D#6 ++ BitVec.ofBool sw ++ 0x1#1)
  | .uirqWait sw => .word (0x10000#24 ++ 0x2D#6 ++ BitVec.ofBool sw ++ 0x1#1)
  | .uirqTake d sw => .word (0x200#16 ++ d ++ 0x2D#6 ++ BitVec.ofBool sw ++ 0x1#1)
  | .uirqMask d a sw => .word (0x3#8 ++ a ++ d ++ 0x2D#6 ++ BitVec.ofBool sw ++ 0x1#1)
  | .uirqPend d sw => .word (0x400#16 ++ d ++ 0x2D#6 ++ BitVec.ofBool sw ++ 0x1#1)
  | .uirqDone a sw => .word (0x5#8 ++ a ++ 0x0#8 ++ 0x2D#6 ++ BitVec.ofBool sw ++ 0x1#1)
  | .svc n sw => .word (0x0#8 ++ n ++ 0x0#8 ++ 0x2E#6 ++ BitVec.ofBool sw ++ 0x1#1)
  | .trap c sw => .word (0x1#8 ++ c ++ 0x0#8 ++ 0x2E#6 ++ BitVec.ofBool sw ++ 0x1#1)
  | .rett sw => .word (0x20000#24 ++ 0x2E#6 ++ BitVec.ofBool sw ++ 0x1#1)
  | .tmask sw => .word (0x30000#24 ++ 0x2E#6 ++ BitVec.ofBool sw ++ 0x1#1)
  | .tunmask sw => .word (0x40000#24 ++ 0x2E#6 ++ BitVec.ofBool sw ++ 0x1#1)
  | .rdsr r d sw => .word (r.extractLsb' 8 3 ++ 0x5#5 ++ r.extractLsb' 0 8 ++ d ++ 0x2E#6 ++ BitVec.ofBool sw ++ 0x1#1)
  | .wrsr r d sw => .word (r.extractLsb' 8 3 ++ 0x6#5 ++ r.extractLsb' 0 8 ++ d ++ 0x2E#6 ++ BitVec.ofBool sw ++ 0x1#1)
  | .ckpt sw => .word (0x70000#24 ++ 0x2E#6 ++ BitVec.ofBool sw ++ 0x1#1)
  | .profMark a sw => .word (0x8#8 ++ a ++ 0x0#8 ++ 0x2E#6 ++ BitVec.ofBool sw ++ 0x1#1)
  | .ld d a w o sw => .word (o ++ w ++ a ++ d ++ 0x30#6 ++ BitVec.ofBool sw ++ 0x1#1)
  | .st b a w o sw => .word (o ++ w ++ a ++ b ++ 0x31#6 ++ BitVec.ofBool sw ++ 0x1#1)
  | .lds d a w o sw => .word (o ++ w ++ a ++ d ++ 0x32#6 ++ BitVec.ofBool sw ++ 0x1#1)
  | .sts b a w o sw => .word (o ++ w ++ a ++ b ++ 0x33#6 ++ BitVec.ofBool sw ++ 0x1#1)
  | .ldAcq d a w q o sw => .word (o ++ q ++ 0x0#1 ++ w ++ a ++ d ++ 0x34#6 ++ BitVec.ofBool sw ++ 0x1#1)
  | .ldCon d a w q o sw => .word (o ++ q ++ 0x1#1 ++ w ++ a ++ d ++ 0x34#6 ++ BitVec.ofBool sw ++ 0x1#1)
  | .stRel b a w q o sw => .word (o ++ q ++ 0x0#1 ++ w ++ a ++ b ++ 0x35#6 ++ BitVec.ofBool sw ++ 0x1#1)
  | .sLd d a o sw => .word (o ++ a ++ d ++ 0x36#6 ++ BitVec.ofBool sw ++ 0x1#1)
  | .sSt d a o sw => .word (o ++ a ++ d ++ 0x37#6 ++ BitVec.ofBool sw ++ 0x1#1)
  | .atom d a b o sw => .word (0x0#2 ++ o ++ b ++ a ++ d ++ 0x38#6 ++ BitVec.ofBool sw ++ 0x1#1)
  | .atomAcq d a b o q sw => .word (q ++ o ++ b ++ a ++ d ++ 0x39#6 ++ BitVec.ofBool sw ++ 0x1#1)
  | .atomRel d a b o q sw => .word (q ++ o ++ b ++ a ++ d ++ 0x3A#6 ++ BitVec.ofBool sw ++ 0x1#1)
  | .atomAr d a b o q sw => .word (q ++ o ++ b ++ a ++ d ++ 0x3B#6 ++ BitVec.ofBool sw ++ 0x1#1)
  | .red r a b o q sw => .word (q ++ o ++ b ++ a ++ 0x0#5 ++ r ++ 0x3C#6 ++ BitVec.ofBool sw ++ 0x1#1)
  | .fence e k sw => .word (0x0#4 ++ k ++ e ++ 0x0#13 ++ 0x3D#6 ++ BitVec.ofBool sw ++ 0x1#1)
  | .barInit a b sw => .word (0x0#3 ++ b ++ a ++ 0x1#5 ++ 0x3D#6 ++ BitVec.ofBool sw ++ 0x1#1)
  | .barArrive a b sw => .word (0x0#3 ++ b ++ a ++ 0x2#5 ++ 0x3D#6 ++ BitVec.ofBool sw ++ 0x1#1)
  | .barExpect a b sw => .word (0x0#3 ++ b ++ a ++ 0x3#5 ++ 0x3D#6 ++ BitVec.ofBool sw ++ 0x1#1)
  | .barWait a b sw => .word (0x0#3 ++ b ++ a ++ 0x4#5 ++ 0x3D#6 ++ BitVec.ofBool sw ++ 0x1#1)
  | .barTest a b p sw => .word (p ++ b ++ a ++ 0x5#5 ++ 0x3D#6 ++ BitVec.ofBool sw ++ 0x1#1)
  | .barStat a b sw => .word (0x0#3 ++ b ++ a ++ 0x6#5 ++ 0x3D#6 ++ BitVec.ofBool sw ++ 0x1#1)
  | .bsync sw => .word (0x7#24 ++ 0x3D#6 ++ BitVec.ofBool sw ++ 0x1#1)
  | .cacheWb a b x sw => .word (x ++ b ++ a ++ 0x8#5 ++ 0x3D#6 ++ BitVec.ofBool sw ++ 0x1#1)
  | .cacheInv a b x sw => .word (x ++ b ++ a ++ 0x9#5 ++ 0x3D#6 ++ BitVec.ofBool sw ++ 0x1#1)
  | .cachePf a b sw => .word (0x0#3 ++ b ++ a ++ 0xA#5 ++ 0x3D#6 ++ BitVec.ofBool sw ++ 0x1#1)
  | .cachePf2 a b sw => .word (0x0#3 ++ b ++ a ++ 0xB#5 ++ 0x3D#6 ++ BitVec.ofBool sw ++ 0x1#1)
  | .mma d a b sw => .word (0x0#4 ++ b ++ a ++ d ++ 0x3E#6 ++ BitVec.ofBool sw ++ 0x1#1)
  | .mmaZ d a b sw => .word (0x1#4 ++ b ++ a ++ d ++ 0x3E#6 ++ BitVec.ofBool sw ++ 0x1#1)
  | .mmaS d b sw => .word (0x2#4 ++ b ++ 0x0#6 ++ d ++ 0x3E#6 ++ BitVec.ofBool sw ++ 0x1#1)
  | .mmaF d b sw => .word (0x3#4 ++ b ++ 0x0#6 ++ d ++ 0x3E#6 ++ BitVec.ofBool sw ++ 0x1#1)
  | .mpoly d sw => .word (0x4000#16 ++ d ++ 0x3E#6 ++ BitVec.ofBool sw ++ 0x1#1)
  | .miter d sw => .word (0x5000#16 ++ d ++ 0x3E#6 ++ BitVec.ofBool sw ++ 0x1#1)
  | .accZero d sw => .word (0x6000#16 ++ d ++ 0x3E#6 ++ BitVec.ofBool sw ++ 0x1#1)
  | .accScale d sw => .word (0x7000#16 ++ d ++ 0x3E#6 ++ BitVec.ofBool sw ++ 0x1#1)
  | .accAdd d sw => .word (0x8000#16 ++ d ++ 0x3E#6 ++ BitVec.ofBool sw ++ 0x1#1)
  | .accTr d sw => .word (0x9000#16 ++ d ++ 0x3E#6 ++ BitVec.ofBool sw ++ 0x1#1)
  | .accNorm d sw => .word (0xA000#16 ++ d ++ 0x3E#6 ++ BitVec.ofBool sw ++ 0x1#1)
  | .accOut d sw => .word (0xB000#16 ++ d ++ 0x3E#6 ++ BitVec.ofBool sw ++ 0x1#1)
  | .accIn d sw => .word (0xC000#16 ++ d ++ 0x3E#6 ++ BitVec.ofBool sw ++ 0x1#1)
  | .accLd v s q f sw => .word (0x0#4 ++ f ++ q ++ s ++ v ++ 0x3F#6 ++ BitVec.ofBool sw ++ 0x1#1)
  | .accSt v s q f sw => .word (0x1#4 ++ f ++ q ++ s ++ v ++ 0x3F#6 ++ BitVec.ofBool sw ++ 0x1#1)
  | _ => .event

end Sys2Proof
end

