-- ==== Sys2Proof/Machine/Fetch.lean ====
section
/-! DEFINITION. Instruction fetch (07 R206, 19 R443) and the encodings that are no instruction (18 R437). -/
namespace Sys2Proof.Machine

/-- What stops a fetch: the code, the address of the halfword that failed, and the record of an uncorrected error. -/
structure FetchStop where
  code : BitVec 16
  addr : Word64
  rep : Option Report := none
deriving DecidableEq, Repr

/-- The error check of a fetched sector: a corrected error is recorded; an uncorrected one poisons the sector and stops the fetch. -/
def State.fetchCheck (s : State) (ctx pa : Nat) (pc : Word64) : State × Option FetchStop :=
  let k := sectorOf pa
  let bad := fun (s : State) (code : BitVec 16) (syn : BitVec 8) =>
    (s.modSector k (fun t => { t with ecc := none, poison := true }),
     some { code := code, addr := pc, rep := some (memReport s ctx 0 code (64 * k) syn (tagOf pc) false) : FetchStop })
  match s.storedError pa with
  | some .uncorrected => bad s 0x3602 1
  | some .misdirected => bad s 0x3604 3
  | some .corrected => if s.poisonedAt pa then bad s 0x3602 1 else (s.decodeSector ctx 0 pa pc .corrected false, none)
  | none => if s.poisonedAt pa then bad s 0x3602 1 else (s, none)

/-- The error check of the cached copy a fetch reads: an uncorrectable error of a dirty one poisons the sector and stops the fetch with the cache's code (19 R443);
of any other copy it is mended as for data (20 R475). -/
def State.fetchCaches (s : State) (core ctx pa : Nat) (pc : Word64) : State × Option FetchStop :=
  let k := sectorOf pa
  let h := homeSliceOf pa
  match (s.coreAt core).l1Line k with
  | some l =>
    if l.err = some false ∧ (l.st = .m ∨ l.st = .o) then
      ((s.modCore core (fun c => c.useLine k (fun l => { l with err := none }))).modSector k (fun t => { t with poison := true }),
        some { code := 0x3402, addr := pc, rep := some (cacheReport s ctx 0 0x3402 (corePath core 4 0) k) })
    else (s.checkL1 core ctx 0 k, none)
  | none =>
    if Tab.get? (k % 4) (s.line (k / 4)).l2err = some false ∧ (s.line (k / 4)).dirty.getLsbD (k % 4) then
      ((s.modLine (k / 4) (fun l => { l with l2err := Tab.del (k % 4) l.l2err })).modSector k (fun t => { t with poison := true }),
        some { code := 0x3502, addr := pc, rep := some (cacheReport s ctx 0 0x3502 (diePath (h / 16) 5 (h % 16)) k) })
    else (s.checkL2 ctx 0 k, none)

/-- The error checks of a fetch: the copy it reads, then the sector. -/
def State.fetchErrors (s : State) (core ctx pa : Nat) (pc : Word64) : State × Option FetchStop :=
  match s.fetchCaches core ctx pa pc with
  | (s, some e) => (s, some e)
  | (s, none) => s.fetchCheck ctx pa pc

/-- One halfword of the instruction path (07 R206), at an odd address too (DESIGN CHOICE, log 105), as the group's invalidations let it see it (04 R146). A peer's
is free. -/
def State.fetchHalf (s : State) (core ctx : Nat) (code : Tab Nat) (pc : Word64) : State × Except FetchStop (BitVec 16) :=
  if !pointerForm pc then (s, .error { code := 0x1003, addr := pc })
  else
    match s.translate core ctx (virtOf pc) { exec := true } with
    | (s, .error f) => (s, .error { code := f.code, addr := pc })
    | (s, .ok (pa, _)) =>
      if regionOf pa = 2 then ({ s with free := s.free + 1 }, .ok (field 0 16 (Config.freeWord s.free)))
      else
        match (if regionOf pa = 0 then s.fetchErrors core ctx pa pc else s.fetchCheck ctx pa pc) with
        | (s, some e) => (s, .error e)
        | (s, none) => (s, .ok (halfOfBytes (s.codeByte code pa) (s.codeByte code (pa + 1))))

/-- The instruction at a program counter: one halfword, or two, one after the other. -/
def State.fetch (s : State) (core ctx : Nat) (code : Tab Nat) (pc : Word64) : State × Except FetchStop Fetched :=
  match s.fetchHalf core ctx code pc with
  | (s, .error e) => (s, .error e)
  | (s, .ok h) =>
    if h.getLsbD 0 then
      match s.fetchHalf core ctx code (pc + 2) with
      | (s, .error e) => (s, .error e)
      | (s, .ok h1) => (s, .ok (.long (wordOfHalves h h1)))
    else (s, .ok (.short h))

/-- The first group of an issue: it fetches for both of a packed pair. -/
def State.issueGroup (s : State) (is : Issue) : Option Group :=
  match is.sels with
  | [] => none
  | sel :: _ => s.group sel.g

/-- The record of a fetch condition that has one: that of the failing copy, or of the translation fault (18 R433, 19 R446). -/
def FetchStop.report (e : FetchStop) (s : State) (gi : Nat) (g : Group) : Option Report :=
  match e.rep with
  | some r => some { r with info := r.info ||| BitVec.ofNat 16 g.place.gidx }
  | none => if e.code = 0x1003 then none else some (s.groupReport gi g e.code (detail4 e.addr 0 0 0))

/-- A fetch condition stops a bundle with an empty queue, once its older instructions have completed (18 R429); inside a run-on the run-on's trap is taken (18 R431, 19 R443). -/
def State.fetchStop (s : State) (is : Issue) (e : FetchStop) (sel : Sel) : State :=
  match s.group sel.g with
  | none => s
  | some g =>
    match g.runOn sel.bundle with
    | some _ => s.endRunOn sel.g sel.bundle
    | none =>
      if s.unfinished sel.g g sel.bundle then s.holdBack is sel 3
      else s.takeStop sel.g sel.bundle { code := e.code, mask := sel.mask, addr := e.addr, rep := e.report s sel.g g } is.pc []

/-- The fetch of the issuing bundle's instruction fails (19 R443); nothing happens when it does not. -/
def execFetchFault (s : State) : Host.Outcome State Fault Refusal :=
  match s.issue with
  | none => .fault .noIssuingBundle
  | some is =>
    match s.issueGroup is with
    | none => .next { s with issue := none }
    | some g =>
      match s.fetch g.place.core g.place.ctx g.code is.pc with
      | (s, .error e) => .next { is.sels.foldl (fun s sel => (s.fetchStop is e sel).noteUnissued sel.g) s with issue := none }
      | (s, .ok _) => .next { s with issue := none }

/-- TRAPADDR of a reserved encoding: the word, and the check that failed (18 R434). -/
def reservedAddr (w : BitVec 32) (reason : BitVec 4) : Word64 := 0#28 ++ reason ++ w

/-- A word that is no instruction raises 0x1001 as an issue condition (18 R437). -/
def execReservedEncoding (w : BitVec 32) (reason : BitVec 4) (s : State) : Host.Outcome State Fault Refusal :=
  issue
    { use := {}, sw := false
      checks := fun _ _ sel _ => [some { code := 0x1001, mask := sel.mask, addr := reservedAddr w reason }]
      effect := fun _ _ _ s => (s, none) } s

end Sys2Proof.Machine
end

