-- ==== Sys2Proof/Machine/Predicate.lean ====
section
/-! DEFINITION. Compares, predicate logic and votes (09 R267, R268). -/
namespace Sys2Proof.Machine

/-- A compare: two words in, a predicate out (07 R210). -/
def useCmp (d : BitVec 3) (a : BitVec 6) (p : BitVec 2) (b : BitVec 6) (q : BitVec 2) : Use :=
  { vsrc := [{ reg := a.toNat, sel := p.toNat }, { reg := b.toNat, sel := q.toNat }], pdst := [d.toNat], fixed := true }

/-- A predicate computed on each active lane. -/
def predOp (u : Use) (d : BitVec 3) (sw : Bool) (f : LaneIn → Bool) : VecOp :=
  { use := u, sw := sw, writes := fun _ _ ins => ins.map (fun i => .p i.L d.toNat (f i)) }

/-- Predicate logic: one or two predicates in, one out. -/
def usePP (d : BitVec 3) (src : List (BitVec 3)) : Use := { psrc := src.map BitVec.toNat, pdst := [d.toNat], fixed := true }

/-- The first and second predicate operand. -/
def LaneIn.pa (i : LaneIn) : Bool := i.p.getD 0 false
def LaneIn.pb (i : LaneIn) : Bool := i.p.getD 1 false

/-- A vote: one value from the active threads, written to each of them (09 R256, R268). -/
def voteOp (d p : BitVec 3) (sw : Bool) (f : List Bool → Bool) : VecOp :=
  { use := usePP d [p], sw := sw
    writes := fun _ _ ins => ins.map (fun i => .p i.L d.toNat (f (ins.map LaneIn.pa))) }

/-- `ballot` as a vector operation: bit L for each active thread whose predicate is true (09 R268). -/
def ballotOp (p : BitVec 3) (u : BitVec 8) (sw : Bool) : VecOp :=
  { use := { psrc := [p.toNat], sdst := [u.toNat], fixed := true }, sw := sw
    writes := fun _ _ ins => [.s u.toNat (maskOf ((ins.filter LaneIn.pa).map LaneIn.L))] }

/-- `icmp` (07 R217, 09 R267): s32 for ty 0, b32 for ty 1. -/
def execIcmp (d c : BitVec 3) (a : BitVec 6) (p : BitVec 2) (b : BitVec 6) (q : BitVec 2) (t : BitVec 1) (sw : Bool) (s : State) : Host.Outcome State Fault Refusal :=
  issueVector (predOp (useCmp d a p b q) d sw (fun i => icmpW c (t == 1) i.a i.b)) s

/-- `fcmp` (07 R217, 09 R267). -/
def execFcmp (d c : BitVec 3) (a : BitVec 6) (p : BitVec 2) (b : BitVec 6) (q : BitVec 2) (sw : Bool) (s : State) : Host.Outcome State Fault Refusal :=
  issueVector (predOp (useCmp d a p b q) d sw (fun i => fcmpW c i.a i.b)) s

/-- `pand` (09 R268). -/
def execPand (d p q : BitVec 3) (sw : Bool) (s : State) : Host.Outcome State Fault Refusal :=
  issueVector (predOp (usePP d [p, q]) d sw (fun i => i.pa && i.pb)) s

/-- `por` (09 R268). -/
def execPor (d p q : BitVec 3) (sw : Bool) (s : State) : Host.Outcome State Fault Refusal :=
  issueVector (predOp (usePP d [p, q]) d sw (fun i => i.pa || i.pb)) s

/-- `pxor` (09 R268). -/
def execPxor (d p q : BitVec 3) (sw : Bool) (s : State) : Host.Outcome State Fault Refusal :=
  issueVector (predOp (usePP d [p, q]) d sw (fun i => i.pa != i.pb)) s

/-- `pandn` (09 R268). -/
def execPandn (d p q : BitVec 3) (sw : Bool) (s : State) : Host.Outcome State Fault Refusal :=
  issueVector (predOp (usePP d [p, q]) d sw (fun i => i.pa && !i.pb)) s

/-- `pnot` (09 R268). -/
def execPnot (d p : BitVec 3) (sw : Bool) (s : State) : Host.Outcome State Fault Refusal :=
  issueVector (predOp (usePP d [p]) d sw (fun i => !i.pa)) s

/-- `pmov` (09 R268). -/
def execPmov (d p : BitVec 3) (sw : Bool) (s : State) : Host.Outcome State Fault Refusal :=
  issueVector (predOp (usePP d [p]) d sw (fun i => i.pa)) s

/-- `vote.any` (09 R268). -/
def execVoteAny (d p : BitVec 3) (sw : Bool) (s : State) : Host.Outcome State Fault Refusal :=
  issueVector (voteOp d p sw (fun l => l.any id)) s

/-- `vote.all` (09 R268). -/
def execVoteAll (d p : BitVec 3) (sw : Bool) (s : State) : Host.Outcome State Fault Refusal :=
  issueVector (voteOp d p sw (fun l => l.all id)) s

/-- `ballot` (09 R268). -/
def execBallot (p : BitVec 3) (u : BitVec 8) (sw : Bool) (s : State) : Host.Outcome State Fault Refusal :=
  issueVector (ballotOp p u sw) s

end Sys2Proof.Machine
end

