-- ==== Sys2Proof/Machine/Uniform.lean ====
section
/-! DEFINITION. The uniform instructions (08 R241-R245). -/
namespace Sys2Proof.Machine

/-- The operands of a two-address uniform instruction: sd and sb, or sb alone (08 R241). -/
def useUA (d b : BitVec 8) : Use := { ssrc := [d.toNat, b.toNat], sdst := [d.toNat] }
def useU1 (d b : BitVec 8) : Use := { ssrc := [b.toNat], sdst := [d.toNat] }
/-- The operands of an immediate uniform instruction that reads its destination, and of a constant. -/
def useUI (d : BitVec 8) : Use := { ssrc := [d.toNat], sdst := [d.toNat] }
def useUL (d : BitVec 8) : Use := { sdst := [d.toNat] }

/-- A uniform instruction: it executes once per bundle issue and writes sd `n` clocks after it (08 R244, R245). -/
def uniformOp (u : Use) (sw : Bool) (d : BitVec 8) (f : List Word64 → Word64) (n : Nat := 2) : VecOp :=
  { use := u, sw := sw, bound := n, uniform := true
    writes := fun _ _ ins => match ins with
      | i :: _ => [.s d.toNat (f i.s)]
      | [] => [] }

/-- The first and second uniform operand. -/
def arg0 (l : List Word64) : Word64 := l.getD 0 0
def arg1 (l : List Word64) : Word64 := l.getD 1 0

/-- A binary operation on sd and sb. -/
def uaOp (d b : BitVec 8) (sw : Bool) (f : Word64 → Word64 → Word64) (n : Nat := 2) : VecOp :=
  uniformOp (useUA d b) sw d (fun l => f (arg0 l) (arg1 l)) n

/-- A unary operation on sb. -/
def u1Op (d b : BitVec 8) (sw : Bool) (f : Word64 → Word64) : VecOp := uniformOp (useU1 d b) sw d (fun l => f (arg0 l))

/-- An operation on sd and an immediate. -/
def uiOp (d : BitVec 8) (sw : Bool) (f : Word64 → Word64) (n : Nat := 2) : VecOp := uniformOp (useUI d) sw d (fun l => f (arg0 l)) n

/-- A shadowed uniform operation: its result is written after the shadow comparison (21 R493, R495), 4 clocks after its issue (08 R245). -/
def uniformFp (d b : BitVec 8) (sw : Bool) (f : Word32 → Word32 → Word32) : VecOp :=
  { uaOp d b sw (fun x y => zext 64 (f (lowWord x) (lowWord y))) 4 with shadowed := true }

/-- Truth to a uniform value. -/
def ofCond (b : Bool) : Word64 := if b then 1 else 0

/-- `s.add` (08 R241). -/
def execSAdd (d b : BitVec 8) (sw : Bool) (s : State) : Host.Outcome State Fault Refusal :=
  issueVector (uaOp d b sw (fun x y => x + y)) s

/-- `s.sub` (08 R241). -/
def execSSub (d b : BitVec 8) (sw : Bool) (s : State) : Host.Outcome State Fault Refusal :=
  issueVector (uaOp d b sw (fun x y => x - y)) s

/-- `s.mul` (08 R241). -/
def execSMul (d b : BitVec 8) (sw : Bool) (s : State) : Host.Outcome State Fault Refusal :=
  issueVector (uaOp d b sw (fun x y => x * y) 4) s

/-- `s.mulh` (08 R241). -/
def execSMulh (d b : BitVec 8) (sw : Bool) (s : State) : Host.Outcome State Fault Refusal :=
  issueVector (uaOp d b sw (fun x y => BitVec.extractLsb' 64 64 (sext 128 x * sext 128 y)) 4) s

/-- `s.mulhn` (08 R241). -/
def execSMulhn (d b : BitVec 8) (sw : Bool) (s : State) : Host.Outcome State Fault Refusal :=
  issueVector (uaOp d b sw (fun x y => BitVec.extractLsb' 64 64 (zext 128 x * zext 128 y)) 4) s

/-- `s.and` (08 R241). -/
def execSAnd (d b : BitVec 8) (sw : Bool) (s : State) : Host.Outcome State Fault Refusal :=
  issueVector (uaOp d b sw (fun x y => x &&& y)) s

/-- `s.or` (08 R241). -/
def execSOr (d b : BitVec 8) (sw : Bool) (s : State) : Host.Outcome State Fault Refusal :=
  issueVector (uaOp d b sw (fun x y => x ||| y)) s

/-- `s.xor` (08 R241). -/
def execSXor (d b : BitVec 8) (sw : Bool) (s : State) : Host.Outcome State Fault Refusal :=
  issueVector (uaOp d b sw (fun x y => x ^^^ y)) s

/-- `s.shl` (08 R241). -/
def execSShl (d b : BitVec 8) (sw : Bool) (s : State) : Host.Outcome State Fault Refusal :=
  issueVector (uaOp d b sw (fun x y => x <<< (field 0 6 y).toNat)) s

/-- `s.shr` (08 R241). -/
def execSShr (d b : BitVec 8) (sw : Bool) (s : State) : Host.Outcome State Fault Refusal :=
  issueVector (uaOp d b sw (fun x y => x >>> (field 0 6 y).toNat)) s

/-- `s.sar` (08 R241). -/
def execSSar (d b : BitVec 8) (sw : Bool) (s : State) : Host.Outcome State Fault Refusal :=
  issueVector (uaOp d b sw (fun x y => x.sshiftRight (field 0 6 y).toNat)) s

/-- `s.min` (08 R241). -/
def execSMin (d b : BitVec 8) (sw : Bool) (s : State) : Host.Outcome State Fault Refusal :=
  issueVector (uaOp d b sw (fun x y => if y.slt x then y else x)) s

/-- `s.max` (08 R241). -/
def execSMax (d b : BitVec 8) (sw : Bool) (s : State) : Host.Outcome State Fault Refusal :=
  issueVector (uaOp d b sw (fun x y => if x.slt y then y else x)) s

/-- `s.nmin` (08 R241). -/
def execSNmin (d b : BitVec 8) (sw : Bool) (s : State) : Host.Outcome State Fault Refusal :=
  issueVector (uaOp d b sw (fun x y => if y.ult x then y else x)) s

/-- `s.nmax` (08 R241). -/
def execSNmax (d b : BitVec 8) (sw : Bool) (s : State) : Host.Outcome State Fault Refusal :=
  issueVector (uaOp d b sw (fun x y => if x.ult y then y else x)) s

/-- `s.slt` (08 R241). -/
def execSSlt (d b : BitVec 8) (sw : Bool) (s : State) : Host.Outcome State Fault Refusal :=
  issueVector (uaOp d b sw (fun x y => ofCond (x.slt y))) s

/-- `s.sltn` (08 R241). -/
def execSSltn (d b : BitVec 8) (sw : Bool) (s : State) : Host.Outcome State Fault Refusal :=
  issueVector (uaOp d b sw (fun x y => ofCond (x.ult y))) s

/-- `s.seq` (08 R241). -/
def execSSeq (d b : BitVec 8) (sw : Bool) (s : State) : Host.Outcome State Fault Refusal :=
  issueVector (uaOp d b sw (fun x y => ofCond (x == y))) s

/-- `s.divn` (08 R241). -/
def execSDivn (d b : BitVec 8) (sw : Bool) (s : State) : Host.Outcome State Fault Refusal :=
  issueVector (uaOp d b sw (fun x y => if y = 0 then BitVec.allOnes 64 else x / y) 34) s

/-- `s.remn` (08 R241). -/
def execSRemn (d b : BitVec 8) (sw : Bool) (s : State) : Host.Outcome State Fault Refusal :=
  issueVector (uaOp d b sw (fun x y => if y = 0 then x else x % y) 34) s

/-- `s.mov` (08 R241). -/
def execSMov (d b : BitVec 8) (sw : Bool) (s : State) : Host.Outcome State Fault Refusal :=
  issueVector (u1Op d b sw (fun x => x)) s

/-- `s.not` (08 R241). -/
def execSNot (d b : BitVec 8) (sw : Bool) (s : State) : Host.Outcome State Fault Refusal :=
  issueVector (u1Op d b sw (fun x => ~~~x)) s

/-- `s.neg` (08 R241). -/
def execSNeg (d b : BitVec 8) (sw : Bool) (s : State) : Host.Outcome State Fault Refusal :=
  issueVector (u1Op d b sw (fun x => -x)) s

/-- `s.clz` (08 R241). -/
def execSClz (d b : BitVec 8) (sw : Bool) (s : State) : Host.Outcome State Fault Refusal :=
  issueVector (u1Op d b sw (fun x => BitVec.ofNat 64 (clzFrom x 64))) s

/-- `s.popc` (08 R241). -/
def execSPopc (d b : BitVec 8) (sw : Bool) (s : State) : Host.Outcome State Fault Refusal :=
  issueVector (u1Op d b sw (fun x => BitVec.ofNat 64 (popFrom x 64))) s

/-- `s.fadd` (08 R241). -/
def execSFadd (d b : BitVec 8) (sw : Bool) (s : State) : Host.Outcome State Fault Refusal :=
  issueVector (uniformFp d b sw fadd) s

/-- `s.fmul` (08 R241). -/
def execSFmul (d b : BitVec 8) (sw : Bool) (s : State) : Host.Outcome State Fault Refusal :=
  issueVector (uniformFp d b sw fmul) s

/-- `s.addi` (08 R242). -/
def execSAddi (d : BitVec 8) (i : BitVec 12) (sw : Bool) (s : State) : Host.Outcome State Fault Refusal :=
  issueVector (uiOp d sw (fun x => x + sext 64 i)) s

/-- `s.andi` (08 R242). -/
def execSAndi (d : BitVec 8) (i : BitVec 12) (sw : Bool) (s : State) : Host.Outcome State Fault Refusal :=
  issueVector (uiOp d sw (fun x => x &&& sext 64 i)) s

/-- `s.ori` (08 R242). -/
def execSOri (d : BitVec 8) (i : BitVec 12) (sw : Bool) (s : State) : Host.Outcome State Fault Refusal :=
  issueVector (uiOp d sw (fun x => x ||| sext 64 i)) s

/-- `s.xori` (08 R242). -/
def execSXori (d : BitVec 8) (i : BitVec 12) (sw : Bool) (s : State) : Host.Outcome State Fault Refusal :=
  issueVector (uiOp d sw (fun x => x ^^^ sext 64 i)) s

/-- `s.slti` (08 R242). -/
def execSSlti (d : BitVec 8) (i : BitVec 12) (sw : Bool) (s : State) : Host.Outcome State Fault Refusal :=
  issueVector (uiOp d sw (fun x => ofCond (x.slt (sext 64 i)))) s

/-- `s.muli` (08 R242). -/
def execSMuli (d : BitVec 8) (i : BitVec 12) (sw : Bool) (s : State) : Host.Outcome State Fault Refusal :=
  issueVector (uiOp d sw (fun x => x * sext 64 i) 4) s

/-- `s.shli` (08 R242). -/
def execSShli (d : BitVec 8) (i : BitVec 6) (sw : Bool) (s : State) : Host.Outcome State Fault Refusal :=
  issueVector (uiOp d sw (fun x => x <<< i.toNat)) s

/-- `s.shri` (08 R242). -/
def execSShri (d : BitVec 8) (i : BitVec 6) (sw : Bool) (s : State) : Host.Outcome State Fault Refusal :=
  issueVector (uiOp d sw (fun x => x >>> i.toNat)) s

/-- `s.sari` (08 R242). -/
def execSSari (d : BitVec 8) (i : BitVec 6) (sw : Bool) (s : State) : Host.Outcome State Fault Refusal :=
  issueVector (uiOp d sw (fun x => x.sshiftRight i.toNat)) s

/-- `s.li` (08 R243). -/
def execSLi (d : BitVec 8) (i : BitVec 16) (sw : Bool) (s : State) : Host.Outcome State Fault Refusal :=
  issueVector (uniformOp (useUL d) sw d (fun _ => sext 64 i)) s

/-- `s.lih` (08 R243). -/
def execSLih (d : BitVec 8) (i : BitVec 16) (sw : Bool) (s : State) : Host.Outcome State Fault Refusal :=
  issueVector (uiOp d sw (fun x => (x <<< 16) ||| zext 64 i)) s

end Sys2Proof.Machine
end

