-- ==== Sys2Proof/Machine/VectorFloat.lean ====
section
/-! DEFINITION. The floating-point instructions of the vector lanes and cvt (06 R181-R188, 09 R261-R265). -/
namespace Sys2Proof.Machine

/-- `fadd` (09 R261). -/
def execFadd (d a : BitVec 6) (p : BitVec 2) (b : BitVec 6) (q : BitVec 2) (sw : Bool) (s : State) : Host.Outcome State Fault Refusal :=
  issueVector (fpOp (useVV d a p b q) sw (fun i => faddV i.a i.b) (fun i => fadd i.a i.b)) s

/-- `fsub` (09 R261). -/
def execFsub (d a : BitVec 6) (p : BitVec 2) (b : BitVec 6) (q : BitVec 2) (sw : Bool) (s : State) : Host.Outcome State Fault Refusal :=
  issueVector (fpOp (useVV d a p b q) sw (fun i => fsubV i.a i.b) (fun i => fsub i.a i.b)) s

/-- `fmul` (09 R261). -/
def execFmul (d a : BitVec 6) (p : BitVec 2) (b : BitVec 6) (q : BitVec 2) (sw : Bool) (s : State) : Host.Outcome State Fault Refusal :=
  issueVector (fpOp (useVV d a p b q) sw (fun i => fmulV i.a i.b) (fun i => fmul i.a i.b)) s

/-- `fscale` (09 R261). -/
def execFscale (d a : BitVec 6) (p : BitVec 2) (b : BitVec 6) (q : BitVec 2) (sw : Bool) (s : State) : Host.Outcome State Fault Refusal :=
  issueVector (fpOp (useVV d a p b q) sw (fun i => fscaleV i.a i.b) (fun i => fscaleW i.a i.b)) s

/-- `fmad` (09 R261): rne(d + a * b), fused. -/
def execFmad (d a : BitVec 6) (p : BitVec 2) (b : BitVec 6) (q : BitVec 2) (sw : Bool) (s : State) : Host.Outcome State Fault Refusal :=
  issueVector (fpOp (useVVd d a p b q) sw (fun i => ffmaV i.a i.b i.c) (fun i => ffma i.a i.b i.c)) s

/-- `faddmin` (09 R261): fmin(d, rne(a + b)). -/
def execFaddmin (d a : BitVec 6) (p : BitVec 2) (b : BitVec 6) (q : BitVec 2) (sw : Bool) (s : State) : Host.Outcome State Fault Refusal :=
  issueVector (fpOp (useVVd d a p b q) sw (fun i => faddminV i.a i.b i.c) (fun i => fminW i.c (fadd i.a i.b))) s

/-- `fmin` (06 R185). -/
def execFmin (d a : BitVec 6) (p : BitVec 2) (b : BitVec 6) (q : BitVec 2) (sw : Bool) (s : State) : Host.Outcome State Fault Refusal :=
  issueVector (vvOp (useVV d a p b q) sw fminW) s

/-- `fmax` (06 R185). -/
def execFmax (d a : BitVec 6) (p : BitVec 2) (b : BitVec 6) (q : BitVec 2) (sw : Bool) (s : State) : Host.Outcome State Fault Refusal :=
  issueVector (vvOp (useVV d a p b q) sw fmaxW) s

/-- `fadd` with a uniform operand (09 R261). -/
def execFaddVs (d a : BitVec 6) (p : BitVec 2) (u : BitVec 8) (sw : Bool) (s : State) : Host.Outcome State Fault Refusal :=
  issueVector (fpOp (useVS d a p u) sw (fun i => faddV i.a i.u) (fun i => fadd i.a i.u)) s

/-- `fmul` with a uniform operand (09 R261). -/
def execFmulVs (d a : BitVec 6) (p : BitVec 2) (u : BitVec 8) (sw : Bool) (s : State) : Host.Outcome State Fault Refusal :=
  issueVector (fpOp (useVS d a p u) sw (fun i => fmulV i.a i.u) (fun i => fmul i.a i.u)) s

/-- `fmad` with a uniform operand (09 R261). -/
def execFmadVs (d a : BitVec 6) (p : BitVec 2) (u : BitVec 8) (sw : Bool) (s : State) : Host.Outcome State Fault Refusal :=
  issueVector (fpOp (useVSd d a p u) sw (fun i => ffmaV i.a i.u i.b) (fun i => ffma i.a i.u i.b)) s

/-- `faddmin` with a uniform operand (09 R261). -/
def execFaddminVs (d a : BitVec 6) (p : BitVec 2) (u : BitVec 8) (sw : Bool) (s : State) : Host.Outcome State Fault Refusal :=
  issueVector (fpOp (useVSd d a p u) sw (fun i => faddminV i.a i.u i.b) (fun i => fminW i.b (fadd i.a i.u))) s

/-- `ffma` (09 R260): rne(a * b + c), fused. -/
def execFfma (d a b c : BitVec 6) (sw : Bool) (s : State) : Host.Outcome State Fault Refusal :=
  issueVector (fpOp (useV4 d a b c) sw (fun i => ffmaV i.a i.b i.c) (fun i => ffma i.a i.b i.c)) s

/-- `dadd` (09 R262). -/
def execDadd (d a : BitVec 6) (p : BitVec 2) (b : BitVec 6) (q : BitVec 2) (sw : Bool) (s : State) : Host.Outcome State Fault Refusal :=
  issueVector ({ pairOp (useDD d a p b q) sw (fun i => w64 (f64.addCode (i.d 0).toNat (i.d 2).toNat)) with shadowed := true, bound := 8 }) s

/-- `dmul` (09 R262). -/
def execDmul (d a : BitVec 6) (p : BitVec 2) (b : BitVec 6) (q : BitVec 2) (sw : Bool) (s : State) : Host.Outcome State Fault Refusal :=
  issueVector ({ pairOp (useDD d a p b q) sw (fun i => w64 (f64.mulCode (i.d 0).toNat (i.d 2).toNat)) with shadowed := true, bound := 8 }) s

/-- `dmad` (09 R262): rne(D + A * B), fused. -/
def execDmad (d a : BitVec 6) (p : BitVec 2) (b : BitVec 6) (q : BitVec 2) (sw : Bool) (s : State) : Host.Outcome State Fault Refusal :=
  issueVector ({ pairOp (useDDd d a p b q) sw (fun i => w64 (f64.fmaCode (i.d 0).toNat (i.d 2).toNat (i.d 4).toNat)) with shadowed := true, bound := 8 }) s

/-- `dmin` (09 R262). -/
def execDmin (d a : BitVec 6) (p : BitVec 2) (b : BitVec 6) (q : BitVec 2) (sw : Bool) (s : State) : Host.Outcome State Fault Refusal :=
  issueVector ({ pairOp (useDD d a p b q) sw (fun i => w64 (f64.minCode (i.d 0).toNat (i.d 2).toNat)) with bound := 8 }) s

/-- `bfadd2` (09 R263). -/
def execBfadd2 (d a : BitVec 6) (p : BitVec 2) (b : BitVec 6) (q : BitVec 2) (sw : Bool) (s : State) : Host.Outcome State Fault Refusal :=
  issueVector ({ vvOp (useVV d a p b q) sw (halves bf16.addCode) with shadowed := true }) s

/-- `bfmul2` (09 R263). -/
def execBfmul2 (d a : BitVec 6) (p : BitVec 2) (b : BitVec 6) (q : BitVec 2) (sw : Bool) (s : State) : Host.Outcome State Fault Refusal :=
  issueVector ({ vvOp (useVV d a p b q) sw (halves bf16.mulCode) with shadowed := true }) s

/-- `bfmad2` (09 R263): d + a * b per element, fused. -/
def execBfmad2 (d a : BitVec 6) (p : BitVec 2) (b : BitVec 6) (q : BitVec 2) (sw : Bool) (s : State) : Host.Outcome State Fault Refusal :=
  issueVector ({ vvdOp (useVVd d a p b q) sw (halves3 bf16.fmaCode) with shadowed := true }) s

/-- `bfmax2` (09 R263). -/
def execBfmax2 (d a : BitVec 6) (p : BitVec 2) (b : BitVec 6) (q : BitVec 2) (sw : Bool) (s : State) : Host.Outcome State Fault Refusal :=
  issueVector (vvOp (useVV d a p b q) sw (halves bf16.maxOf)) s

/-- `hadd2` (09 R263). -/
def execHadd2 (d a : BitVec 6) (p : BitVec 2) (b : BitVec 6) (q : BitVec 2) (sw : Bool) (s : State) : Host.Outcome State Fault Refusal :=
  issueVector ({ vvOp (useVV d a p b q) sw (halves f16.addCode) with shadowed := true }) s

/-- `hmul2` (09 R263). -/
def execHmul2 (d a : BitVec 6) (p : BitVec 2) (b : BitVec 6) (q : BitVec 2) (sw : Bool) (s : State) : Host.Outcome State Fault Refusal :=
  issueVector ({ vvOp (useVV d a p b q) sw (halves f16.mulCode) with shadowed := true }) s

/-- `hmad2` (09 R263): d + a * b per element, fused. -/
def execHmad2 (d a : BitVec 6) (p : BitVec 2) (b : BitVec 6) (q : BitVec 2) (sw : Bool) (s : State) : Host.Outcome State Fault Refusal :=
  issueVector ({ vvdOp (useVVd d a p b q) sw (halves3 f16.fmaCode) with shadowed := true }) s

/-- `hmax2` (09 R263). -/
def execHmax2 (d a : BitVec 6) (p : BitVec 2) (b : BitVec 6) (q : BitVec 2) (sw : Bool) (s : State) : Host.Outcome State Fault Refusal :=
  issueVector (vvOp (useVV d a p b q) sw (halves f16.maxOf)) s

/-- `frcp` (09 R264). -/
def execFrcp (d a : BitVec 6) (p : BitVec 2) (sw : Bool) (s : State) : Host.Outcome State Fault Refusal :=
  issueVector (transOp (useVUslow d a p) sw frcpV frcpW) s

/-- `frsq` (09 R264). -/
def execFrsq (d a : BitVec 6) (p : BitVec 2) (sw : Bool) (s : State) : Host.Outcome State Fault Refusal :=
  issueVector (transOp (useVUslow d a p) sw frsqV frsqW) s

/-- `fexp2` (09 R264). -/
def execFexp2 (d a : BitVec 6) (p : BitVec 2) (sw : Bool) (s : State) : Host.Outcome State Fault Refusal :=
  issueVector (transOp (useVUslow d a p) sw fexp2V fexp2W) s

/-- `flog2` (09 R264). -/
def execFlog2 (d a : BitVec 6) (p : BitVec 2) (sw : Bool) (s : State) : Host.Outcome State Fault Refusal :=
  issueVector (transOp (useVUslow d a p) sw flog2V flog2W) s

/-- `fsin` (09 R264). -/
def execFsin (d a : BitVec 6) (p : BitVec 2) (sw : Bool) (s : State) : Host.Outcome State Fault Refusal :=
  issueVector (transOp (useVUslow d a p) sw fsinV fsinW) s

/-- `fcos` (09 R264). -/
def execFcos (d a : BitVec 6) (p : BitVec 2) (sw : Bool) (s : State) : Host.Outcome State Fault Refusal :=
  issueVector (transOp (useVUslow d a p) sw fcosV fcosW) s

/-- `fsqrt` (09 R264). -/
def execFsqrt (d a : BitVec 6) (p : BitVec 2) (sw : Bool) (s : State) : Host.Outcome State Fault Refusal :=
  issueVector ({ fpOp (useVUslow d a p) sw (fun i => fsqrtV i.a) (fun i => fsqrtW i.a) with bound := 24 }) s

/-- `fround` (09 R264). -/
def execFround (d a : BitVec 6) (p : BitVec 2) (r : BitVec 2) (sw : Bool) (s : State) : Host.Outcome State Fault Refusal :=
  issueVector (fpOp (useVU d a p) sw (fun i => froundV (modeOf r) i.a) (fun i => froundW (modeOf r) i.a)) s

/-- `ffract` (09 R264). -/
def execFfract (d a : BitVec 6) (p : BitVec 2) (sw : Bool) (s : State) : Host.Outcome State Fault Refusal :=
  issueVector (fpOp (useVU d a p) sw (fun i => ffractV i.a) (fun i => ffractW i.a)) s

/-- `fclass` (09 R264). -/
def execFclass (d a : BitVec 6) (p : BitVec 2) (sw : Bool) (s : State) : Host.Outcome State Fault Refusal :=
  issueVector (vuOp (useVU d a p) sw fclassW) s

/-- The operands of `cvt`: an f64 source or destination is a pair, and makes the latency variable (07 R219, 09 R255, R265). -/
def useCvt (d a : BitVec 6) (p : BitVec 2) (f e : BitVec 4) : Use :=
  { vsrc := [{ reg := a.toNat, sel := p.toNat, cnt := if f = 11 then 2 else 1 }], vdst := [(d.toNat, if e = 11 then 2 else 1)],
    fixed := f != 11 && e != 11 }

/-- The source of a conversion: one word or a pair. -/
def cvtInput (f : BitVec 4) (i : LaneIn) : Word64 := if f = 11 then i.d 0 else zext 64 i.a

/-- A floating-point type code. -/
def isFloatTy (e : BitVec 4) : Bool :=
  match cvtTy e with
  | .flt _ => true
  | .int _ _ _ _ => false

/-- The value a conversion rounds. -/
def cvtVal (f : BitVec 4) (x : Word64) : FVal :=
  match cvtSource (cvtTy f) x with
  | .inl v => v
  | .inr z => valOfInt z

/-- `cvt` as a vector operation: shadowed with a floating-point destination (21 R493). -/
def cvtOp (d a : BitVec 6) (p : BitVec 2) (f e : BitVec 4) (r : BitVec 2) (sw : Bool) : VecOp :=
  { pairOp (useCvt d a p f e) sw (fun i => cvtWord f e (modeOf r) (cvtInput f i)) with
    shadowed := isFloatTy e
    shadow := if e = 2 then laneShadow (fun i => shadow32 (cvtVal f (cvtInput f i))) else none
    bound := 8 }

/-- `cvt` (06 R188, 09 R265). -/
def execCvt (d a : BitVec 6) (p : BitVec 2) (f e : BitVec 4) (r : BitVec 2) (sw : Bool) (s : State) : Host.Outcome State Fault Refusal :=
  issueVector (cvtOp d a p f e r sw) s

/-- The 16-bit `fadd` (07 R208). -/
def execFadd16 (d b : BitVec 5) (sw : Bool) (s : State) : Host.Outcome State Fault Refusal :=
  issueVector (fpOp (use16 d b) sw (fun i => faddV i.a i.b) (fun i => fadd i.a i.b)) s

/-- The 16-bit `fmul` (07 R208). -/
def execFmul16 (d b : BitVec 5) (sw : Bool) (s : State) : Host.Outcome State Fault Refusal :=
  issueVector (fpOp (use16 d b) sw (fun i => fmulV i.a i.b) (fun i => fmul i.a i.b)) s

/-- The 16-bit `fmin` (07 R208). -/
def execFmin16 (d b : BitVec 5) (sw : Bool) (s : State) : Host.Outcome State Fault Refusal :=
  issueVector (vvOp (use16 d b) sw fminW) s

/-- The 16-bit `fmax` (07 R208). -/
def execFmax16 (d b : BitVec 5) (sw : Bool) (s : State) : Host.Outcome State Fault Refusal :=
  issueVector (vvOp (use16 d b) sw fmaxW) s

end Sys2Proof.Machine
end

