-- ==== Sys2Proof/Machine/Dispatch.lean ====
section
/-! DEFINITION. One arm per instruction or event: a direct call of its meaning. -/
namespace Sys2Proof.Machine

/-- The meaning of an instruction or event. -/
def exec (i : Instr) (s : State) : Host.Outcome State Fault Refusal :=
  match i with
  | .trapqRead g d => Sys2Proof.Machine.execTrapqRead g d s
  | .slottotalRead g d => Sys2Proof.Machine.execSlottotalRead g d s
  | .trapqlenWrite g x => Sys2Proof.Machine.execTrapqlenWrite g x s
  | .ustatUsplitClear g => Sys2Proof.Machine.execUstatUsplitClear g s
  | .uimaskWrite g x => Sys2Proof.Machine.execUimaskWrite g x s
  | .einjWrite g x => Sys2Proof.Machine.execEinjWrite g x s
  | .bundleUnpark g m => Sys2Proof.Machine.execBundleUnpark g m s
  | .vectorWriteback g id bad => Sys2Proof.Machine.execVectorWriteback g id bad s
  | .loadDataReturn g id => Sys2Proof.Machine.execLoadDataReturn g id s
  | .ownershipArrival id => Sys2Proof.Machine.execOwnershipArrival id s
  | .groupAgeingExpiry g => Sys2Proof.Machine.execGroupAgeingExpiry g s
  | .bundleAgeingExpiry g m => Sys2Proof.Machine.execBundleAgeingExpiry g m s
  | .fetchFault => Sys2Proof.Machine.execFetchFault s
  | .registerDeadlock part => Sys2Proof.Machine.execRegisterDeadlock part s
  | .counterSignal ctx ctr => Sys2Proof.Machine.execCounterSignal ctx ctr s
  | .blockDistribute die => Sys2Proof.Machine.execBlockDistribute die s
  | .blockPlace cluster => Sys2Proof.Machine.execBlockPlace cluster s
  | .blockResident blk => Sys2Proof.Machine.execBlockResident blk s
  | .eviction cluster => Sys2Proof.Machine.execEviction cluster s
  | .mxEvictionStop id => Sys2Proof.Machine.execMxEvictionStop id s
  | .groupSaveComplete g => Sys2Proof.Machine.execGroupSaveComplete g s
  | .blockSaveComplete blk => Sys2Proof.Machine.execBlockSaveComplete blk s
  | .groupRestore core => Sys2Proof.Machine.execGroupRestore core s
  | .restoreComplete g => Sys2Proof.Machine.execRestoreComplete g s
  | .groupEnd g => Sys2Proof.Machine.execGroupEnd g s
  | .blockEnd blk => Sys2Proof.Machine.execBlockEnd blk s
  | .releasePerform id => Sys2Proof.Machine.execReleasePerform id s
  | .closeConfirmation core line => Sys2Proof.Machine.execCloseConfirmation core line s
  | .sequenceNumberArrival id => Sys2Proof.Machine.execSequenceNumberArrival id s
  | .stampArrival core id stamp => Sys2Proof.Machine.execStampArrival core id stamp s
  | .reorderCheckerTimeout core id => Sys2Proof.Machine.execReorderCheckerTimeout core id s
  | .intervalRecordArrival line => Sys2Proof.Machine.execIntervalRecordArrival line s
  | .coherenceCheckerTimeout line => Sys2Proof.Machine.execCoherenceCheckerTimeout line s
  | .directoryRecall line => Sys2Proof.Machine.execDirectoryRecall line s
  | .l2LineEviction line => Sys2Proof.Machine.execL2LineEviction line s
  | .pageWalkComplete die ctx page => Sys2Proof.Machine.execPageWalkComplete die ctx page s
  | .tlbInvalidationComplete ctx page => Sys2Proof.Machine.execTlbInvalidationComplete ctx page s
  | .zeroEngineClear page => Sys2Proof.Machine.execZeroEngineClear page s
  | .generationAdvance ctx => Sys2Proof.Machine.execGenerationAdvance ctx s
  | .scaleFill core tensor line => Sys2Proof.Machine.execScaleFill core tensor line s
  | .copyRecordStart core ch => Sys2Proof.Machine.execCopyRecordStart core ch s
  | .copySegmentCredit core ch => Sys2Proof.Machine.execCopySegmentCredit core ch s
  | .mxRendezvous id => Sys2Proof.Machine.execMxRendezvous id s
  | .gangTimeout id => Sys2Proof.Machine.execGangTimeout id s
  | .mxCompletion id bad => Sys2Proof.Machine.execMxCompletion id bad s
  | .iterationDivergedTrap g => Sys2Proof.Machine.execIterationDivergedTrap g s
  | .interruptArrival ctx v x kind sender dev => Sys2Proof.Machine.execInterruptArrival ctx v x kind sender dev s
  | .svcRingAppend g => Sys2Proof.Machine.execSvcRingAppend g s
  | .svcCallNull g => Sys2Proof.Machine.execSvcCallNull g s
  | .svcCallAllocate g => Sys2Proof.Machine.execSvcCallAllocate g s
  | .svcCallLog g => Sys2Proof.Machine.execSvcCallLog g s
  | .svcCallExchangeBuffer g => Sys2Proof.Machine.execSvcCallExchangeBuffer g s
  | .svcCallHost g => Sys2Proof.Machine.execSvcCallHost g s
  | .svcCallReserved g => Sys2Proof.Machine.execSvcCallReserved g s
  | .eventDisposition seq disp => Sys2Proof.Machine.execEventDisposition seq disp s
  | .hostEventEntryWrite => Sys2Proof.Machine.execHostEventEntryWrite s
  | .convoyCompare id => Sys2Proof.Machine.execConvoyCompare id s
  | .convoyTimeout id => Sys2Proof.Machine.execConvoyTimeout id s
  | .convoyRetry id => Sys2Proof.Machine.execConvoyRetry id s
  | .traceSample core => Sys2Proof.Machine.execTraceSample core s
  | .tracePageRetry core => Sys2Proof.Machine.execTracePageRetry core s
  | .traceHoldTimeout core => Sys2Proof.Machine.execTraceHoldTimeout core s
  | .patrolScrub sector => Sys2Proof.Machine.execPatrolScrub sector s
  | .railOn rail => Sys2Proof.Machine.execRailOn rail s
  | .perstDeassert => Sys2Proof.Machine.execPerstDeassert s
  | .functionLevelReset => Sys2Proof.Machine.execFunctionLevelReset s
  | .powerSample watts temp => Sys2Proof.Machine.execPowerSample watts temp s
  | .marginPlan slacks hot => Sys2Proof.Machine.execMarginPlan slacks hot s
  | .voltageStep core => Sys2Proof.Machine.execVoltageStep core s
  | .skewMeasurement offs => Sys2Proof.Machine.execSkewMeasurement offs s
  | .powerlimWrite x => Sys2Proof.Machine.execPowerlimWrite x s
  | .attestationGo x => Sys2Proof.Machine.execAttestationGo x s
  | .certificateChainRequest x => Sys2Proof.Machine.execCertificateChainRequest x s
  | .attestationReportDone => Sys2Proof.Machine.execAttestationReportDone s
  | .firmwareRestore x => Sys2Proof.Machine.execFirmwareRestore x s
  | .firmwareRestoreDone => Sys2Proof.Machine.execFirmwareRestoreDone s
  | .debugStop x => Sys2Proof.Machine.execDebugStop x s
  | .debugResume x => Sys2Proof.Machine.execDebugResume x s
  | .debugRefusedClear => Sys2Proof.Machine.execDebugRefusedClear s
  | .bar0RegisterWrite off x => Sys2Proof.Machine.execBar0RegisterWrite off x s
  | .mqtailWrite q x => Sys2Proof.Machine.execMqtailWrite q x s
  | .mqctlEnable q x => Sys2Proof.Machine.execMqctlEnable q x s
  | .mqHaltedClear q => Sys2Proof.Machine.execMqHaltedClear q s
  | .heqctlEnable x => Sys2Proof.Machine.execHeqctlEnable x s
  | .heqheadWrite x => Sys2Proof.Machine.execHeqheadWrite x s
  | .mailboxNop q => Sys2Proof.Machine.execMailboxNop q s
  | .mailboxWriteInline q => Sys2Proof.Machine.execMailboxWriteInline q s
  | .mailboxWriteBulk q => Sys2Proof.Machine.execMailboxWriteBulk q s
  | .mailboxRead q => Sys2Proof.Machine.execMailboxRead q s
  | .mailboxInterrupt q => Sys2Proof.Machine.execMailboxInterrupt q s
  | .mailboxTaskPost q => Sys2Proof.Machine.execMailboxTaskPost q s
  | .callReply q => Sys2Proof.Machine.execCallReply q s
  | .mapPages q => Sys2Proof.Machine.execMapPages q s
  | .revoke q => Sys2Proof.Machine.execRevoke q s
  | .revokeDrainComplete id => Sys2Proof.Machine.execRevokeDrainComplete id s
  | .dispose q => Sys2Proof.Machine.execDispose q s
  | .exportEntry q => Sys2Proof.Machine.execExportEntry q s
  | .createContext q => Sys2Proof.Machine.execCreateContext q s
  | .destroyContext q => Sys2Proof.Machine.execDestroyContext q s
  | .destroyDrainComplete id => Sys2Proof.Machine.execDestroyDrainComplete id s
  | .traceControl q => Sys2Proof.Machine.execTraceControl q s
  | .interruptConfiguration q => Sys2Proof.Machine.execInterruptConfiguration q s
  | .hostSnoop line => Sys2Proof.Machine.execHostSnoop line s
  | .cxlPortFailure => Sys2Proof.Machine.execCxlPortFailure s
  | .cxlPortRecovery => Sys2Proof.Machine.execCxlPortRecovery s
  | .waylineRemoteAccess dev ctx entry off op size data => Sys2Proof.Machine.execWaylineRemoteAccess dev ctx entry off op size data s
  | .waylineAck id => Sys2Proof.Machine.execWaylineAck id s
  | .remoteRefusal id => Sys2Proof.Machine.execRemoteRefusal id s
  | .waylinePortDown port => Sys2Proof.Machine.execWaylinePortDown port s
  | .waylinePortRetrained port => Sys2Proof.Machine.execWaylinePortRetrained port s
  | .waylineRequestTimeout id => Sys2Proof.Machine.execWaylineRequestTimeout id s
  | .routeTableChange dev ports => Sys2Proof.Machine.execRouteTableChange dev ports s
  | .reservedEncoding w reason => Sys2Proof.Machine.execReservedEncoding w reason s
  | .formatWindowWrite n x => Sys2Proof.Machine.execFormatWindowWrite n x s
  | .cxlWriteAcknowledgement id => Sys2Proof.Machine.execCxlWriteAcknowledgement id s
  | .perstAssert => Sys2Proof.Machine.execPerstAssert s
  | .railOff rail => Sys2Proof.Machine.execRailOff rail s
  | .slotClassification part => Sys2Proof.Machine.execSlotClassification part s
  | .mov16 d b sw => Sys2Proof.Machine.execMov16 d b sw s
  | .iadd16 d b sw => Sys2Proof.Machine.execIadd16 d b sw s
  | .isub16 d b sw => Sys2Proof.Machine.execIsub16 d b sw s
  | .imul16 d b sw => Sys2Proof.Machine.execImul16 d b sw s
  | .and16 d b sw => Sys2Proof.Machine.execAnd16 d b sw s
  | .or16 d b sw => Sys2Proof.Machine.execOr16 d b sw s
  | .xor16 d b sw => Sys2Proof.Machine.execXor16 d b sw s
  | .shl16 d b sw => Sys2Proof.Machine.execShl16 d b sw s
  | .shr16 d b sw => Sys2Proof.Machine.execShr16 d b sw s
  | .sar16 d b sw => Sys2Proof.Machine.execSar16 d b sw s
  | .imin16 d b sw => Sys2Proof.Machine.execImin16 d b sw s
  | .imax16 d b sw => Sys2Proof.Machine.execImax16 d b sw s
  | .fadd16 d b sw => Sys2Proof.Machine.execFadd16 d b sw s
  | .fmul16 d b sw => Sys2Proof.Machine.execFmul16 d b sw s
  | .fmin16 d b sw => Sys2Proof.Machine.execFmin16 d b sw s
  | .fmax16 d b sw => Sys2Proof.Machine.execFmax16 d b sw s
  | .iadd d a p b q sw => Sys2Proof.Machine.execIadd d a p b q sw s
  | .isub d a p b q sw => Sys2Proof.Machine.execIsub d a p b q sw s
  | .imul d a p b q sw => Sys2Proof.Machine.execImul d a p b q sw s
  | .imulh d a p b q sw => Sys2Proof.Machine.execImulh d a p b q sw s
  | .imulhn d a p b q sw => Sys2Proof.Machine.execImulhn d a p b q sw s
  | .iaddsat d a p b q sw => Sys2Proof.Machine.execIaddsat d a p b q sw s
  | .isubsat d a p b q sw => Sys2Proof.Machine.execIsubsat d a p b q sw s
  | .iaddmin d a p b q sw => Sys2Proof.Machine.execIaddmin d a p b q sw s
  | .vAnd d a p b q sw => Sys2Proof.Machine.execVAnd d a p b q sw s
  | .vOr d a p b q sw => Sys2Proof.Machine.execVOr d a p b q sw s
  | .vXor d a p b q sw => Sys2Proof.Machine.execVXor d a p b q sw s
  | .andn d a p b q sw => Sys2Proof.Machine.execAndn d a p b q sw s
  | .shl d a p b q sw => Sys2Proof.Machine.execShl d a p b q sw s
  | .shr d a p b q sw => Sys2Proof.Machine.execShr d a p b q sw s
  | .sar d a p b q sw => Sys2Proof.Machine.execSar d a p b q sw s
  | .rotl d a p b q sw => Sys2Proof.Machine.execRotl d a p b q sw s
  | .imin d a p b q sw => Sys2Proof.Machine.execImin d a p b q sw s
  | .imax d a p b q sw => Sys2Proof.Machine.execImax d a p b q sw s
  | .nmin d a p b q sw => Sys2Proof.Machine.execNmin d a p b q sw s
  | .nmax d a p b q sw => Sys2Proof.Machine.execNmax d a p b q sw s
  | .fadd d a p b q sw => Sys2Proof.Machine.execFadd d a p b q sw s
  | .fsub d a p b q sw => Sys2Proof.Machine.execFsub d a p b q sw s
  | .fmul d a p b q sw => Sys2Proof.Machine.execFmul d a p b q sw s
  | .fmad d a p b q sw => Sys2Proof.Machine.execFmad d a p b q sw s
  | .fmin d a p b q sw => Sys2Proof.Machine.execFmin d a p b q sw s
  | .fmax d a p b q sw => Sys2Proof.Machine.execFmax d a p b q sw s
  | .faddmin d a p b q sw => Sys2Proof.Machine.execFaddmin d a p b q sw s
  | .fscale d a p b q sw => Sys2Proof.Machine.execFscale d a p b q sw s
  | .dadd d a p b q sw => Sys2Proof.Machine.execDadd d a p b q sw s
  | .dmul d a p b q sw => Sys2Proof.Machine.execDmul d a p b q sw s
  | .dmad d a p b q sw => Sys2Proof.Machine.execDmad d a p b q sw s
  | .dmin d a p b q sw => Sys2Proof.Machine.execDmin d a p b q sw s
  | .bfadd2 d a p b q sw => Sys2Proof.Machine.execBfadd2 d a p b q sw s
  | .bfmul2 d a p b q sw => Sys2Proof.Machine.execBfmul2 d a p b q sw s
  | .bfmad2 d a p b q sw => Sys2Proof.Machine.execBfmad2 d a p b q sw s
  | .bfmax2 d a p b q sw => Sys2Proof.Machine.execBfmax2 d a p b q sw s
  | .hadd2 d a p b q sw => Sys2Proof.Machine.execHadd2 d a p b q sw s
  | .hmul2 d a p b q sw => Sys2Proof.Machine.execHmul2 d a p b q sw s
  | .hmad2 d a p b q sw => Sys2Proof.Machine.execHmad2 d a p b q sw s
  | .hmax2 d a p b q sw => Sys2Proof.Machine.execHmax2 d a p b q sw s
  | .iaddVs d a p u sw => Sys2Proof.Machine.execIaddVs d a p u sw s
  | .isubVs d a p u sw => Sys2Proof.Machine.execIsubVs d a p u sw s
  | .imulVs d a p u sw => Sys2Proof.Machine.execImulVs d a p u sw s
  | .iaddminVs d a p u sw => Sys2Proof.Machine.execIaddminVs d a p u sw s
  | .andVs d a p u sw => Sys2Proof.Machine.execAndVs d a p u sw s
  | .orVs d a p u sw => Sys2Proof.Machine.execOrVs d a p u sw s
  | .xorVs d a p u sw => Sys2Proof.Machine.execXorVs d a p u sw s
  | .shlVs d a p u sw => Sys2Proof.Machine.execShlVs d a p u sw s
  | .shrVs d a p u sw => Sys2Proof.Machine.execShrVs d a p u sw s
  | .sarVs d a p u sw => Sys2Proof.Machine.execSarVs d a p u sw s
  | .iminVs d a p u sw => Sys2Proof.Machine.execIminVs d a p u sw s
  | .imaxVs d a p u sw => Sys2Proof.Machine.execImaxVs d a p u sw s
  | .faddVs d a p u sw => Sys2Proof.Machine.execFaddVs d a p u sw s
  | .fmulVs d a p u sw => Sys2Proof.Machine.execFmulVs d a p u sw s
  | .fmadVs d a p u sw => Sys2Proof.Machine.execFmadVs d a p u sw s
  | .faddminVs d a p u sw => Sys2Proof.Machine.execFaddminVs d a p u sw s
  | .iaddi d a p im sw => Sys2Proof.Machine.execIaddi d a p im sw s
  | .andi d a p im sw => Sys2Proof.Machine.execAndi d a p im sw s
  | .ori d a p im sw => Sys2Proof.Machine.execOri d a p im sw s
  | .xori d a p im sw => Sys2Proof.Machine.execXori d a p im sw s
  | .shli d a p im sw => Sys2Proof.Machine.execShli d a p im sw s
  | .shri d a p im sw => Sys2Proof.Machine.execShri d a p im sw s
  | .sari d a p im sw => Sys2Proof.Machine.execSari d a p im sw s
  | .pack2h d a p b q sw => Sys2Proof.Machine.execPack2h d a p b q sw s
  | .bperm d a p b q sw => Sys2Proof.Machine.execBperm d a p b q sw s
  | .fcopysign d a p b q sw => Sys2Proof.Machine.execFcopysign d a p b q sw s
  | .nabsdiff d a p b q sw => Sys2Proof.Machine.execNabsdiff d a p b q sw s
  | .ffma d a b c sw => Sys2Proof.Machine.execFfma d a b c sw s
  | .imad d a b c sw => Sys2Proof.Machine.execImad d a b c sw s
  | .sel d a b c sw => Sys2Proof.Machine.execSel d a b c sw s
  | .bfe d a b c sw => Sys2Proof.Machine.execBfe d a b c sw s
  | .bfi d a b c sw => Sys2Proof.Machine.execBfi d a b c sw s
  | .mov d a p sw => Sys2Proof.Machine.execMov d a p sw s
  | .vNot d a p sw => Sys2Proof.Machine.execVNot d a p sw s
  | .ineg d a p sw => Sys2Proof.Machine.execIneg d a p sw s
  | .iabs d a p sw => Sys2Proof.Machine.execIabs d a p sw s
  | .clz d a p sw => Sys2Proof.Machine.execClz d a p sw s
  | .ctz d a p sw => Sys2Proof.Machine.execCtz d a p sw s
  | .popc d a p sw => Sys2Proof.Machine.execPopc d a p sw s
  | .brev d a p sw => Sys2Proof.Machine.execBrev d a p sw s
  | .fabs d a p sw => Sys2Proof.Machine.execFabs d a p sw s
  | .fneg d a p sw => Sys2Proof.Machine.execFneg d a p sw s
  | .frcp d a p sw => Sys2Proof.Machine.execFrcp d a p sw s
  | .frsq d a p sw => Sys2Proof.Machine.execFrsq d a p sw s
  | .fsqrt d a p sw => Sys2Proof.Machine.execFsqrt d a p sw s
  | .fexp2 d a p sw => Sys2Proof.Machine.execFexp2 d a p sw s
  | .flog2 d a p sw => Sys2Proof.Machine.execFlog2 d a p sw s
  | .fsin d a p sw => Sys2Proof.Machine.execFsin d a p sw s
  | .fcos d a p sw => Sys2Proof.Machine.execFcos d a p sw s
  | .fround d a p r sw => Sys2Proof.Machine.execFround d a p r sw s
  | .ffract d a p sw => Sys2Proof.Machine.execFfract d a p sw s
  | .fclass d a p sw => Sys2Proof.Machine.execFclass d a p sw s
  | .cvt d a p f e r sw => Sys2Proof.Machine.execCvt d a p f e r sw s
  | .movi d im sw => Sys2Proof.Machine.execMovi d im sw s
  | .movhi d im sw => Sys2Proof.Machine.execMovhi d im sw s
  | .movf d im sw => Sys2Proof.Machine.execMovf d im sw s
  | .vredAddS32 v u p sw => Sys2Proof.Machine.execVredAddS32 v u p sw s
  | .vredAddF32 v u p sw => Sys2Proof.Machine.execVredAddF32 v u p sw s
  | .vredMinS32 v u p sw => Sys2Proof.Machine.execVredMinS32 v u p sw s
  | .vredMaxS32 v u p sw => Sys2Proof.Machine.execVredMaxS32 v u p sw s
  | .vredMinB32 v u p sw => Sys2Proof.Machine.execVredMinB32 v u p sw s
  | .vredMaxB32 v u p sw => Sys2Proof.Machine.execVredMaxB32 v u p sw s
  | .vredMinF32 v u p sw => Sys2Proof.Machine.execVredMinF32 v u p sw s
  | .vredMaxF32 v u p sw => Sys2Proof.Machine.execVredMaxF32 v u p sw s
  | .vredAnd v u p sw => Sys2Proof.Machine.execVredAnd v u p sw s
  | .vredOr v u p sw => Sys2Proof.Machine.execVredOr v u p sw s
  | .vredXor v u p sw => Sys2Proof.Machine.execVredXor v u p sw s
  | .rdlane v u sw => Sys2Proof.Machine.execRdlane v u sw s
  | .bcast v u sw => Sys2Proof.Machine.execBcast v u sw s
  | .bcastd v u sw => Sys2Proof.Machine.execBcastd v u sw s
  | .permSet v u sw => Sys2Proof.Machine.execPermSet v u sw s
  | .bxEnc8 v u p sw => Sys2Proof.Machine.execBxEnc8 v u p sw s
  | .bxEnc4 v u p sw => Sys2Proof.Machine.execBxEnc4 v u p sw s
  | .bxDec8 v p sw => Sys2Proof.Machine.execBxDec8 v p sw s
  | .bxDec4 v p sw => Sys2Proof.Machine.execBxDec4 v p sw s
  | .vscanAddS32 d a p e sw => Sys2Proof.Machine.execVscanAddS32 d a p e sw s
  | .vscanAddF32 d a p e sw => Sys2Proof.Machine.execVscanAddF32 d a p e sw s
  | .vscanMinS32 d a p e sw => Sys2Proof.Machine.execVscanMinS32 d a p e sw s
  | .vscanMaxS32 d a p e sw => Sys2Proof.Machine.execVscanMaxS32 d a p e sw s
  | .vscanMinF32 d a p e sw => Sys2Proof.Machine.execVscanMinF32 d a p e sw s
  | .vscanMaxF32 d a p e sw => Sys2Proof.Machine.execVscanMaxF32 d a p e sw s
  | .icmp d c a p b q t sw => Sys2Proof.Machine.execIcmp d c a p b q t sw s
  | .fcmp d c a p b q sw => Sys2Proof.Machine.execFcmp d c a p b q sw s
  | .pand d p q sw => Sys2Proof.Machine.execPand d p q sw s
  | .por d p q sw => Sys2Proof.Machine.execPor d p q sw s
  | .pxor d p q sw => Sys2Proof.Machine.execPxor d p q sw s
  | .pandn d p q sw => Sys2Proof.Machine.execPandn d p q sw s
  | .pnot d p sw => Sys2Proof.Machine.execPnot d p sw s
  | .pmov d p sw => Sys2Proof.Machine.execPmov d p sw s
  | .voteAny d p sw => Sys2Proof.Machine.execVoteAny d p sw s
  | .voteAll d p sw => Sys2Proof.Machine.execVoteAll d p sw s
  | .ballot p u sw => Sys2Proof.Machine.execBallot p u sw s
  | .bra o sw => Sys2Proof.Machine.execBra o sw s
  | .brp p n o sw => Sys2Proof.Machine.execBrp p n o sw s
  | .call o sw => Sys2Proof.Machine.execCall o sw s
  | .sBra o sw => Sys2Proof.Machine.execSBra o sw s
  | .sBrz u o sw => Sys2Proof.Machine.execSBrz u o sw s
  | .sBrnz u o sw => Sys2Proof.Machine.execSBrnz u o sw s
  | .sBrlt u o sw => Sys2Proof.Machine.execSBrlt u o sw s
  | .nop sw => Sys2Proof.Machine.execNop sw s
  | .ret sw => Sys2Proof.Machine.execRet sw s
  | .jmp a sw => Sys2Proof.Machine.execJmp a sw s
  | .exit sw => Sys2Proof.Machine.execExit sw s
  | .yield sw => Sys2Proof.Machine.execYield sw s
  | .gbar sw => Sys2Proof.Machine.execGbar sw s
  | .brk c sw => Sys2Proof.Machine.execBrk c sw s
  | .rdlnk a sw => Sys2Proof.Machine.execRdlnk a sw s
  | .wrlnk a sw => Sys2Proof.Machine.execWrlnk a sw s
  | .sMov d b sw => Sys2Proof.Machine.execSMov d b sw s
  | .sAdd d b sw => Sys2Proof.Machine.execSAdd d b sw s
  | .sSub d b sw => Sys2Proof.Machine.execSSub d b sw s
  | .sMul d b sw => Sys2Proof.Machine.execSMul d b sw s
  | .sMulh d b sw => Sys2Proof.Machine.execSMulh d b sw s
  | .sMulhn d b sw => Sys2Proof.Machine.execSMulhn d b sw s
  | .sAnd d b sw => Sys2Proof.Machine.execSAnd d b sw s
  | .sOr d b sw => Sys2Proof.Machine.execSOr d b sw s
  | .sXor d b sw => Sys2Proof.Machine.execSXor d b sw s
  | .sShl d b sw => Sys2Proof.Machine.execSShl d b sw s
  | .sShr d b sw => Sys2Proof.Machine.execSShr d b sw s
  | .sSar d b sw => Sys2Proof.Machine.execSSar d b sw s
  | .sMin d b sw => Sys2Proof.Machine.execSMin d b sw s
  | .sMax d b sw => Sys2Proof.Machine.execSMax d b sw s
  | .sNmin d b sw => Sys2Proof.Machine.execSNmin d b sw s
  | .sNmax d b sw => Sys2Proof.Machine.execSNmax d b sw s
  | .sSlt d b sw => Sys2Proof.Machine.execSSlt d b sw s
  | .sSltn d b sw => Sys2Proof.Machine.execSSltn d b sw s
  | .sSeq d b sw => Sys2Proof.Machine.execSSeq d b sw s
  | .sNot d b sw => Sys2Proof.Machine.execSNot d b sw s
  | .sNeg d b sw => Sys2Proof.Machine.execSNeg d b sw s
  | .sClz d b sw => Sys2Proof.Machine.execSClz d b sw s
  | .sPopc d b sw => Sys2Proof.Machine.execSPopc d b sw s
  | .sDivn d b sw => Sys2Proof.Machine.execSDivn d b sw s
  | .sRemn d b sw => Sys2Proof.Machine.execSRemn d b sw s
  | .sFadd d b sw => Sys2Proof.Machine.execSFadd d b sw s
  | .sFmul d b sw => Sys2Proof.Machine.execSFmul d b sw s
  | .sAddi d im sw => Sys2Proof.Machine.execSAddi d im sw s
  | .sAndi d im sw => Sys2Proof.Machine.execSAndi d im sw s
  | .sOri d im sw => Sys2Proof.Machine.execSOri d im sw s
  | .sXori d im sw => Sys2Proof.Machine.execSXori d im sw s
  | .sShli d im sw => Sys2Proof.Machine.execSShli d im sw s
  | .sShri d im sw => Sys2Proof.Machine.execSShri d im sw s
  | .sSari d im sw => Sys2Proof.Machine.execSSari d im sw s
  | .sSlti d im sw => Sys2Proof.Machine.execSSlti d im sw s
  | .sMuli d im sw => Sys2Proof.Machine.execSMuli d im sw s
  | .sLi d im sw => Sys2Proof.Machine.execSLi d im sw s
  | .sLih d im sw => Sys2Proof.Machine.execSLih d im sw s
  | .cpyKick d a sw => Sys2Proof.Machine.execCpyKick d a sw s
  | .cpyStage sw => Sys2Proof.Machine.execCpyStage sw s
  | .cpyWp d c sw => Sys2Proof.Machine.execCpyWp d c sw s
  | .cpyCancel d sw => Sys2Proof.Machine.execCpyCancel d sw s
  | .taskPost a sw => Sys2Proof.Machine.execTaskPost a sw s
  | .taskSig a sw => Sys2Proof.Machine.execTaskSig a sw s
  | .gangSet a sw => Sys2Proof.Machine.execGangSet a sw s
  | .gangGet d sw => Sys2Proof.Machine.execGangGet d sw s
  | .xregAcq x sw => Sys2Proof.Machine.execXregAcq x sw s
  | .xregRel sw => Sys2Proof.Machine.execXregRel sw s
  | .xregTry d x sw => Sys2Proof.Machine.execXregTry d x sw s
  | .genPass sw => Sys2Proof.Machine.execGenPass sw s
  | .genCur d sw => Sys2Proof.Machine.execGenCur d sw s
  | .kset k a sw => Sys2Proof.Machine.execKset k a sw s
  | .kget d k sw => Sys2Proof.Machine.execKget d k sw s
  | .scopeSet im q sw => Sys2Proof.Machine.execScopeSet im q sw s
  | .uirqSend d a sw => Sys2Proof.Machine.execUirqSend d a sw s
  | .uirqWait sw => Sys2Proof.Machine.execUirqWait sw s
  | .uirqTake d sw => Sys2Proof.Machine.execUirqTake d sw s
  | .uirqMask d a sw => Sys2Proof.Machine.execUirqMask d a sw s
  | .uirqPend d sw => Sys2Proof.Machine.execUirqPend d sw s
  | .uirqDone a sw => Sys2Proof.Machine.execUirqDone a sw s
  | .svc n sw => Sys2Proof.Machine.execSvc n sw s
  | .trap c sw => Sys2Proof.Machine.execTrap c sw s
  | .rett sw => Sys2Proof.Machine.execRett sw s
  | .tmask sw => Sys2Proof.Machine.execTmask sw s
  | .tunmask sw => Sys2Proof.Machine.execTunmask sw s
  | .rdsr r d sw => Sys2Proof.Machine.execRdsr r d sw s
  | .wrsr r d sw => Sys2Proof.Machine.execWrsr r d sw s
  | .ckpt sw => Sys2Proof.Machine.execCkpt sw s
  | .profMark a sw => Sys2Proof.Machine.execProfMark a sw s
  | .ld d a w o sw => Sys2Proof.Machine.execLd d a w o sw s
  | .st b a w o sw => Sys2Proof.Machine.execSt b a w o sw s
  | .lds d a w o sw => Sys2Proof.Machine.execLds d a w o sw s
  | .sts b a w o sw => Sys2Proof.Machine.execSts b a w o sw s
  | .ldAcq d a w q o sw => Sys2Proof.Machine.execLdAcq d a w q o sw s
  | .ldCon d a w q o sw => Sys2Proof.Machine.execLdCon d a w q o sw s
  | .stRel b a w q o sw => Sys2Proof.Machine.execStRel b a w q o sw s
  | .sLd d a o sw => Sys2Proof.Machine.execSLd d a o sw s
  | .sSt d a o sw => Sys2Proof.Machine.execSSt d a o sw s
  | .atom d a b o sw => Sys2Proof.Machine.execAtom d a b o sw s
  | .atomAcq d a b o q sw => Sys2Proof.Machine.execAtomAcq d a b o q sw s
  | .atomRel d a b o q sw => Sys2Proof.Machine.execAtomRel d a b o q sw s
  | .atomAr d a b o q sw => Sys2Proof.Machine.execAtomAr d a b o q sw s
  | .red r a b o q sw => Sys2Proof.Machine.execRed r a b o q sw s
  | .fence e k sw => Sys2Proof.Machine.execFence e k sw s
  | .barInit a b sw => Sys2Proof.Machine.execBarInit a b sw s
  | .barArrive a b sw => Sys2Proof.Machine.execBarArrive a b sw s
  | .barExpect a b sw => Sys2Proof.Machine.execBarExpect a b sw s
  | .barWait a b sw => Sys2Proof.Machine.execBarWait a b sw s
  | .barTest a b p sw => Sys2Proof.Machine.execBarTest a b p sw s
  | .barStat a b sw => Sys2Proof.Machine.execBarStat a b sw s
  | .bsync sw => Sys2Proof.Machine.execBsync sw s
  | .cacheWb a b x sw => Sys2Proof.Machine.execCacheWb a b x sw s
  | .cacheInv a b x sw => Sys2Proof.Machine.execCacheInv a b x sw s
  | .cachePf a b sw => Sys2Proof.Machine.execCachePf a b sw s
  | .cachePf2 a b sw => Sys2Proof.Machine.execCachePf2 a b sw s
  | .mma d a b sw => Sys2Proof.Machine.execMma d a b sw s
  | .mmaZ d a b sw => Sys2Proof.Machine.execMmaZ d a b sw s
  | .mmaS d b sw => Sys2Proof.Machine.execMmaS d b sw s
  | .mmaF d b sw => Sys2Proof.Machine.execMmaF d b sw s
  | .mpoly d sw => Sys2Proof.Machine.execMpoly d sw s
  | .miter d sw => Sys2Proof.Machine.execMiter d sw s
  | .accZero d sw => Sys2Proof.Machine.execAccZero d sw s
  | .accScale d sw => Sys2Proof.Machine.execAccScale d sw s
  | .accAdd d sw => Sys2Proof.Machine.execAccAdd d sw s
  | .accTr d sw => Sys2Proof.Machine.execAccTr d sw s
  | .accNorm d sw => Sys2Proof.Machine.execAccNorm d sw s
  | .accOut d sw => Sys2Proof.Machine.execAccOut d sw s
  | .accIn d sw => Sys2Proof.Machine.execAccIn d sw s
  | .accLd v sl q f sw => Sys2Proof.Machine.execAccLd v sl q f sw s
  | .accSt v sl q f sw => Sys2Proof.Machine.execAccSt v sl q f sw s

end Sys2Proof.Machine
end

