-- ==== Sys2Proof/Machine/Turn.lean ====
section
/-! DEFINITION. What the machine does next: an event that is due, or the issue of a bundle (02 R33-R35). One step is one event, or one clock of one partition (log 9). -/
namespace Sys2Proof.Machine

/-! ### Events that are due -/

/-- What a group is ready for: the end of its save, its own end, a disposition it could not take while it was saved, a divergence trap. -/
def State.dueGroup (s : State) (e : Nat × Group) : Option Instr :=
  if s.saveReady e.1 e.2 then some (.groupSaveComplete e.1)
  else if s.endReady e.1 e.2 then some (.groupEnd e.1)
  else if (s.escalationOwed e.2).isSome then (s.escalationOwed e.2).map (fun x => .eventDisposition x.1 x.2)
  else if e.2.trap.divergePending && e.2.st == .resident && !e.2.trap.held && !s.partitionStopped e.2.partIndex
      && (e.2.divergeBundle.isSome || e.2.choose.isSome) then some (.iterationDivergedTrap e.1)
  else none

/-- What a block is ready for: the end of its save, its own end. -/
def State.dueBlock (s : State) (e : Nat × Block) : Option Instr :=
  if s.blockSaveReady e.1 e.2 && (s.manifestOf e.1).isSome then some (.blockSaveComplete e.1)
  else if s.blockEndReady e.1 then some (.blockEnd e.1)
  else none

/-- The slot of a group on its core: partition, then row and half (10 R293; DESIGN CHOICE, log 98). -/
def Group.slotOnCore (g : Group) : Nat := 1024 * g.place.part + 2 * g.place.rows.headD 0 + (if g.place.upper then 1 else 0)

/-- The slot of the group of a held release. -/
def State.heldSlot (s : State) (h : Held) : Nat := ((s.group h.g).map Group.slotOnCore).getD 0

/-- The first of a list of releases by slot, the oldest of one slot. -/
def State.firstHeld (s : State) : List Held → Option Held
  | [] => none
  | h :: hs =>
    match s.firstHeld hs with
    | none => some h
    | some k => if s.heldSlot k < s.heldSlot h then some k else some h

/-- A release at a gate that can perform, in ascending partition and group slot. -/
def State.dueRelease (s : State) (e : Nat × Core) : Option Instr := (s.firstHeld (e.2.gate.filter (fun h => s.performable e.1 h))).map (fun h => .releasePerform h.id)

/-- What a convoy is ready for. -/
def State.dueConvoy (s : State) (e : Nat × Convoy) : Option Instr :=
  if s.comparable e.2 then some (.convoyCompare e.1) else if s.retryReady e.2 then some (.convoyRetry e.1) else none

/-- The constructor of a record's kind and request code. -/
def recordEvent (q : Nat) (t : Nat × Nat) : Instr :=
  match t with
  | (1, _) => .mailboxWriteInline q
  | (2, _) => .mailboxWriteBulk q
  | (3, _) => .mailboxRead q
  | (4, _) => .mailboxInterrupt q
  | (5, _) => .mailboxTaskPost q
  | (6, _) => .callReply q
  | (7, 1) => .mapPages q
  | (7, 2) => .revoke q
  | (7, 3) => .dispose q
  | (7, 4) => .exportEntry q
  | (7, 5) => .createContext q
  | (7, 6) => .destroyContext q
  | (7, 7) => .traceControl q
  | (7, 8) => .interruptConfiguration q
  | _ => .mailboxNop q

/-- What a mailbox queue is ready for: its HEAD record, or the end of the request it waits for. -/
def State.dueQueue (s : State) (e : Nat × Mailbox) : Option Instr :=
  match e.2.wait with
  | .none => if s.mailboxReady e.1 then some (recordEvent e.1 (s.recordTag e.1)) else none
  | .revoke pages => if s.pagesBusy pages.contains then none else some (.revokeDrainComplete e.1)
  | .destroy c => if s.contextIdle c then some (.destroyDrainComplete c) else none
  | .acks => none

/-- What the host-facing side is ready for. -/
def State.dueHost (s : State) : Option Instr :=
  if s.host.flr && !s.host.busy then some .functionLevelReset
  else if s.heqReady then some .hostEventEntryWrite
  else s.host.queues.findSome? s.dueQueue

/-- A context that has ended and whose accesses have all performed (13 R372). -/
def State.dueContext (s : State) : Option Instr := (s.ctxs.find? (fun e => !e.2.live && s.contextIdle e.1)).map (fun e => .destroyDrainComplete e.1)

/-- A rendezvous that can complete (11 R306). -/
def State.dueRendezvous (s : State) : Option Instr := (s.mxops.find? (fun e => s.mxReady e.1 e.2)).map (fun e => .mxRendezvous e.1)

/-- A checker's time is over: an event of a core without its stamp, or a line with a record that has not been compared (05 R160, 20 R464). -/
def State.dueChecker (s : State) : Option Instr :=
  (s.cores.findSome? (fun c => (c.2.events.find? (fun e => s.stampLate c.1 e)).map (fun e => .reorderCheckerTimeout c.1 e.id))).or
    ((s.lines.find? (fun e => (s.overdue e.1).isSome)).map (fun e => .coherenceCheckerTimeout e.1))

/-- The first event that is due. The order among them is the model's (log 9). -/
def State.due (s : State) : Option Instr :=
  s.dueChecker.or <| (s.groups.findSome? s.dueGroup).or ((s.blks.findSome? s.dueBlock).or ((s.cores.findSome? s.dueRelease).or ((s.convoys.findSome? s.dueConvoy).or
    (((s.dueHost.or s.dueContext).or s.dueRendezvous).or ((s.busyPartitions.find? s.deadlocked).map .registerDeadlock)))))

/-! ### Clocks -/

/-- The counters of the dies advance once they have started (15 R396). -/
def State.tickDies (s : State) : State :=
  if s.plat.phase.toNat < 3 then s else { s with clk := (List.range 4).foldl (fun c d => Assoc.set d (Assoc.get d c + 1) c) s.clk }

/-- Rendezvous whose clocks count; one that reaches the timeout is reported (11 R307, 19 R458). -/
def State.tickGangs (s : State) : State :=
  let s' := { s with mxops := s.mxops.map (fun (e : Nat × MxOp) => if s.gangCounts e.2 then (e.1, { e.2 with clocks := e.2.clocks + 1 }) else e) }
  s'.push ((s'.mxops.filter (fun e => !e.2.running && decide (Config.gangTimeout ≤ e.2.clocks))).map (fun e => .gangTimeout e.1))

/-- Convoys whose oldest entry waits; one that reaches the timeout is reported (21 R513). -/
def State.tickConvoys (s : State) : State :=
  let s' := { s with convoys := s.convoys.map (fun (e : Nat × Convoy) => if s.convoyCounts e.2 then (e.1, { e.2 with clocks := e.2.clocks + 1 }) else e) }
  s'.push ((s'.convoys.filter (fun e => !e.2.held.isEmpty && decide (Config.gangTimeout ≤ e.2.clocks))).map (fun e => .convoyTimeout e.1))

/-- One clock of the dies, gangs and convoys. -/
def State.tickClocks (s : State) : State := s.tickDies.tickGangs.tickConvoys

/-- The end of a clock: the partitions that did not issue count it, every partition has a turn again, and bundles that were turned away may try again (02
R34). -/
def State.endClock (s : State) : State :=
  let s := (s.classifyFrom (fun _ => true)).tickClocks
  { s with clocks := s.clocks + 1, turn := 0, groups := s.groups.map (fun (e : Nat × Group) => (e.1, e.2.wakeTurned)) }

/-! ### Issue -/

/-- What a step is: an instruction or event to run on a state, or a state already reached. -/
inductive Planned where
  | run (i : Instr) (s : State)
  | issue (k : Nat) (i : Instr) (s : State)   -- partition `k` issues `i`
  | done (s : State)
deriving DecidableEq, Repr

/-- The share of a group in an issue: for an entry, the lanes not done. -/
def Work.sel (gi : Nat) (w : Work) : Sel :=
  { g := gi, bundle := w.mask, mask := match w.entry with
    | some e => e.mask &&& ~~~e.done &&& w.mask
    | none => w.mask }

/-- An entry leaves the head of its list as it issues. -/
def Group.takeEntry (g : Group) (w : Work) : Group :=
  match w.entry with
  | none => g
  | some e =>
    if g.flow.inject.head? = some e && g.flow.injectMask == w.mask then
      { g with flow := { g.flow with inject := g.flow.inject.tail, injectMask := if g.flow.inject.tail.isEmpty then 0 else g.flow.injectMask } }
    else { g with flow := { g.flow with reissue := g.flow.reissue.erase (w.mask, e) } }

/-- A bundle goes to issue: the partitions that the turn passes over issue nothing on this clock, an entry leaves its queue, and threads that were turned
away try again. -/
def State.begin (s : State) (k : Nat) (l : List (Nat × Work)) : State :=
  let s := s.classifyFrom (fun j => j < k)
  let s := l.foldl (fun s x => s.modGroup x.1 (fun g => (g.takeEntry x.2).modLanes (x.2.mask &&& g.which Thread.turned) (fun _ t => { t with wait := .none }))) s
  { s with turn := k, unissued := [] }

/-- The access that an armed watchpoint stopped has been made: later ones of its threads are compared again (15 R402). -/
def Group.comparesAgain (g : Group) (B : Mask) : Group := { g with flow := { g.flow with skipWatch := g.flow.skipWatch &&& ~~~B } }

/-- What an issue counts (02 R34, R35, 15 R395), once it is known which groups issued: ageing, the slot, and the partition's turn. `before` is the state
at which partition `k` chose. A partition none of whose groups issued has its turn again. -/
def State.account (before : State) (k : Nat) (sels : List Sel) (after : State) : State :=
  let l := sels.filter (fun x => !after.unissued.contains x.g)
  let s := { after with unissued := [] }
  if l.isEmpty then s
  else
    let n := s.nextId
    let s := ((before.residents k).filter (fun e => e.2.choose.isSome && sels.all (fun x => x.g != e.1))).foldl (fun s e => s.modGroup e.1 Group.noteWait) s
    let s := l.foldl (fun s x => s.modGroup x.g (fun g => ((match before.group x.g with
      | some b => g.noteOthers (b.othersThan x.bundle)
      | none => g).noteIssue x.bundle n).comparesAgain x.bundle)) s
    let leaf := if 2 ≤ l.length then 2 else ((l.head?.bind (fun x => (before.group x.g).map (fun g => if x.bundle &&& g.live = g.live then 0 else 1))).getD 0)
    { s.bumpId.modPart k (fun p => p.count leaf) with turn := k + 1 }

/-- The refused remote stores of a bundle: its threads, and the pointer of the lowest (20 R484). -/
def Group.refused (g : Group) (B : Mask) : Option (Mask × Word64) :=
  let l := g.flow.refusals.filter (fun r => r.1 &&& B != 0)
  let m := (l.foldl (fun m r => m ||| r.1) 0) &&& B
  if l.isEmpty then none else some (m, ((l.find? (fun r => r.1.getLsbD (lowestOf m))).map Prod.snd).getD 0)

/-- The trap of a refused store at the next issue of its bundle; a run-on ends first. -/
def State.takeRefusal (s : State) (gi : Nat) (g : Group) (w : Work) (r : Mask × Word64) : State :=
  if (g.runOn w.mask).isSome then s.endRunOn gi w.mask
  else
    (s.modGroup gi (fun g => { g with flow := { g.flow with refusals := g.flow.refusals.filter (fun x => x.1 &&& w.mask == 0) } })).takeStop gi w.mask
      { code := 0x2D01, mask := r.1, addr := r.2 } w.pc []

/-- The instruction that a decoded word stands for. -/
def decodedInstr (d : Decoded) (word : BitVec 32) : Instr :=
  match d with
  | .instr i => i
  | .reserved r => .reservedEncoding word r

/-- The issue of a bundle with what was fetched, or with the entry it re-injects. -/
noncomputable def State.runFetched (s : State) (k : Nat) (sels : List Sel) (pc : Word64) (f : Fetched) (replay : Option ReplayEntry) : Planned :=
  .issue k (decodedInstr f.decode f.word)
    { s with issue := some { sels := sels, pc := pc, word := f.word, short := f.size == 2, replay := replay } }

/-- The word of an entry. -/
def ReplayEntry.fetched (e : ReplayEntry) : Fetched := if e.short then .short (e.word.setWidth 16) else .long e.word

/-- A vector or MX instruction (07 R207, R214). -/
def paced : Fetched → Bool
  | .short _ => true
  | .long w => decide ((field 2 6 w).toNat ≤ 0x23) || field 2 6 w == 0x3E

/-- While THROTTLE is set a partition refuses a vector or MX instruction on one clock of four (16 R408): the last (DESIGN CHOICE, log 14). -/
def State.refuses (s : State) (f : Fetched) : Bool := s.plat.throttle && s.clocks % 4 == 3 && paced f

/-- A partition that refuses an instruction: its clock counts as leaf 8 (16 R408). -/
def State.passTurn (s : State) (k : Nat) : State := { (s.classifyFrom (fun j => j < k)).modPart k (fun p => p.count 8) with turn := k + 1 }

/-- A bundle issues: an entry of its queue, or the instruction at its PC (02 R33, 12 R346, 19 R443). -/
noncomputable def State.planIssue (s : State) (k gi : Nat) (g : Group) (w : Work) : Planned :=
  match w.entry, g.refused w.mask with
  | some e, _ => if s.refuses e.fetched then .done (s.passTurn k) else (s.begin k [(gi, w)]).runFetched k [w.sel gi] e.pc e.fetched (some e)
  | none, some r => .done (s.takeRefusal gi g w r)
  | none, none =>
    let l := s.issuedWith k gi g w
    let t := s.begin k l
    let sels := l.map (fun x => x.2.sel x.1)
    match t.fetch g.place.core g.place.ctx g.code w.pc with
    | (_, .error _) => .issue k .fetchFault { t with issue := some { sels := sels, pc := w.pc, word := 0, short := false } }
    | (t, .ok f) => if s.refuses f then .done (s.passTurn k) else t.runFetched k sels w.pc f none

/-- The first completion that is due, and the state without it. -/
def State.dueLate (s : State) : Option (Instr × State) :=
  (s.late.find? (fun e => e.1 ≤ s.clocks)).map (fun e => (e.2, { s with late := s.late.erase e }))

/-- A group with a run-on that has ended and whose instructions have completed. -/
def State.dueTrap (s : State) : Option Nat :=
  (s.groups.find? (fun e => e.2.st == .resident && e.2.flow.runOns.any (fun r => r.ended && s.runOnDone e.1 e.2 r))).map Prod.fst

/-- What the next step is: the oldest event of the agenda, one that is due, a completion whose clock has come, the trap of a run-on, an issue, else the
end of the clock. -/
noncomputable def State.plan (s : State) : Planned :=
  match s.agenda with
  | i :: is => .run i { s with agenda := is }
  | [] =>
    match s.due with
    | some i => .run i s
    | none =>
      match s.dueLate, s.dueTrap, s.nextPartition with
      | some (i, t), _, _ => .run i t
      | none, some gi, _ => .done (s.settleEnded gi)
      | none, none, none => .done s.endClock
      | none, none, some k =>
        match s.nextOn k with
        | none => .done s.endClock
        | some (gi, g, w) => s.planIssue k gi g w

/-! ### Placing an instruction for the next step -/

/-- The group that runs a placed instruction: 16 threads of a gang-capable handler role, at virtual address 0x10000. -/
def placedGroup : Group :=
  { place := { ctx := 1, base := 64, ucount := 160, gangCapable := true, handler := true, entry := 0x10000, vec := 0x20000, record := 0x500000 }
    threads := List.replicate 16 { pc := 0x10000 } }

/-- Its manifest: one block of one group, with a scratchpad unit, slabs and barrier objects. -/
def placedManifest : Manifest :=
  { gx := 1, gy := 1, gz := 1, units := 1, slabs := 8, objects := 8, cores := 1, slack := 0, waybill := 0
    roles := [{ wcode := 1, groups := 1, base := 64, xmax := 0, gang := true, handler := true, paired := false, redundant := false, ucount := 160, entry := 0x10000,
                vec := 0x20000 }] }

/-- Page tables that map virtual page 16 to the page at 0x403000, readable, writable and executable. -/
def placedTables (m : Assoc 8) : Assoc 8 :=
  storeBytes (storeBytes (storeBytes (storeBytes (m.filter (fun e => e.1 < 0x200000 || 0x600000 ≤ e.1)) 0x200000 8 0x400001) 0x400000 8 0x401001) 0x401000 8 0x402001)
    0x402080 8 0x40300F

/-- A booted module whose next step fetches and runs the instruction of the given bytes: context 1 with one resident block of one group, and nothing else at work. -/
def State.placeWord (s : State) (w : Nat) : State :=
  { s with
    issue := none
    agenda := []
    late := []
    turn := 0
    groups := [(0, placedGroup)]
    mem := storeBytes (placedTables s.mem) 0x403000 4 w
    ctxs := Tab.put 1 { table := 0x200000, saveBase := 0x500000, saveSize := 0x100000 } s.ctxs
    blks := [(0, { ctx := 1, launch := 0, bx := 0, byy := 0, bz := 0, st := .resident, parts := [{ core := 0 }] })]
    launches := [(0, { ctx := 1, slot := 0, manifestAddr := 0x10000, man := placedManifest, params := List.replicate 15 0, signal := none, dealt := 1 })]
    parts := []
    dies := []
    cores := []
    oldCode := []
    sectors := s.sectors.filter (fun e => e.1 < 0x8000 || 0x18000 ≤ e.1)
    lines := s.lines.filter (fun e => e.1 < 0x2000 || 0x6000 ≤ e.1)
    convoys := []
    mxops := []
    host := { s.host with queues := [], heqHeld := [], flr := false }
    dbg := {}
    plat := { s.plat with rails := [0, 1, 2, 3], misordered := false, perst := false, phase := 5, ready := true, hot := false } }

end Sys2Proof.Machine
end

