-- ==== Sys2Proof/Machine/Step.lean ====
section
/-! DEFINITION. The step function. -/
namespace Sys2Proof.Machine

/-- The bundles of the instruction being issued. -/
def State.issuing (s : State) : List Sel := (s.issue.map (·.sels)).getD []

/-- After a step: what it did to traced groups is recorded (15 R399), and what it changed of the contexts stands in their pages (13 R371). -/
def State.afterStep (before after : State) : State := before.keepImages (before.traceStep after)

/-- One step: the planned event or instruction runs, and what follows from what it did. -/
noncomputable def step (s : State) : Host.Outcome State Fault Refusal :=
  match s.plan with
  | .done t => .next (s.afterStep t)
  | .run i t =>
    match exec i t with
    | .next u => .next (s.afterStep u)
    | .fault f => .fault f
    | .refused r => .refused r
  | .issue k i t =>
    match exec i t with
    | .next u => .next (s.afterStep (s.account k t.issuing u))
    | .fault f => .fault f
    | .refused r => .refused r

/-- `s` with an instruction placed so that the very next step fetches and runs it (log 42). -/
def State.withFetchWord (s : State) (nbits w : Nat) : State := s.placeWord (w % 2 ^ nbits)

end Sys2Proof.Machine
end

