-- ==== Sys2Proof/Safety.lean ====
section
/-! DEFINITION. What a safe run is, and the terms the statements are made in: a bundle that issues, and what an instruction that is performed leaves
alone. -/
namespace Sys2Proof

/-- The machine can take its step. -/
def Safe (s : Machine.State) : Prop := ∃ t, Machine.step s = .next t

namespace Machine

/-- The bundle of one group issues an instruction fetched at its PC on all its threads, and nothing the bundle issued before changes what happens to it: no bad word of
the register bank, no run-on, no unanswered request to a peer, no older instruction that would read its registers again (02 R68, 18 R428, R430, 19 R450, 20 R484). -/
structure Issues (s : State) (is : Issue) (sel : Sel) (g : Group) : Prop where
  issuing : s.issue = some is
  alone : is.sels = [sel]
  fresh : is.replay = none
  group : s.group sel.g = some g
  whole : sel.mask = sel.bundle
  lanes : sel.mask ≠ 0#64
  bank : g.flow.regErrors = []
  runOn : g.runOn sel.bundle = none
  peers : ∀ w ∈ g.flow.watch, w.2.bundle &&& sel.bundle = 0#64
  kept : s.keptRegs sel.g sel.bundle g = []

/-- The registers an instruction names may be read and written: they are within the group's allotments and aligned (18 R434, code 0x1002), no hazard
within the segment (19 R441), and no poisoned source word (18 R434, code 0x100A). -/
structure OperandsOk (g : Group) (sel : Sel) (u : Use) : Prop where
  operands : operandStop g sel.mask u = none
  hazard : hazardStop g sel.bundle u = none
  poison : poisonStop g sel.mask u = none

/-- What is common to every instruction that is performed for the bundle of `sel`: only the group's threads, registers and flow change (and its
restore flag, at a marker: 02 R34), no other group, nothing else of the module but the completions to come, which gain `evs` on one later clock. When the instruction
carries the switch marker and register writes are outstanding, its bundle parks, each of the bundles a branch made of it for its own threads (02 R36, R38). -/
structure Performed (s t : State) (sel : Sel) (g g' : Group) (sw : Bool) (evs : List Instr) : Prop where
  rest : t = { s with groups := t.groups, late := t.late, issue := none }
  group : t.group sel.g = some g'
  others : ∀ k, k ≠ sel.g → t.group k = s.group k
  kept : g' = { g with threads := g'.threads, regs := g'.regs, flow := g'.flow, sched := { g.sched with restore := !sw && g.sched.restore } }
  size : g'.threads.length = g.threads.length
  late : ∃ n, s.clocks < n ∧ t.late = s.late ++ evs.map (fun i => (n, i))
  parked : ∀ L, L < g.threads.length →
    (g'.thread L).parked = ((g.thread L).parked || (sw && g'.pendingOn (g'.beside sel.bundle L) && sel.bundle.getLsbD L))

/-- The thread differs only in whether it is parked, and with whom, and in its bundle's segment write set. -/
def Thread.like (t u : Thread) : Prop := u = { t with parked := u.parked, parkedWith := u.parkedWith, seg := u.seg }

/-- The thread with a new place to stand: it differs in its PC, in whether it is parked, and with whom, and in its bundle's segment write set. -/
def Thread.sameBut (t : Thread) (pc : Word64) (u : Thread) : Prop := u = { t with pc := pc, parked := u.parked, parkedWith := u.parkedWith, seg := u.seg }

/-- Every thread of the group keeps its registers; those of the bundle stand at the next instruction, the others where they stood. -/
def Advanced (is : Issue) (sel : Sel) (g g' : Group) : Prop :=
  ∀ L, L < g.threads.length → (g.thread L).sameBut (if sel.bundle.getLsbD L then is.next else (g.thread L).pc) (g'.thread L)

end Machine
end Sys2Proof
end

