-- ==== Sys2Proof/Safety/Results.lean ====
section
/-! DEFINITION. The tables of results that the statements about the vector and uniform instructions go through: the instruction, the registers it names, and
what chapters 08 and 09 of the specification say it computes, written in integers where the specification does. -/
namespace Sys2Proof.Machine

/-- A row: an instruction that writes its results later (02 R38), the registers it names, and its writes from the operands of the active lanes.
`injects`: an armed EINJ of kind 7 acts on it (17 R424). `dest`: where the bundle goes on. -/
structure Row where
  instr : Instr
  use : Use
  sw : Bool
  writes : Group → List LaneIn → List RegWrite
  shadowed : Bool := false
  injects : Bool := false
  dest : Issue → Word64 := Issue.next

/-- One word in each active lane, tainted when a value it consumes is (03 R89). -/
def eachLane (r : BitVec 6) (f : LaneIn → Word32) (_ : Group) (ins : List LaneIn) : List RegWrite :=
  ins.map (fun i => .v i.L r.toNat (f i) (i.tv.any id) false)

/-- A pair in each active lane, the low word in the lower register (03 R80). -/
def eachPair (r : BitVec 6) (f : LaneIn → Word64) (_ : Group) (ins : List LaneIn) : List RegWrite :=
  ins.flatMap (fun i => [.v i.L r.toNat (lowWord (f i)) (i.tv.any id) false, .v i.L (r.toNat + 1) (highWord (f i)) (i.tv.any id) false])

/-- A predicate in each active lane. -/
def eachPred (d : BitVec 3) (f : LaneIn → Bool) (_ : Group) (ins : List LaneIn) : List RegWrite := ins.map (fun i => .p i.L d.toNat (f i))

/-- The lower 32 bits of an integer. -/
def int32 (x : Int) : Word32 := BitVec.ofInt 32 x

/-- The s32 range (09 R257). -/
def sat32 (x : Int) : Int := min (max x (-2147483648)) 2147483647

/-- The amount of a shift: b[4:0] (09 R257). -/
def amount (b : Word32) : Nat := b.toNat % 32

/-! ### Integer instructions -/

/-- The two-source integer operations (09 R257), as functions of a, b and the old destination. -/
def intTwo : List ((BitVec 6 → BitVec 6 → BitVec 2 → BitVec 6 → BitVec 2 → Bool → Instr) × (Word32 → Word32 → Word32)) :=
  [(.iadd, fun a b => int32 (a.toInt + b.toInt)), (.isub, fun a b => int32 (a.toInt - b.toInt)), (.imul, fun a b => int32 (a.toInt * b.toInt)),
   (.imulh, fun a b => int32 (a.toInt * b.toInt / 2 ^ 32)), (.imulhn, fun a b => int32 ((a.toNat * b.toNat / 2 ^ 32 : Nat) : Int)),
   (.iaddsat, fun a b => int32 (sat32 (a.toInt + b.toInt))), (.isubsat, fun a b => int32 (sat32 (a.toInt - b.toInt))),
   (.vAnd, fun a b => a &&& b), (.vOr, fun a b => a ||| b), (.vXor, fun a b => a ^^^ b), (.andn, fun a b => a &&& ~~~b),
   (.shl, fun a b => a <<< amount b), (.shr, fun a b => a >>> amount b), (.sar, fun a b => int32 (a.toInt / 2 ^ amount b)),
   (.rotl, fun a b => a.rotateLeft (amount b)),
   (.imin, fun a b => int32 (min a.toInt b.toInt)), (.imax, fun a b => int32 (max a.toInt b.toInt)),
   (.nmin, fun a b => BitVec.ofNat 32 (min a.toNat b.toNat)), (.nmax, fun a b => BitVec.ofNat 32 (max a.toNat b.toNat)),
   (.pack2h, fun a b => (a &&& 0xFFFF#32) ||| (b <<< 16)), (.bperm, bpermW),
   (.fcopysign, fun a b => (a &&& 0x7FFFFFFF#32) ||| (b &&& 0x80000000#32)),
   (.nabsdiff, fun a b => BitVec.ofNat 32 (max a.toNat b.toNat - min a.toNat b.toNat))]

/-- Those with a uniform second operand, b = s[sb][31:0] (09 R257). -/
def intUniform : List ((BitVec 6 → BitVec 6 → BitVec 2 → BitVec 8 → Bool → Instr) × (Word32 → Word32 → Word32)) :=
  [(.iaddVs, fun a b => int32 (a.toInt + b.toInt)), (.isubVs, fun a b => int32 (a.toInt - b.toInt)), (.imulVs, fun a b => int32 (a.toInt * b.toInt)),
   (.andVs, fun a b => a &&& b), (.orVs, fun a b => a ||| b), (.xorVs, fun a b => a ^^^ b), (.shlVs, fun a b => a <<< amount b),
   (.shrVs, fun a b => a >>> amount b), (.sarVs, fun a b => int32 (a.toInt / 2 ^ amount b)),
   (.iminVs, fun a b => int32 (min a.toInt b.toInt)), (.imaxVs, fun a b => int32 (max a.toInt b.toInt))]

/-- `iaddmin` (09 R257): min(D, A + B clamped). -/
def addMin (a b d : Word32) : Word32 := int32 (min d.toInt (sat32 (a.toInt + b.toInt)))

/-- The immediate forms (09 R258). -/
def intImm : List ((BitVec 6 → BitVec 6 → BitVec 2 → BitVec 10 → Bool → Instr) × (Word32 → Word32 → Word32)) :=
  [(.iaddi, fun a i => int32 (a.toInt + i.toInt)), (.andi, fun a i => a &&& i), (.ori, fun a i => a ||| i), (.xori, fun a i => a ^^^ i)]

/-- The immediate shifts (09 R258). -/
def intShift : List ((BitVec 6 → BitVec 6 → BitVec 2 → BitVec 5 → Bool → Instr) × (Word32 → Nat → Word32)) :=
  [(.shli, fun a n => a <<< n), (.shri, fun a n => a >>> n), (.sari, fun a n => int32 (a.toInt / 2 ^ n))]

/-- The single-source operations (09 R259), and `fabs` and `fneg` (09 R264). -/
def intOne : List ((BitVec 6 → BitVec 6 → BitVec 2 → Bool → Instr) × (Word32 → Word32)) :=
  [(.mov, fun a => a), (.vNot, fun a => ~~~a), (.ineg, fun a => int32 (-a.toInt)), (.iabs, fun a => int32 a.toInt.natAbs),
   (.clz, fun a => BitVec.ofNat 32 (clzFrom a 32)), (.ctz, fun a => BitVec.ofNat 32 (ctzFrom a 32 0)),
   (.popc, fun a => BitVec.ofNat 32 ((List.range 32).countP (fun k => a.getLsbD k))), (.brev, fun a => a.reverse),
   (.fabs, fun a => a &&& 0x7FFFFFFF#32), (.fneg, fun a => a ^^^ 0x80000000#32)]

/-- Position and length of a bit field (09 R260). -/
def fieldPos (b : Word32) : Nat := b.toNat % 32
def fieldLen (b c : Word32) : Nat := min (c.toNat % 64) (32 - fieldPos b)

/-- The rows of the integer instructions with 32-bit encodings (09 R257-R260, R266). -/
def integerRows (d a b c : BitVec 6) (p q : BitVec 2) (u : BitVec 8) (i10 : BitVec 10) (i5 : BitVec 5) (i16 : BitVec 16) (sw : Bool) : List Row :=
  intTwo.map (fun r => { instr := r.1 d a p b q sw, use := useVV d a p b q, sw := sw, writes := eachLane d (fun i => r.2 i.a i.b) })
  ++ intUniform.map (fun r => { instr := r.1 d a p u sw, use := useVS d a p u, sw := sw, writes := eachLane d (fun i => r.2 i.a i.u) })
  ++ intImm.map (fun r => { instr := r.1 d a p i10 sw, use := useVU d a p, sw := sw, writes := eachLane d (fun i => r.2 i.a (i10.signExtend 32)) })
  ++ intShift.map (fun r => { instr := r.1 d a p i5 sw, use := useVU d a p, sw := sw, writes := eachLane d (fun i => r.2 i.a i5.toNat) })
  ++ intOne.map (fun r => { instr := r.1 d a p sw, use := useVU d a p, sw := sw, writes := eachLane d (fun i => r.2 i.a) })
  ++ [{ instr := .iaddmin d a p b q sw, use := useAddMin d a p b q, sw := sw, writes := eachLane d (fun i => addMin i.a i.b i.c) },
      { instr := .iaddminVs d a p u sw, use := useAddMinVs d a p u, sw := sw, writes := eachLane d (fun i => addMin i.a i.u i.b) },
      { instr := .imad d a b c sw, use := useV4 d a b c, sw := sw, writes := eachLane d (fun i => int32 (i.a.toInt * i.b.toInt + i.c.toInt)) },
      { instr := .bfe d a b c sw, use := useV4 d a b c, sw := sw,
        writes := eachLane d (fun i => BitVec.ofNat 32 (i.a.toNat / 2 ^ fieldPos i.b % 2 ^ fieldLen i.b i.c)) },
      { instr := .bfi d a b c sw, use := useBfi d a b c, sw := sw, writes := eachLane d (fun i => bfiW i.a i.b i.c (i.v.getD 3 0)) },
      { instr := .movi d i16 sw, use := useVL d, sw := sw, writes := eachLane d (fun _ => i16.signExtend 32) },
      { instr := .movhi d i16 sw, use := useVU d d 0, sw := sw, writes := eachLane d (fun i => i16 ++ i.a.extractLsb' 0 16) },
      { instr := .movf d i16 sw, use := useVL d, sw := sw, writes := eachLane d (fun _ => i16 ++ 0#16) }]

/-- `sel` copies the bit pattern and the taint of the source it selects (03 R89, 09 R260). -/
def selRow (d a b : BitVec 6) (c : BitVec 3) (sw : Bool) : Row :=
  { instr := .sel d a b c sw, use := useSel d a b c, sw := sw
    writes := fun _ ins => ins.map (fun i =>
      if i.p.getD 0 false then .v i.L d.toNat i.a (i.tv.getD 0 false) false else .v i.L d.toNat i.b (i.tv.getD 1 false) false) }

/-! ### Floating-point instructions -/

/-- A shadowed binary32 operation, its exact value rounded once to nearest even (06 R186). -/
def fpRow (i : Instr) (u : Use) (sw : Bool) (d : BitVec 6) (v : LaneIn → FVal) : Row :=
  { instr := i, use := u, sw := sw, writes := eachLane d (fun x => round32 (v x)), shadowed := true, injects := true }

/-- A function whose subnormal inputs and results are zeros (06 R184). -/
def transRow (i : Instr) (d a : BitVec 6) (p : BitVec 2) (sw : Bool) (v : Word32 → FVal) : Row :=
  { instr := i, use := useVUslow d a p, sw := sw, writes := eachLane d (fun x => ftz (round32 (v x.a))), shadowed := true, injects := true }

/-- One word per lane. -/
def wordRow (i : Instr) (u : Use) (sw : Bool) (d : BitVec 6) (f : LaneIn → Word32) (sh : Bool) : Row :=
  { instr := i, use := u, sw := sw, writes := eachLane d f, shadowed := sh }

/-- A binary64 result (09 R262). -/
def f64Row (i : Instr) (u : Use) (sw : Bool) (d : BitVec 6) (f : LaneIn → Nat) (sh : Bool) : Row :=
  { instr := i, use := u, sw := sw, writes := eachPair d (fun x => BitVec.ofNat 64 (f x)), shadowed := sh }

/-- The exact value of a binary64 operand: the pair that starts at operand word `j`. -/
def pairVal (i : LaneIn) (j : Nat) : FVal := f64.decode (i.d j).toNat

/-- The rows of the binary32 and binary64 instructions (09 R261, R262, R264). -/
def floatRows (d a b c : BitVec 6) (p q r : BitVec 2) (u : BitVec 8) (sw : Bool) : List Row :=
  [fpRow (.fadd d a p b q sw) (useVV d a p b q) sw d (fun i => faddV i.a i.b),
   fpRow (.fsub d a p b q sw) (useVV d a p b q) sw d (fun i => fsubV i.a i.b),
   fpRow (.fmul d a p b q sw) (useVV d a p b q) sw d (fun i => fmulV i.a i.b),
   fpRow (.fscale d a p b q sw) (useVV d a p b q) sw d (fun i => fscaleV i.a i.b),
   fpRow (.fmad d a p b q sw) (useVVd d a p b q) sw d (fun i => ffmaV i.a i.b i.c),
   fpRow (.faddVs d a p u sw) (useVS d a p u) sw d (fun i => faddV i.a i.u),
   fpRow (.fmulVs d a p u sw) (useVS d a p u) sw d (fun i => fmulV i.a i.u),
   fpRow (.fmadVs d a p u sw) (useVSd d a p u) sw d (fun i => ffmaV i.a i.u i.b),
   fpRow (.ffma d a b c sw) (useV4 d a b c) sw d (fun i => ffmaV i.a i.b i.c),
   fpRow (.fsqrt d a p sw) (useVUslow d a p) sw d (fun i => fsqrtV i.a),
   fpRow (.fround d a p r sw) (useVU d a p) sw d (fun i => froundV (modeOf r) i.a),
   { fpRow (.faddmin d a p b q sw) (useVVd d a p b q) sw d (fun i => faddV i.a i.b) with
     writes := eachLane d (fun i => fminW i.c (round32 (faddV i.a i.b))) },
   { fpRow (.faddminVs d a p u sw) (useVSd d a p u) sw d (fun i => faddV i.a i.u) with
     writes := eachLane d (fun i => fminW i.b (round32 (faddV i.a i.u))) },
   { fpRow (.ffract d a p sw) (useVU d a p) sw d (fun i => ffractV i.a) with
     writes := eachLane d (fun i => BitVec.ofNat 32 (f32.round .rz (ffractV i.a))) },
   transRow (.frcp d a p sw) d a p sw frcpV, transRow (.frsq d a p sw) d a p sw frsqV, transRow (.fexp2 d a p sw) d a p sw fexp2V,
   transRow (.flog2 d a p sw) d a p sw flog2V, transRow (.fsin d a p sw) d a p sw fsinV, transRow (.fcos d a p sw) d a p sw fcosV,
   wordRow (.fmin d a p b q sw) (useVV d a p b q) sw d (fun i => BitVec.ofNat 32 (f32.minCode i.a.toNat i.b.toNat)) false,
   wordRow (.fmax d a p b q sw) (useVV d a p b q) sw d (fun i => BitVec.ofNat 32 (f32.maxOf i.a.toNat i.b.toNat)) false,
   wordRow (.fclass d a p sw) (useVU d a p) sw d (fun i => fclassW i.a) false,
   f64Row (.dadd d a p b q sw) (useDD d a p b q) sw d (fun i => f64.round .rn ((pairVal i 0).add (pairVal i 2))) true,
   f64Row (.dmul d a p b q sw) (useDD d a p b q) sw d (fun i => f64.round .rn ((pairVal i 0).mul (pairVal i 2))) true,
   f64Row (.dmad d a p b q sw) (useDDd d a p b q) sw d (fun i => f64.round .rn (((pairVal i 0).mul (pairVal i 2)).add (pairVal i 4))) true,
   f64Row (.dmin d a p b q sw) (useDD d a p b q) sw d (fun i => f64.minCode (i.d 0).toNat (i.d 2).toNat) false]

/-- Element `e` of a word (06 R183). -/
def element (x : Word32) (e : Nat) : Nat := x.toNat / 2 ^ (16 * e) % 2 ^ 16

/-- Two elements, each computed on its own (09 R263). -/
def twoElements (f : Nat → Nat) : Word32 := BitVec.ofNat 16 (f 1) ++ BitVec.ofNat 16 (f 0)

/-- The rows of a packed format (09 R263). -/
def packedRows (fm : Fmt) (add mul mad mx : BitVec 6 → BitVec 6 → BitVec 2 → BitVec 6 → BitVec 2 → Bool → Instr) (d a b : BitVec 6) (p q : BitVec 2) (sw : Bool) :
    List Row :=
  let x := fun (i : LaneIn) (e : Nat) => fm.decode (element i.a e)
  let y := fun (i : LaneIn) (e : Nat) => fm.decode (element i.b e)
  [wordRow (add d a p b q sw) (useVV d a p b q) sw d (fun i => twoElements (fun e => fm.round .rn ((x i e).add (y i e)))) true,
   wordRow (mul d a p b q sw) (useVV d a p b q) sw d (fun i => twoElements (fun e => fm.round .rn ((x i e).mul (y i e)))) true,
   wordRow (mad d a p b q sw) (useVVd d a p b q) sw d (fun i => twoElements (fun e => fm.round .rn (((x i e).mul (y i e)).add (fm.decode (element i.c e))))) true,
   wordRow (mx d a p b q sw) (useVV d a p b q) sw d (fun i => twoElements (fun e => fm.maxOf (element i.a e) (element i.b e))) false]

/-- `cvt` (06 R183, R188, 09 R265): shadowed towards a floating-point type. -/
def cvtRow (d a : BitVec 6) (p : BitVec 2) (f e : BitVec 4) (r : BitVec 2) (sw : Bool) : Row :=
  { instr := .cvt d a p f e r sw, use := useCvt d a p f e, sw := sw
    writes := if e = 11 then eachPair d (fun i => cvtWord f e (modeOf r) (if f = 11 then i.d 0 else i.a.setWidth 64))
      else eachLane d (fun i => lowWord (cvtWord f e (modeOf r) (if f = 11 then i.d 0 else i.a.setWidth 64)))
    shadowed := e == 2 || e == 3 || e == 4 || e == 5 || e == 6 || (11 : Nat) ≤ e.toNat
    injects := e == 2 }

/-! ### Predicates, votes, reductions, scans, block formats -/

/-- The rows of the compares, of predicate logic and of the votes (09 R267, R268). -/
noncomputable def predicateRows (d p3 q3 c : BitVec 3) (a b : BitVec 6) (p q : BitVec 2) (ty : BitVec 1) (u : BitVec 8) (sw : Bool) : List Row :=
  [{ instr := .icmp d c a p b q ty sw, use := useCmp d a p b q, sw := sw, writes := eachPred d (fun i => icmpW c (ty == 1) i.a i.b) },
   { instr := .fcmp d c a p b q sw, use := useCmp d a p b q, sw := sw, writes := eachPred d (fun i => fcmpW c i.a i.b) },
   { instr := .pand d p3 q3 sw, use := usePP d [p3, q3], sw := sw, writes := eachPred d (fun i => i.pa && i.pb) },
   { instr := .por d p3 q3 sw, use := usePP d [p3, q3], sw := sw, writes := eachPred d (fun i => i.pa || i.pb) },
   { instr := .pxor d p3 q3 sw, use := usePP d [p3, q3], sw := sw, writes := eachPred d (fun i => i.pa != i.pb) },
   { instr := .pandn d p3 q3 sw, use := usePP d [p3, q3], sw := sw, writes := eachPred d (fun i => i.pa && !i.pb) },
   { instr := .pnot d p3 sw, use := usePP d [p3], sw := sw, writes := eachPred d (fun i => !i.pa) },
   { instr := .pmov d p3 sw, use := usePP d [p3], sw := sw, writes := eachPred d (fun i => i.pa) },
   { instr := .voteAny d p3 sw, use := usePP d [p3], sw := sw, writes := fun g ins => eachPred d (fun _ => ins.any LaneIn.pa) g ins },
   { instr := .voteAll d p3 sw, use := usePP d [p3], sw := sw, writes := fun g ins => eachPred d (fun _ => ins.all LaneIn.pa) g ins },
   { instr := .ballot p3 u sw, use := { psrc := [p3.toNat], sdst := [u.toNat], fixed := true }, sw := sw,
     writes := fun _ ins => [.s u.toNat (maskOf ((ins.filter LaneIn.pa).map LaneIn.L))] }]

/-- The combination in ascending thread index (09 R269), sign- or zero-extended into the uniform register. -/
def reduceRow (i : Instr) (v : BitVec 6) (u : BitVec 8) (p : BitVec 2) (sw sg : Bool) (f : Word32 → Word32 → Word32) (sh : Bool) : Row :=
  { instr := i, use := useVred v u p, sw := sw, shadowed := sh
    writes := fun _ ins => match ins.map LaneIn.a with
      | [] => [.s u.toNat 0]
      | x :: xs => [.s u.toNat (if sg then (xs.foldl f x).signExtend 64 else (xs.foldl f x).setWidth 64)] }

/-- The reductions (09 R269). -/
def reductionRows (v : BitVec 6) (u : BitVec 8) (p : BitVec 2) (sw : Bool) : List Row :=
  [reduceRow (.vredAddS32 v u p sw) v u p sw true (fun x y => x + y) false, reduceRow (.vredAddF32 v u p sw) v u p sw false (fun x y => round32 (faddV x y)) true,
   reduceRow (.vredMinS32 v u p sw) v u p sw true (fun x y => int32 (min x.toInt y.toInt)) false,
   reduceRow (.vredMaxS32 v u p sw) v u p sw true (fun x y => int32 (max x.toInt y.toInt)) false,
   reduceRow (.vredMinB32 v u p sw) v u p sw false (fun x y => BitVec.ofNat 32 (min x.toNat y.toNat)) false,
   reduceRow (.vredMaxB32 v u p sw) v u p sw false (fun x y => BitVec.ofNat 32 (max x.toNat y.toNat)) false,
   reduceRow (.vredMinF32 v u p sw) v u p sw false fminW false, reduceRow (.vredMaxF32 v u p sw) v u p sw false fmaxW false,
   reduceRow (.vredAnd v u p sw) v u p sw false (fun x y => x &&& y) false, reduceRow (.vredOr v u p sw) v u p sw false (fun x y => x ||| y) false,
   reduceRow (.vredXor v u p sw) v u p sw false (fun x y => x ^^^ y) false]

/-- The value a scan leaves with the thread at position `j`: the combination of the values up to it, or before it (09 R270). -/
def scanValue (f : Word32 → Word32 → Word32) (idn : Word32) (ex : Bool) (xs : List Word32) (j : Nat) : Word32 :=
  match xs.take (if ex then j else j + 1) with
  | [] => idn
  | x :: rest => rest.foldl f x

/-- A scan: the result of each active thread, tainted by the values combined into it (03 R89, 09 R270). -/
def scanRow (i : Instr) (d a : BitVec 6) (p : BitVec 2) (e : BitVec 1) (sw : Bool) (f : Word32 → Word32 → Word32) (idn : Word32) (sh : Bool) : Row :=
  { instr := i, use := useVUslow d a p, sw := sw, shadowed := sh, injects := sh
    writes := fun _ ins => ins.zipIdx.map (fun x =>
      .v x.1.L d.toNat (scanValue f idn (e == 1) (ins.map LaneIn.a) x.2)
        (((ins.map (fun i => i.tv.any id)).take (if e == 1 then x.2 else x.2 + 1)).any id) false) }

/-- The scans, with the identities of 09 R270. -/
noncomputable def scanRows (d a : BitVec 6) (p : BitVec 2) (e : BitVec 1) (sw : Bool) : List Row :=
  [scanRow (.vscanAddS32 d a p e sw) d a p e sw (fun x y => x + y) 0 false,
   scanRow (.vscanAddF32 d a p e sw) d a p e sw (fun x y => round32 (faddV x y)) 0 true,
   scanRow (.vscanMinS32 d a p e sw) d a p e sw (fun x y => int32 (min x.toInt y.toInt)) 0x7FFFFFFF#32 false,
   scanRow (.vscanMaxS32 d a p e sw) d a p e sw (fun x y => int32 (max x.toInt y.toInt)) 0x80000000#32 false,
   scanRow (.vscanMinF32 d a p e sw) d a p e sw fminW 0x7F800000#32 false, scanRow (.vscanMaxF32 d a p e sw) d a p e sw fmaxW 0xFF800000#32 false]

/-- The uniform broadcasts and the block formats (09 R271, R274, R275). -/
noncomputable def blockRows (v : BitVec 6) (u : BitVec 8) (p : BitVec 2) (sw : Bool) : List Row :=
  [{ instr := .bcast v u sw, use := useBcast v u 1, sw := sw, writes := eachLane v (fun i => i.u) },
   { instr := .bcastd v u sw, use := useBcast v u 2, sw := sw, writes := eachPair v (fun i => i.s.getD 0 0) },
   { instr := .bxDec8 v p sw, use := useVU v v p, sw := sw, writes := eachLane v (fun i => bxDecW bx8 8 i.a) },
   { instr := .bxDec4 v p sw, use := useVU v v p, sw := sw, writes := eachLane v (fun i => bxDecW bx4 4 i.a) },
   { instr := .bxEnc8 v u p sw, use := useBxEnc v u p, sw := sw, writes := fun _ ins => ins.map (bxEncWrite bx8 4 v u ins) },
   { instr := .bxEnc4 v u p sw, use := useBxEnc v u p, sw := sw, writes := fun _ ins => ins.map (bxEncWrite bx4 2 v u ins) }]

/-- The shadowed uniform instructions (08 R241, 21 R493): rne of the low words. -/
noncomputable def uniformFpRows (d b : BitVec 8) (sw : Bool) : List Row :=
  let row := fun (i : Instr) (f : Word32 → Word32 → FVal) => ({ instr := i, use := useUA d b, sw := sw, shadowed := true
                                                                writes := fun g _ => [.s d.toNat ((round32 (f (lowWord (g.sget d.toNat)) (lowWord (g.sget b.toNat)))).setWidth 64)] } : Row)
  [row (.sFadd d b sw) faddV, row (.sFmul d b sw) fmulV]

/-! ### What a row says -/

/-- The registers a row leaves: USPLIT is set by a uniform write of a bundle that lacks a live thread (02 R40), an injection that acts is disarmed. -/
def Row.regsAfter (r : Row) (g : Group) (sel : Sel) : GroupRegs :=
  { g.regs with
    usplit := g.regs.usplit || (!r.use.sdst.isEmpty && sel.bundle &&& g.live != g.live)
    einj := if r.injects && g.armed 7 && sel.mask.getLsbD (field 0 6 g.regs.einj).toNat then setBit g.regs.einj 63 false else g.regs.einj }

/-- The row's instruction is performed: its results are outstanding and written by VECTOR_WRITEBACK (02 R38, 08 R245, 09 R255); every register
of the group is unchanged until then. -/
def Row.Performs (r : Row) (s : State) (is : Issue) (sel : Sel) (g : Group) : Prop :=
  ∃ t g' o, exec r.instr s = .next t ∧ Performed s t sel g g' r.sw [.vectorWriteback sel.g g.flow.nextId 0]
    ∧ (∀ L, L < g.threads.length → (g.thread L).sameBut (if sel.bundle.getLsbD L then r.dest is else (g.thread L).pc) (g'.thread L))
    ∧ g'.flow = { g.flow with outstanding := g.flow.outstanding ++ [o], nextId := g.flow.nextId + 1 } ∧ g'.regs = r.regsAfter g sel
    ∧ o.id = g.flow.nextId ∧ o.kind = .vector ∧ o.bundle = sel.bundle ∧ o.entry.mask = sel.mask ∧ o.shadowed = r.shadowed
    ∧ o.writes = r.writes g ((maskList sel.mask).map (g.gather r.use none))

/-- The row's instruction completes, for a bundle that issues and registers that may be read and written. -/
def Row.Completes (r : Row) : Prop :=
  ∀ (s : State) (is : Issue) (sel : Sel) (g : Group), Issues s is sel g → OperandsOk g sel r.use → r.Performs s is sel g

/-- An instruction of the uniform pipeline does, while no division runs there (08 R245). -/
def Row.CompletesUniform (r : Row) : Prop :=
  ∀ (s : State) (is : Issue) (sel : Sel) (g : Group), Issues s is sel g → OperandsOk g sel r.use → s.dividing sel.g g.partIndex = false → r.Performs s is sel g

/-! ### Uniform instructions (08 R241-R244) -/

/-- The lower 64 bits of an integer. -/
def int64 (x : Int) : Word64 := BitVec.ofInt 64 x

/-- One when a condition holds, else zero. -/
def truth (p : Prop) [Decidable p] : Word64 := if p then 1 else 0

/-- The binary operations: sd op sb (08 R241). -/
noncomputable def uniformTwo : List ((BitVec 8 → BitVec 8 → Bool → Instr) × (Word64 → Word64 → Word64)) :=
  [(.sAdd, fun x y => int64 (x.toInt + y.toInt)), (.sSub, fun x y => int64 (x.toInt - y.toInt)), (.sMul, fun x y => int64 (x.toInt * y.toInt)),
   (.sMulh, fun x y => int64 (x.toInt * y.toInt / 2 ^ 64)), (.sMulhn, fun x y => int64 ((x.toNat * y.toNat / 2 ^ 64 : Nat) : Int)),
   (.sAnd, fun x y => x &&& y), (.sOr, fun x y => x ||| y), (.sXor, fun x y => x ^^^ y), (.sShl, fun x y => x <<< (y.toNat % 64)),
   (.sShr, fun x y => x >>> (y.toNat % 64)), (.sSar, fun x y => int64 (x.toInt / 2 ^ (y.toNat % 64))),
   (.sMin, fun x y => int64 (min x.toInt y.toInt)), (.sMax, fun x y => int64 (max x.toInt y.toInt)),
   (.sNmin, fun x y => BitVec.ofNat 64 (min x.toNat y.toNat)), (.sNmax, fun x y => BitVec.ofNat 64 (max x.toNat y.toNat)),
   (.sSlt, fun x y => truth (x.toInt < y.toInt)), (.sSltn, fun x y => truth (x.toNat < y.toNat)), (.sSeq, fun x y => truth (x = y)),
   (.sDivn, fun x y => if y = 0 then BitVec.ofNat 64 (2 ^ 64 - 1) else BitVec.ofNat 64 (x.toNat / y.toNat)),
   (.sRemn, fun x y => if y = 0 then x else BitVec.ofNat 64 (x.toNat % y.toNat))]

/-- The unary operations on sb (08 R241). -/
noncomputable def uniformOne : List ((BitVec 8 → BitVec 8 → Bool → Instr) × (Word64 → Word64)) :=
  [(.sMov, fun x => x), (.sNot, fun x => ~~~x), (.sNeg, fun x => int64 (-x.toInt)), (.sClz, fun x => BitVec.ofNat 64 (clzFrom x 64)),
   (.sPopc, fun x => BitVec.ofNat 64 ((List.range 64).countP (fun k => x.getLsbD k)))]

/-- The operations on sd and an immediate (08 R242). -/
noncomputable def uniformImm : List ((BitVec 8 → BitVec 12 → Bool → Instr) × (Word64 → Word64 → Word64)) :=
  [(.sAddi, fun x i => int64 (x.toInt + i.toInt)), (.sAndi, fun x i => x &&& i), (.sOri, fun x i => x ||| i), (.sXori, fun x i => x ^^^ i),
   (.sSlti, fun x i => truth (x.toInt < i.toInt)), (.sMuli, fun x i => int64 (x.toInt * i.toInt))]

/-- The shifts by an immediate (08 R242). -/
noncomputable def uniformShift : List ((BitVec 8 → BitVec 6 → Bool → Instr) × (Word64 → Nat → Word64)) :=
  [(.sShli, fun x n => x <<< n), (.sShri, fun x n => x >>> n), (.sSari, fun x n => int64 (x.toInt / 2 ^ n))]

/-- One uniform register is written: s0 discards it when it lands (03 R79). -/
def once (d : BitVec 8) (f : Group → Word64) (g : Group) (_ : List LaneIn) : List RegWrite := [.s d.toNat (f g)]

/-- The rows of the uniform integer instructions. -/
noncomputable def uniformRows (d b : BitVec 8) (i12 : BitVec 12) (i6 : BitVec 6) (i16 : BitVec 16) (sw : Bool) : List Row :=
  uniformTwo.map (fun r => { instr := r.1 d b sw, use := useUA d b, sw := sw, writes := once d (fun g => r.2 (g.sget d.toNat) (g.sget b.toNat)) })
  ++ uniformOne.map (fun r => { instr := r.1 d b sw, use := useU1 d b, sw := sw, writes := once d (fun g => r.2 (g.sget b.toNat)) })
  ++ uniformImm.map (fun r => { instr := r.1 d i12 sw, use := useUI d, sw := sw, writes := once d (fun g => r.2 (g.sget d.toNat) (i12.signExtend 64)) })
  ++ uniformShift.map (fun r => { instr := r.1 d i6 sw, use := useUI d, sw := sw, writes := once d (fun g => r.2 (g.sget d.toNat) i6.toNat) })
  ++ [{ instr := .sLi d i16 sw, use := useUL d, sw := sw, writes := once d (fun _ => i16.signExtend 64) },
      { instr := .sLih d i16 sw, use := useUI d, sw := sw, writes := once d (fun g => BitVec.ofNat 64 ((g.sget d.toNat).toNat * 2 ^ 16 + i16.toNat)) }]

/-! ### Control transfers (08 R228-R240) -/

/-- A row: an instruction that acts on each thread of its bundle by itself, and what it leaves with thread L. -/
structure TRow where
  instr : Instr
  use : Use
  sw : Bool
  after : Issue → Group → Nat → Thread → Thread

/-- The target of a branch: the PC and the offset in halfwords (07 R213). -/
def target (is : Issue) (off : Int) : Word64 := is.pc + int64 (2 * off)

/-- The pair v[a+1]:v[a] of a thread (03 R80). -/
def Thread.pairAt (t : Thread) (a : BitVec 6) : Word64 := t.vreg (a.toNat + 1) ++ t.vreg a.toNat

/-- The rows of the instructions that write LNK or read it (08 R228, R232): `call` goes to its target, with the address after it in LNK; the link moves pass a thread's LNK
to its pair, with taint and poison clear, or its pair to LNK. -/
noncomputable def linkRows (o18 : BitVec 18) (a : BitVec 6) (sw : Bool) : List (Issue → Row) :=
  [fun is => { instr := .call o18 sw, use := { lnkW := true }, sw := sw, dest := fun is => target is o18.toInt, writes := fun _ ins => ins.map (fun i => .lnk i.L is.next) },
   fun _ => { instr := .rdlnk a sw, use := { vdst := [(a.toNat, 2)], lnkR := true }, sw := sw
              writes := fun g ins => ins.flatMap (fun i => [.v i.L a.toNat (lowWord (g.thread i.L).lnk) false false, .v i.L (a.toNat + 1) (highWord (g.thread i.L).lnk) false false]) },
   fun _ => { instr := .wrlnk a sw, use := { usePair a with lnkW := true }, sw := sw, writes := fun g ins => ins.map (fun i => .lnk i.L ((g.thread i.L).pairAt a)) }]

/-- The rows of the branches (08 R228, R232, R235, R238, R239). -/
noncomputable def controlRows (o18 : BitVec 18) (o14 : BitVec 14) (p : BitVec 3) (n : BitVec 1) (u : BitVec 8) (a : BitVec 6) (sw : Bool) : List TRow :=
  [{ instr := .bra o18 sw, use := {}, sw := sw, after := fun is _ _ t => { t with pc := target is o18.toInt } },
   { instr := .brp p n o18 sw, use := { psrc := [p.toNat] }, sw := sw,
     after := fun is _ _ t => { t with pc := if t.pget p.toNat != (n == 1) then target is o18.toInt else is.next } },
   { instr := .sBra o14 sw, use := {}, sw := sw, after := fun is _ _ t => { t with pc := target is o14.toInt } },
   { instr := .sBrz u o14 sw, use := { ssrc := [u.toNat] }, sw := sw,
     after := fun is g _ t => { t with pc := if g.sget u.toNat = 0 then target is o14.toInt else is.next } },
   { instr := .sBrnz u o14 sw, use := { ssrc := [u.toNat] }, sw := sw,
     after := fun is g _ t => { t with pc := if g.sget u.toNat = 0 then is.next else target is o14.toInt } },
   { instr := .sBrlt u o14 sw, use := { ssrc := [u.toNat] }, sw := sw,
     after := fun is g _ t => { t with pc := if (g.sget u.toNat).toInt < 0 then target is o14.toInt else is.next } },
   { instr := .nop sw, use := {}, sw := sw, after := fun is _ _ t => { t with pc := is.next } },
   { instr := .ret sw, use := { lnkR := true }, sw := sw, after := fun _ _ _ t => { t with pc := t.lnk &&& ~~~1 } },
   { instr := .jmp a sw, use := usePair a, sw := sw, after := fun _ _ _ t => { t with pc := t.pairAt a &&& ~~~1 } },
   { instr := .yield sw, use := {}, sw := true, after := fun is _ _ t => { t with pc := is.next, yielded := true } }]

/-- The row's instruction is performed: each thread of the bundle is left as the row says, the other threads and the group's registers unchanged. -/
def TRow.Completes (r : TRow) : Prop :=
  ∀ (s : State) (is : Issue) (sel : Sel) (g : Group), Issues s is sel g → OperandsOk g sel r.use →
    ∃ t g', exec r.instr s = .next t ∧ Performed s t sel g g' r.sw [] ∧ g'.flow = g.flow ∧ g'.regs = g.regs
      ∧ ∀ L, L < g.threads.length → (if sel.bundle.getLsbD L then r.after is g L (g.thread L) else g.thread L).like (g'.thread L)

end Sys2Proof.Machine
end

