-- ==== Sys2Proof/Safety/Effects.lean ====
section
/-! DEFINITION. Further terms of the statements: what a completed instruction writes, what taking a trap leaves, and the table of the system registers. -/
namespace Sys2Proof.Machine

/-! ### The 16-bit forms (07 R208) -/

/-- Forms 1 to 11 and 14, 15: vd is the first source too. -/
noncomputable def shortTwo : List ((BitVec 5 → BitVec 5 → Bool → Instr) × (Word32 → Word32 → Word32)) :=
  [(.iadd16, fun a b => int32 (a.toInt + b.toInt)), (.isub16, fun a b => int32 (a.toInt - b.toInt)), (.imul16, fun a b => int32 (a.toInt * b.toInt)),
   (.and16, fun a b => a &&& b), (.or16, fun a b => a ||| b), (.xor16, fun a b => a ^^^ b), (.shl16, fun a b => a <<< amount b), (.shr16, fun a b => a >>> amount b),
   (.sar16, fun a b => int32 (a.toInt / 2 ^ amount b)), (.imin16, fun a b => int32 (min a.toInt b.toInt)), (.imax16, fun a b => int32 (max a.toInt b.toInt)),
   (.fmin16, fun a b => BitVec.ofNat 32 (f32.minCode a.toNat b.toNat)), (.fmax16, fun a b => BitVec.ofNat 32 (f32.maxOf a.toNat b.toNat))]

/-- The sixteen forms, on v0-v31 without selectors. -/
noncomputable def shortRows (d b : BitVec 5) (sw : Bool) : List Row :=
  shortTwo.map (fun r => { instr := r.1 d b sw, use := use16 d b, sw := sw, writes := eachLane (zext 6 d) (fun i => r.2 i.a i.b) })
  ++ [{ instr := .mov16 d b sw, use := useVU (zext 6 d) (zext 6 b) 0, sw := sw, writes := eachLane (zext 6 d) (fun i => i.a) },
      fpRow (.fadd16 d b sw) (use16 d b) sw (zext 6 d) (fun i => faddV i.a i.b), fpRow (.fmul16 d b sw) (use16 d b) sw (zext 6 d) (fun i => fmulV i.a i.b)]

/-! ### Register writes -/

/-- The last write of a list to a vector register of a thread: the word, its taint and its poison. -/
def lastV (l : List RegWrite) (L n : Nat) : Option (Word32 × Bool × Bool) :=
  l.foldl (fun r w => match w with
    | .v K m x t p => if K = L ∧ m = n then some (x, t, p) else r
    | _ => r) none

/-- The last write of a list to a predicate of a thread. -/
def lastP (l : List RegWrite) (L n : Nat) : Option Bool :=
  l.foldl (fun r w => match w with
    | .p K m x => if K = L ∧ m = n then some x else r
    | _ => r) none

/-- The last write of a list to a uniform register. -/
def lastS (l : List RegWrite) (n : Nat) : Option Word64 :=
  l.foldl (fun r w => match w with
    | .s m x => if m = n then some x else r
    | _ => r) none

/-- The last write of a list to a coefficient register. -/
def lastK (l : List RegWrite) (n : Nat) : Option Word32 :=
  l.foldl (fun r w => match w with
    | .k m x => if m = n then some x else r
    | _ => r) none

/-- The last write of a list to a thread's LNK. -/
def lastLnk (l : List RegWrite) (L : Nat) : Option Word64 :=
  l.foldl (fun r w => match w with
    | .lnk K x => if K = L then some x else r
    | _ => r) none

/-- The thread, no longer turned away for want of room. -/
def Thread.triesAgain (t : Thread) : Thread := if t.wait = .gate ∧ t.waitOn = 0 then { t with wait := .none } else t

/-- The writes of an outstanding instruction take place (02 R38, 09 R255): each register named holds the last word written to it, with its taint and poison bits (03 R89);
an exited thread keeps its registers (08 R233), s0 and p7 discard writes (03 R79), and a uniform register that a younger instruction has written keeps its value (02 R39); every other register, every PC and trap register is unchanged. The instruction
has left the scoreboard. A thread that was turned away for want of room tries again. -/
structure WrittenBack (g g' : Group) (o : Outstanding) : Prop where
  kept : g' = { g with threads := g'.threads, regs := { g.regs with s := g'.regs.s, sAt := g'.regs.sAt, k := g'.regs.k }, flow := g'.flow }
  flow : g'.flow = { g.flow with outstanding := g.flow.outstanding.filter (fun x => x.id != o.id) }
  size : g'.threads.length = g.threads.length
  thread : ∀ L, L < g.threads.length → ∃ v ta po pr, g'.thread L = { (g.thread L).triesAgain with v := v, taint := ta, poison := po, pred := pr, lnk := (g'.thread L).lnk }
  link : ∀ L, L < g.threads.length → (g'.thread L).lnk = (if (g.thread L).exited then none else lastLnk o.writes L).getD (g.thread L).lnk
  vector : ∀ L n, L < g.threads.length → n < 64 →
    ((g'.thread L).vreg n, (g'.thread L).taint.getLsbD n, (g'.thread L).poison.getLsbD n)
      = (if (g.thread L).exited then none else lastV o.writes L n).getD ((g.thread L).vreg n, (g.thread L).taint.getLsbD n, (g.thread L).poison.getLsbD n)
  predicate : ∀ L n, L < g.threads.length → n < 7 → (g'.thread L).pget n = (if (g.thread L).exited then none else lastP o.writes L n).getD ((g.thread L).pget n)
  uniform : ∀ n, n ≠ 0 → g'.sget n = (if g.rewritten o.id n then none else lastS o.writes n).getD (g.sget n)
  coefficient : ∀ n, g'.kget n = (lastK o.writes n).getD (g.kget n)

/-- The writes name registers that exist: vector registers of the file, and threads of the group. -/
def InFile (g : Group) (o : Outstanding) : Prop :=
  ∀ w ∈ o.writes, match w with
    | .v L n _ _ _ => L < g.threads.length ∧ n < 64
    | .p L n _ => L < g.threads.length ∧ n < 8
    | .lnk L _ => L < g.threads.length
    | _ => True

/-- What every instruction of a bundle leaves alone: other groups, the group's place and state, and what was due before. -/
structure OnlyGroup (s t : State) (sel : Sel) (g g' : Group) (sw : Bool) : Prop where
  group : t.group sel.g = some g'
  others : ∀ k, k ≠ sel.g → t.group k = s.group k
  kept : g' = { g with threads := g'.threads, regs := g'.regs, trap := g'.trap, flow := g'.flow, sched := { g.sched with restore := !sw && g.sched.restore } }
  size : g'.threads.length = g.threads.length
  agenda : ∃ l, t.agenda = s.agenda ++ l

/-! ### Traps -/

/-- A bundle takes a trap (12 R344): the frame holds the cause, the instruction's address, the address of 18 R434, the threads it stops and the queue; traps are masked, the live threads of the bundle
stand at TRAPVEC and wait for nothing. Every register of every thread, the other threads' places, and every other field of the group are unchanged. -/
structure TrapTaken (g g' : Group) (B : Mask) (code : BitVec 16) (pc addr : Word64) (mask : Mask) (queue : List ReplayEntry) : Prop where
  frame : g'.trap = { g.trap with cause := zext 64 code, pc := pc, addr := addr, mask := mask, queue := queue, qix := 0, bundle := B
                                  inHandler := true, tmasked := true, held := false }
  kept : g' = { g with trap := g'.trap, threads := g'.threads, flow := g'.flow }
  size : g'.threads.length = g.threads.length
  threads : ∀ L, L < g.threads.length → L < 64 →
    g'.thread L = { (if (B &&& g.live).getLsbD L then { g.thread L with pc := g.place.vec, parked := false, wait := .none, waitCount := 0 } else g.thread L) with seg := [] }
  scoreboard : g'.flow.outstanding = g.flow.outstanding ∧ g'.flow.nextId = g.flow.nextId

/-- The instruction that is stopped, as the first entry of the queue: its word, its address, its threads; `done`: those on which it has completed (18 R429). -/
structure HeadEntry (is : Issue) (sel : Sel) (done : Mask) (e : ReplayEntry) : Prop where
  word : e.word = is.word ∧ e.short = is.short ∧ e.pc = is.pc
  lanes : e.mask = sel.mask ∧ e.done = done

/-- An instruction of the issuing bundle is stopped and its trap is taken; nothing else of the module changes. -/
def Traps (i : Instr) (s : State) (is : Issue) (sel : Sel) (g : Group) (code : BitVec 16) (addr : Word64) (mask done : Mask) : Prop :=
  ∃ t g' e, exec i s = .next t ∧ t = { s with groups := t.groups, issue := none } ∧ t.group sel.g = some g' ∧ (∀ k, k ≠ sel.g → t.group k = s.group k)
    ∧ HeadEntry is sel done e ∧ TrapTaken g g' sel.bundle code is.pc addr mask (e :: g.pendingEntries sel.bundle)

/-! ### System registers (07 R221) -/

/-- The registers of 07 R221 that a group reads as one value, and what each holds. -/
def sysTable (s : State) (g : Group) : List (Nat × Word64) :=
  [(0x001, BitVec.ofNat 64 g.place.gidx), (0x003, BitVec.ofNat 64 g.width), (0x004, BitVec.ofNat 64 (((s.blk g.place.blk).map (·.bx)).getD 0)),
   (0x005, BitVec.ofNat 64 (((s.blk g.place.blk).map (·.byy)).getD 0)), (0x006, BitVec.ofNat 64 (((s.blk g.place.blk).map (·.bz)).getD 0)),
   (0x007, BitVec.ofNat 64 g.place.bpart), (0x008, BitVec.ofNat 64 g.place.core), (0x009, BitVec.ofNat 64 g.place.part),
   (0x00A, BitVec.ofNat 64 (g.place.core / 48)), (0x00B, BitVec.ofNat 64 g.place.ctx),
   (0x010, Assoc.get (g.place.core / 48) s.clk), (0x011, g.regs.iter), (0x012, zext 64 g.regs.qslot),
   (0x013, zext 64 (Assoc.get 1 g.regs.perm)), (0x014, zext 64 (Assoc.get 2 g.regs.perm)), (0x015, zext 64 (Assoc.get 3 g.regs.perm)),
   (0x020, g.trap.cause), (0x021, g.trap.pc), (0x022, g.trap.addr), (0x023, g.trap.mask), (0x024, BitVec.ofNat 64 g.trap.queue.length),
   (0x025, g.queueWord g.trap.qix.toNat), (0x026, g.trap.qix), (0x028, g.place.vec), (0x030, g.ustat), (0x040, g.regs.gang),
   (0x050, (s.irqOf g.place.ctx).pending), (0x051, (s.irqOf g.place.ctx).mask), (0x060, ((s.context g.place.ctx).map (·.gen)).getD 1), (0x0C0, g.regs.einj)]
  ++ (List.range 28).map (fun n => (0x070 + n, artRegister n)) ++ (List.range 20).map (fun n => (0x08C + n, 0))
  ++ (List.range 15).map (fun n => (0x100 + n, if s.debuggable g.place.ctx then Assoc.get n (s.part g.partIndex).slotSnap else 0))
  ++ [(0x10F, if s.debuggable g.place.ctx then BitVec.ofNat 64 s.clocks else 0),
      (0x110, if s.debuggable g.place.ctx then ((s.context g.place.ctx).map (·.trace.written)).getD 0 else 0),
      (0x111, if s.debuggable g.place.ctx then ((s.context g.place.ctx).map (·.trace.dropped)).getD 0 else 0)]
  ++ (List.range 4).map (fun n => (0x120 + n, Assoc.get n s.dieSkew)) ++ (List.range 16).map (fun n => (0x130 + n, Assoc.get n s.portSkew))

/-! ### Memory, fences, barriers -/

/-- An access that needs room in the core's checkers finds it, and the group is in no convoy (05 R179, 02 R72). -/
structure Plain (s : State) (sel : Sel) (g : Group) : Prop where
  room : s.checkerFull g.place.core = false
  unpaired : g.place.paired = false
  noConvoy : s.convoyOf sel.g = none

/-- What a memory instruction leaves alone: everything but the groups, memory, the caches, the TLBs, the checkers' records, the logs, and the requests on their way. -/
def SameModule (s t : State) : Prop :=
  t.ctxs = s.ctxs ∧ t.parts = s.parts ∧ t.launches = s.launches ∧ t.queues = s.queues ∧ t.room = s.room ∧ t.fenced = s.fenced ∧ t.clk = s.clk ∧ t.bootErr = s.bootErr
  ∧ t.cxlUp = s.cxlUp ∧ t.routes = s.routes ∧ t.ports = s.ports ∧ t.dbg = s.dbg ∧ t.plat = s.plat ∧ t.turn = s.turn ∧ t.convoys = s.convoys ∧ t.copies = s.copies
  ∧ t.mxops = s.mxops ∧ t.replies = s.replies ∧ t.phys = s.phys ∧ t.zeroing = s.zeroing ∧ t.windows = s.windows ∧ t.host.queues = s.host.queues

/-- The release waits at the gate of its core with what it will do; its bundle stands after the instruction and waits for it (05 R175; the wait is the model's, log 21), in the
wait `w`. `m` is memory after the translation of its addresses. -/
def HeldAs (w : Wait) (i : Instr) (s : State) (is : Issue) (sel : Sel) (g : Group) (sw : Bool) (kind : Nat) (scope : BitVec 5) (act : Act) (m : List Host.Cell) : Prop :=
  ∃ t g' h, exec i s = .next t ∧ OnlyGroup s t sel g g' sw ∧ SameModule s t ∧ t.blks = s.blks ∧ t.mem = m ∧ g'.regs = { g.regs with einj := g'.regs.einj } ∧ g'.trap = g.trap ∧ g'.flow = g.flow
    ∧ h ∈ (t.coreAt g.place.core).gate ∧ h.g = sel.g ∧ h.bundle = sel.bundle ∧ h.mask = sel.mask ∧ h.kind = kind ∧ h.scope = scope ∧ h.act = act ∧ h.pc = is.pc
    ∧ h.sc = (kind == 12) ∧ h.cls = s.classOf g scope
    ∧ ∀ L, L < g.threads.length →
        (if sel.bundle.getLsbD L then { g.thread L with pc := is.next, wait := w, waitOn := h.id } else g.thread L).like (g'.thread L)

/-- The same in the common wait of the releases. -/
def HeldAtGate : Instr → State → Issue → Sel → Group → Bool → Nat → BitVec 5 → Act → List Host.Cell → Prop := HeldAs .gate

/-- The instruction writes x to the uniform register d of its bundle, and only there; a write to s0 is discarded (03 R79), and USPLIT notes a bundle that is not the whole group (02 R41). -/
def ReadsUniform (i : Instr) (s : State) (is : Issue) (sel : Sel) (g : Group) (sw : Bool) (d : Nat) (x : Word64) : Prop :=
  ∃ t g', exec i s = .next t ∧ OnlyGroup s t sel g g' sw ∧ SameModule s t ∧ t.blks = s.blks ∧ t.mem = s.mem ∧ Advanced is sel g g'
    ∧ g'.sget d = (if d = 0 then 0 else x) ∧ (∀ n, n ≠ d → g'.sget n = g.sget n)
    ∧ g'.regs = { g.regs with s := g'.regs.s, sAt := g'.regs.sAt, usplit := g.regs.usplit || (sel.bundle &&& g.live != g.live) } ∧ g'.flow = g.flow ∧ g'.trap = g.trap

/-- The instruction leaves its group with the registers of `r` and changes nothing else but the place of its bundle. -/
def SetsRegs (i : Instr) (s : State) (is : Issue) (sel : Sel) (g : Group) (sw : Bool) (r : GroupRegs) : Prop :=
  ∃ t g', exec i s = .next t ∧ OnlyGroup s t sel g g' sw ∧ t = { s with groups := t.groups, agenda := t.agenda, issue := none } ∧ Advanced is sel g g'
    ∧ g'.regs = r ∧ g'.flow = g.flow ∧ g'.trap = g.trap

/-- The instruction leaves every register, memory, and all else of the module as `SameModule` says, but for what `more` says of the next state. -/
def Acts (i : Instr) (s : State) (is : Issue) (sel : Sel) (g : Group) (sw : Bool) (more : State → Prop) : Prop :=
  ∃ t g', exec i s = .next t ∧ OnlyGroup s t sel g g' sw ∧ Advanced is sel g g' ∧ g'.regs = g.regs ∧ g'.flow = g.flow ∧ g'.trap = g.trap ∧ more t

/-- The lanes' addresses are legal: of a legal form and aligned (03 R91, 04 R124), no watchpoint is compared (15 R401), and no engine is writing where they lead (03 R108). -/
structure Reachable (s : State) (is : Issue) (sel : Sel) (g : Group) (size : Nat) (l : Addrs) : Prop where
  form : ∀ a ∈ l, pointerForm a.2 = true
  aligned : ∀ a ∈ l, a.2.toNat % size = 0
  unwatched : watched s is sel g = false
  unowned : s.engineWaits is sel g l = none

/-- While the issuing bundle's accesses found their places, up to `u`, no finding of a checker stopped a group (20 R469): the groups are as they were, but for the bundle's step to
the next instruction and the EINJ that an access may have disarmed (17 R424). -/
def Undisturbed (s : State) (is : Issue) (sel : Sel) (u : State) : Prop :=
  ∃ e, u.groups = (s.modGroup sel.g (fun x => { x.advance is sel with regs := { (x.advance is sel).regs with einj := e } })).groups

/-- No home's finding contained a line on the way from `s` to `t` (05 R167, 20 R467): every line contained now was contained before, and had no owner whose records could differ. -/
def Calm (s t : State) : Prop := ∀ k, (t.line k).contained ≠ none → (s.line k).contained ≠ none ∧ (s.line k).owners = []

/-- What step 4 of 10 R277 finds for the lanes of an instruction, from the state in which its bundle has moved on: the state after it, the lanes that failed and those that passed, with their physical addresses. -/
def landing (s : State) (is : Issue) (sel : Sel) (g : Group) (need : Need) (l : Addrs) : State × List Miss × List Hit :=
  (s.modGroup sel.g (fun x => x.advance is sel)).laneAccesses sel.g (g.advance is sel) need l

/-- A load of a bundle (10 R278, R284): the instruction and what it is. -/
structure LoadRow where
  instr : Instr
  op : LoadOp

/-- The loads. -/
noncomputable def loadRows (d a : BitVec 6) (w : BitVec 3) (o9 : BitVec 9) (q : BitVec 2) (o6 : BitVec 6) (sw : Bool) : List LoadRow :=
  [{ instr := .ld d a w o9 sw
     op := { use := useLoad d a w, sw := sw, d := d.toNat, w := w, kind := 0, slot := none, taint := fun i => i.tv.any id, addrs := fun is sel g => pairAddrs (useLoad d a w) is sel g o9 (sizeOf_ w) } },
   { instr := .ldAcq d a w q o6 sw
     op := { use := useLoad d a w, sw := sw, d := d.toNat, w := w, kind := 2, slot := some q, taint := fun _ => false, addrs := fun is sel g => pairAddrs (useLoad d a w) is sel g o6 (sizeOf_ w) } },
   { instr := .ldCon d a w q o6 sw
     op := { use := useLoad d a w, sw := sw, d := d.toNat, w := w, kind := 3, slot := some q, taint := fun _ => true, addrs := fun is sel g => pairAddrs (useLoad d a w) is sel g o6 (sizeOf_ w) } }]

/-- The scope entry an ordered load reads when it issues, and its class (10 R284); a plain load has none. -/
def LoadRow.scope (r : LoadRow) (g : Group) : BitVec 5 := (r.op.slot.map g.scopeSlot).getD 0
def LoadRow.cls (r : LoadRow) (s : State) (g : Group) : Nat := if r.op.slot.isSome then s.classOf g (r.scope g) else 0

/-- The load completes: when its registers may be read and written, its lanes' addresses are legal and lead to device DRAM or host memory, no line it reads is contained and no checker's finding stops a group, its data is outstanding: in
each active lane the bytes at the lane's physical address, extended as the width says, with the taint of the instruction; it is written when it returns. No register is
written yet and memory is as the translation left it. -/
def LoadRow.Completes (r : LoadRow) : Prop :=
  ∀ (s : State) (is : Issue) (sel : Sel) (g : Group), Issues s is sel g → OperandsOk g sel r.op.use → Plain s sel g →
    Reachable s is sel g (sizeOf_ r.op.w) (r.op.addrs is sel g) →
    let x := landing s is sel g { read := true } (r.op.addrs is sel g)
    x.2.1 = [] → (∀ h ∈ x.2.2, regionOf h.pa ≠ 2 ∧ x.1.containedAt h.pa = none) →
    Undisturbed s is sel (x.1.loadSectors g.place.core sel.g r.op.kind (r.scope g) (r.cls s g) (sizeOf_ r.op.w) none x.2.2) →
    ∃ t g' o, exec r.instr s = .next t ∧ OnlyGroup s t sel g g' r.op.sw ∧ SameModule s t ∧ t.blks = s.blks ∧ t.mem = x.1.mem ∧ Advanced is sel g g'
      ∧ g'.regs = { g.regs with einj := g'.regs.einj } ∧ g'.trap = g.trap
      ∧ g'.flow = { g.flow with outstanding := g.flow.outstanding ++ [o], nextId := g.flow.nextId + 1 }
      ∧ o.id = g.flow.nextId ∧ o.kind = .load ∧ o.bundle = sel.bundle ∧ o.entry.mask = sel.mask ∧ (∃ n, s.clocks < n ∧ t.late = s.late ++ [(n, .loadDataReturn sel.g o.id)])
      ∧ o.writes = x.2.2.flatMap (fun h => laneLoad r.op.d (loadWords r.op.w (bytesFrom x.1.mem h.pa (sizeOf_ r.op.w))) h.L (r.op.taint (g.gather r.op.use none h.L))
          (t.loadValue h (sizeOf_ r.op.w)).2)

/-- The stores of the lanes that passed, in ascending thread index: each lane's data at its physical address (10 R279, 04 R126). -/
def laneStores (g : Group) (b a : BitVec 6) (w : BitVec 3) (hits : List Hit) : List LaneStore :=
  hits.map (fun h => { L := h.L, ptr := h.ptr, pa := h.pa, size := sizeOf_ w, x := valueOf ((g.gather (useStore b a w) none h.L).v.drop 2) % 2 ^ (8 * sizeOf_ w) })

/-- The new values of 10 R286 for 32-bit words: the old value, b and v[vb+1]; none where nothing is written. -/
def atomWords : List (Nat × (Word32 → Word32 → Word32 → Option Word32)) :=
  [(0, fun x b _ => some (int32 (x.toInt + b.toInt))), (1, fun x b _ => some (round32 (faddV x b))),
   (2, fun x b _ => some (int32 (min x.toInt b.toInt))), (3, fun x b _ => some (int32 (max x.toInt b.toInt))),
   (4, fun x b _ => some (BitVec.ofNat 32 (min x.toNat b.toNat))), (5, fun x b _ => some (BitVec.ofNat 32 (max x.toNat b.toNat))),
   (6, fun x b _ => some (x &&& b)), (7, fun x b _ => some (x ||| b)), (8, fun x b _ => some (x ^^^ b)), (9, fun _ b _ => some b),
   (10, fun x b c => if x = b then some c else none), (14, fun x b _ => some (if b.toNat ≤ x.toNat then 0 else x + 1)),
   (15, fun x b _ => some (twoElements (fun e => bf16.round .rn ((bf16.decode (element x e)).add (bf16.decode (element b e))))))]

/-- The new values for 64-bit words: the old value, B and C. -/
def atomDoubles : List (Nat × (Word64 → Word64 → Word64 → Option Word64)) :=
  [(11, fun x b _ => some (int64 (x.toInt + b.toInt))), (12, fun _ b _ => some b), (13, fun x b c => if x = b then some c else none)]

/-- The lanes' atomics on memory, in ascending thread index: memory after them, and each lane's old value (04 R126, 10 R286). -/
def atomicRun (o : BitVec 4) : List LaneAtomic → List Host.Cell → List Host.Cell × List Nat
  | [], m => (m, [])
  | w :: ws, m =>
    let old := bytesFrom m w.pa (atomSize o)
    let r := atomicRun o ws (match atomNew o old w.data with
      | some x => storeBytes m w.pa (atomSize o) x
      | none => m)
    (r.1, old :: r.2)

/-- The lane atomics of an instruction: each lane's address and data registers. -/
def laneAtomics (g : Group) (u : Use) (hits : List Hit) : List LaneAtomic := hits.map (fun h => { L := h.L, ptr := h.ptr, pa := h.pa, data := (g.gather u none h.L).v.drop 2 })

/-- The operands of a reduction. -/
def useRed (a b : BitVec 6) (o : BitVec 4) : Use := { vsrc := { reg := a.toNat, cnt := 2 } :: atomData b o }

/-! ### Matrix instructions -/

/-- The MX instructions with their fn4 and the registers of their words (11 R315). -/
noncomputable def mxRows (d : BitVec 8) (a b : BitVec 6) (sw : Bool) : List (Instr × BitVec 4 × BitVec 6 × BitVec 6) :=
  [(.mma d a b sw, 0, b, a), (.mmaZ d a b sw, 1, b, a), (.mmaS d b sw, 2, b, 0), (.mmaF d b sw, 3, b, 0), (.mpoly d sw, 4, 0, 0), (.miter d sw, 5, 0, 0),
   (.accZero d sw, 6, 0, 0), (.accScale d sw, 7, 0, 0), (.accAdd d sw, 8, 0, 0), (.accTr d sw, 9, 0, 0), (.accNorm d sw, 10, 0, 0), (.accOut d sw, 11, 0, 0), (.accIn d sw, 12, 0, 0)]

/-- The tile of n² words at a slab of a block's part (11 R311). -/
def State.tileWords (s : State) (blk part a n : Nat) : Option (List Word32) :=
  (s.blockPart blk part).map (fun p => (List.range (n * n)).map (fun i => Assoc.get (1024 * a + i) p.slabs))

end Sys2Proof.Machine
end

