-- ==== Sys2Proof/Certificates/Slice0/Obligations.lean ====
section
/-! DEFINITION. The statements for the provers. -/
open Sys2Proof Sys2Proof.Machine

/-! ### Fetch, decode, encode -/

/-- A step runs the decoded instruction. When nothing is due, partition `k`'s turn finds group `gi` with a bundle at its PC (not one that re-injects an entry, no refused
store), and the fetch at that PC gives the halfwords `f`, which decode to the instruction `i`, then the step is `exec i` on the state of the fetch with that bundle
(and the bundle packed with it, 02 R33) issuing, then what the issue counts (02 R34, R35, 15 R395), and then what follows every step: the trace records (15 R399) and the contexts' images in memory (13 R371). The order in
which partitions and events take their steps is the model's (log 9). -/
def Obligations.StepRunsTheDecodedInstruction : Prop :=
  ∀ (s u : State) (k gi : Nat) (g : Group) (w : Work) (f : Fetched) (i : Instr),
    s.agenda = [] → s.due = none → s.dueLate = none → s.dueTrap = none → s.nextPartition = some k → s.nextOn k = some (gi, g, w) → w.entry = none →
    g.refused w.mask = none → s.refuses f = false →
    let issued := s.issuedWith k gi g w
    (s.begin k issued).fetch g.place.core g.place.ctx g.code w.pc = (u, .ok f) → f.decode = .instr i →
    Machine.step s = match exec i { u with issue := some { sels := issued.map (fun x => x.2.sel x.1), pc := w.pc, word := f.word, short := f.size == 2 } } with
      | .next t => .next (s.afterStep (s.account k (issued.map (fun x => x.2.sel x.1)) t))
      | .fault x => .fault x
      | .refused x => .refused x

/-- The fetch reads the bytes at the PC: a halfword, and the next one when bit 0 of the first is one (07 R206), each from the physical address its
virtual address is mapped to with execute permission, low byte first (00 R3). A byte that no store has changed since the group's last `cache.inv` of its sector is the one in memory
(04 R146). -/
def Obligations.FetchReadsTheHalfwordsAtThePc : Prop :=
  (∀ (s t : State) (core ctx : Nat) (code : Tab Nat) (pc : Word64) (pa : Nat) (lf : Leaf),
    pointerForm pc = true → s.translate core ctx (virtOf pc) { exec := true } = (t, .ok (pa, lf)) → regionOf pa ≠ 2 → (t.sector (sectorOf pa)).ecc = none →
    t.poisonedAt pa = false → (∀ l, (t.coreAt core).l1Line (sectorOf pa) = some l → l.err = none) → Tab.get? (sectorOf pa % 4) (t.line (sectorOf pa / 4)).l2err = none →
    s.fetchHalf core ctx code pc = (t, .ok (t.codeByte code (pa + 1) ++ t.codeByte code pa))
    ∧ ((t.codeByte code pa).getLsbD 0 = false → s.fetch core ctx code pc = (t, .ok (.short (t.codeByte code (pa + 1) ++ t.codeByte code pa))))
    ∧ ∀ u h, (t.codeByte code pa).getLsbD 0 = true → t.fetchHalf core ctx code (pc + 2) = (u, .ok h) →
        s.fetch core ctx code pc = (u, .ok (.long (h ++ t.codeByte code (pa + 1) ++ t.codeByte code pa))))
  ∧ ∀ (s : State) (code : Tab Nat) (pa : Nat), (∀ o ∈ s.oldCode, o.pa = pa → o.epoch < (Tab.get? (pa / 64) code).getD 0) → s.codeByte code pa = s.byteAt pa

/-- Words of the specification's examples and of its format table decode to the instructions they stand for. -/
def Obligations.SpecifiedWordsDecode : Prop :=
  decodeTableWord 32 0xD302CA05 = some (.iaddmin 10 11 0 12 1 false) ∧ decodeTableWord 32 0x01410349 = some (.shli 3 4 0 5 false)
  ∧ decodeTableWord 32 0x3FFFC379 = some (.movi 3 0xFFFF false) ∧ decodeTableWord 32 0x0005057D = some (.vredAddS32 5 20 0 false)
  ∧ decodeTableWord 32 0x011110A1 = some (.sAdd 16 17 false) ∧ decodeTableWord 32 0xFFF010A5 = some (.sAddi 16 0xFFF false)
  ∧ decodeTableWord 32 0x005210AB = some (.sLi 16 0x52 true) ∧ decodeTableWord 32 0x0000009D = some (.nop false)
  ∧ decodeTableWord 32 0x0181C09D = some (.brk 7 false) ∧ decodeTableWord 32 0xFFEA1199 = some (.sBrnz 17 0x3FFA false)

/-- Decoding an encoding gives the instruction back: for every well-formed instruction that has an encoding, with every operand at every value the encoding
admits, and whatever bytes follow. -/
def Obligations.DecodingAnEncodingGivesTheInstruction : Prop :=
  ∀ (i : Instr) (rest : List Byte), i.wellFormed = true → encode i ≠ .event → decodeBytes ((encode i).bytes ++ rest) = some (.instr i, rest)

/-- Decoding accepts only encodings: the bytes an instruction is decoded from are its encoding, and the instruction is well-formed, so a reserved function code, field value, system
register number or non-zero zero field never decodes to an instruction (07 R206-R221, 18 R437). -/
def Obligations.DecodingAcceptsOnlyEncodings : Prop :=
  ∀ (bs rest : List Byte) (i : Instr), decodeBytes bs = some (.instr i, rest) → i.wellFormed = true ∧ encode i ≠ .event ∧ bs = (encode i).bytes ++ rest

/-! ### Memory and reset -/

/-- Every step keeps physical memory in its canonical form: addresses strictly rising, and no byte listed that equals what an unlisted address reads as. -/
def Obligations.EveryStepKeepsMemoryCanonical : Prop :=
  ∀ s t : State, Memory.wf s.mem = true → Machine.step s = .next t → Memory.wf t.mem = true

/-- Bytes of physical memory: after a write of `n` bytes, a byte of the range reads the byte of the value for its address, low byte first (00 R3), and every other byte reads
as before; and a read of the same bytes gives the value. -/
def Obligations.MemoryReadsWhatWasWritten : Prop :=
  ∀ (s : State) (pa n x : Nat),
    (∀ a, (s.writePhys pa n x).byteAt a = if pa ≤ a ∧ a < pa + n then BitVec.ofNat 8 (x / 2 ^ (8 * (a - pa))) else s.byteAt a)
    ∧ (s.writePhys pa n x).readPhys pa n = x % 2 ^ (8 * n)

/-- Right after module reset: no group, block or task is present, nothing is fenced (log 1), every host interface register named here is zero, the
host event queue is disabled, the routing table's IRQ bits are set (13 R365), the power limit is 2,200 (16 R408) and the boot phase is 0. Memory has its canonical form at reset,
and with any instruction placed for the next step. -/
def Obligations.ResetLeavesTheStatedValues : Prop :=
  let s := State.reset
  s.groups = [] ∧ s.blks = [] ∧ s.launches = [] ∧ s.fenced = [] ∧ s.bootErr = 0 ∧ s.dbg = {} ∧ s.host.queues = []
  ∧ s.host.heqBase = 0 ∧ s.host.heqHead = 0 ∧ s.host.heqTail = 0 ∧ s.plat.phase = 0 ∧ s.plat.powerLim = 2200
  ∧ s.host.route.map (fun e => (field 2 1 e, field 3 61 e)) = List.replicate 16 (1, 0) ∧ s.host.heqCtl = 0
  ∧ Memory.wf s.mem = true ∧ ∀ n w, Memory.wf (s.withFetchWord n w).mem = true

/-- Registers that are fixed: s0 reads zero and p7 reads true, writes to them are discarded, and naming them raises no trap in a group whose role declares uniform registers; a 16-bit form names only v0-v31 (03 R79). -/
def Obligations.FixedRegistersReadAsStated : Prop :=
  (∀ (g : Group) (th : Thread) (x : Word64) (b : Bool), g.sget 0 = 0#64 ∧ g.setS 0 x = g ∧ th.pget 7 = true ∧ th.setP 7 b = th)
  ∧ (∀ (g : Group) (m : Mask), 0 < g.place.ucount → operandStop g m { sdst := [0], pdst := [7] } = none)
  ∧ ∀ (d b : BitVec 5) (sw : Bool), ∀ r ∈ shortRows d b sw, (∀ v ∈ r.use.vsrc, v.reg < 32) ∧ (∀ v ∈ r.use.vdst, v.1 < 32) ∧ r.use.ssrc = [] ∧ r.use.psrc = []
      ∧ ∀ g l, ∀ w ∈ r.writes g l, ∃ L n x ta po, w = .v L n x ta po ∧ n < 32

/-! ### Uniform and vector instructions -/

/-- Every uniform integer instruction completes: for a bundle that issues, registers that may be read and written, and a uniform pipeline that runs no division (08 R245), its result for
sd becomes outstanding, computed once from the uniform operands (08 R244), USPLIT is set when the bundle lacks a live thread of its group (02 R40), every register, every byte of memory and
everything else of the module stays as it was until the result is written, and the bundle stands at the next instruction.
Completion: `exec` answers a next state for sMov, sAdd, sSub, sMul, sMulh, sMulhn, sAnd, sOr, sXor, sShl, sShr, sSar, sMin, sMax, sNmin, sNmax, sSlt, sSltn, sSeq, sNot, sNeg, sClz, sPopc,
sDivn, sRemn, sAddi, sAndi, sOri, sXori, sShli, sShri, sSari, sSlti, sMuli, sLi, sLih. -/
def Obligations.UniformInstructionsWriteTheirResult : Prop :=
  ∀ (d b : BitVec 8) (i12 : BitVec 12) (i6 : BitVec 6) (i16 : BitVec 16) (sw : Bool), ∀ r ∈ uniformRows d b i12 i6 i16 sw, r.CompletesUniform

/-- Every integer instruction of the vector lanes, and the sixteen 16-bit forms on v0-v31 with the destination as the first source (07 R208), completes: its results become outstanding, one for each active lane, computed from that lane's operands,
and nothing else of the module changes until they are written.
Completion: `exec` answers a next state for mov16, iadd16, isub16, imul16, and16, or16, xor16, shl16, shr16, sar16, imin16, imax16, fadd16, fmul16, fmin16, fmax16, iadd, isub, imul, imulh,
imulhn, iaddsat, isubsat, iaddmin, vAnd, vOr, vXor, andn, shl, shr, sar, rotl, imin, imax, nmin, nmax, iaddVs, isubVs, imulVs, iaddminVs, andVs, orVs, xorVs, shlVs, shrVs, sarVs, iminVs,
imaxVs, iaddi, andi, ori, xori, shli, shri, sari, pack2h, bperm, fcopysign, nabsdiff, imad, sel, bfe, bfi, mov, vNot, ineg, iabs, clz, ctz, popc, brev, fabs, fneg, movi, movhi, movf. -/
def Obligations.VectorIntegerInstructionsComplete : Prop :=
  ∀ (d a b c : BitVec 6) (p q : BitVec 2) (u : BitVec 8) (i10 : BitVec 10) (i5 : BitVec 5) (i16 : BitVec 16) (sw : Bool),
    (∀ r ∈ integerRows d a b c p q u i10 i5 i16 sw, r.Completes) ∧ (∀ k : BitVec 3, (selRow d a b k sw).Completes)
    ∧ ∀ x y : BitVec 5, ∀ r ∈ shortRows x y sw, r.Completes

/-- Every binary32, binary64 and packed instruction of the vector lanes completes: each active lane's result is the exact value of 06 R186 rounded once (with subnormals as zeros for the functions
of 06 R184), outstanding until it is written; each of a packed word's two elements is computed on its own (09 R263).
Completion: `exec` answers a next state for fadd, fsub, fmul, fmad, fmin, fmax, faddmin, fscale, dadd, dmul, dmad, dmin, bfadd2, bfmul2, bfmad2, bfmax2, hadd2, hmul2, hmad2, hmax2, faddVs,
fmulVs, fmadVs, faddminVs, ffma, frcp, frsq, fsqrt, fexp2, flog2, fsin, fcos, fround, ffract, fclass. -/
def Obligations.VectorFloatInstructionsComplete : Prop :=
  ∀ (d a b c : BitVec 6) (p q r : BitVec 2) (u : BitVec 8) (sw : Bool), (∀ x ∈ floatRows d a b c p q r u sw, x.Completes)
    ∧ (∀ x ∈ packedRows bf16 .bfadd2 .bfmul2 .bfmad2 .bfmax2 d a b p q sw, x.Completes) ∧ ∀ x ∈ packedRows f16 .hadd2 .hmul2 .hmad2 .hmax2 d a b p q sw, x.Completes

/-- `cvt` completes for every pair of types its encoding admits: the value of the source in its format, rounded once in the mode the instruction names (06 R188, 09 R265); and the
shadowed uniform instructions `s.fadd` and `s.fmul` complete, while the uniform pipeline runs no division, with their rounded results (08 R241, R245).
Completion: `exec` answers a next state for cvt, sFadd, sFmul. -/
def Obligations.ConversionsAndUniformFloatsComplete : Prop :=
  (∀ (d a : BitVec 6) (p : BitVec 2) (f e : BitVec 4) (r : BitVec 2) (sw : Bool), cvtType e = true → cvtType f = true → (cvtRow d a p f e r sw).Completes)
  ∧ ∀ (d b : BitVec 8) (sw : Bool), ∀ x ∈ uniformFpRows d b sw, x.CompletesUniform

/-- The compares, the predicate logic and the votes complete: a predicate for each active lane, or the set of active threads whose predicate holds (09 R267, R268).
Completion: `exec` answers a next state for icmp, fcmp, pand, por, pxor, pandn, pnot, pmov, voteAny, voteAll, ballot. -/
def Obligations.PredicateInstructionsComplete : Prop :=
  ∀ (d p3 q3 c : BitVec 3) (a b : BitVec 6) (p q : BitVec 2) (ty : BitVec 1) (u : BitVec 8) (sw : Bool), ∀ x ∈ predicateRows d p3 q3 c a b p q ty u sw, x.Completes

/-- The reductions, the scans, the broadcasts and the block formats complete: the active threads' values combined in ascending thread index into a uniform register (09 R269); the combination
of the values up to each thread, or before it, beginning with the identity (09 R270); a uniform register into every active lane (09 R271); a block's values encoded with one shared exponent, and
decoded (09 R274, R275).
Completion: `exec` answers a next state for vredAddS32, vredAddF32, vredMinS32, vredMaxS32, vredMinB32, vredMaxB32, vredMinF32, vredMaxF32, vredAnd, vredOr, vredXor, bcast, bcastd, bxEnc8,
bxEnc4, bxDec8, bxDec4, vscanAddS32, vscanAddF32, vscanMinS32, vscanMaxS32, vscanMinF32, vscanMaxF32. -/
def Obligations.CrossLaneInstructionsComplete : Prop :=
  ∀ (d a : BitVec 6) (u : BitVec 8) (p : BitVec 2) (e : BitVec 1) (sw : Bool),
    (∀ x ∈ reductionRows a u p sw, x.Completes) ∧ (∀ x ∈ scanRows d a p e sw, x.Completes) ∧ ∀ x ∈ blockRows a u p sw, x.Completes

/-- `rdlane` reads the vector register of one thread, active or not: that whose index is sd[5:0] modulo the group's width, into sd, zero-extended (09 R271). `perm.set` writes the descriptor of su to its slot at once (03 R87, 09 R272); a descriptor with a code 7, a bit of [63:21] or a uniform register beyond the group's is an illegal
operand: the trap 0x1002 with kind 9 and the slot, and the slot is unchanged (18 R434).
Completion: `exec` answers a next state for rdlane, permSet. -/
def Obligations.RdlaneAndPermSetComplete : Prop :=
  (∀ (v : BitVec 6) (u : BitVec 8) (sw : Bool) (s : State) (is : Issue) (sel : Sel) (g : Group), Issues s is sel g →
     OperandsOk g sel (useRdlane v u) →
     let k := (g.sget u.toNat).toNat % 64 % g.width
     ∃ t g' o, exec (.rdlane v u sw) s = .next t ∧ Performed s t sel g g' sw [.vectorWriteback sel.g g.flow.nextId 0] ∧ Advanced is sel g g'
       ∧ g'.flow = { g.flow with outstanding := g.flow.outstanding ++ [o], nextId := g.flow.nextId + 1 }
       ∧ g'.regs = { g.regs with usplit := g.regs.usplit || (sel.bundle &&& g.live != g.live) }
       ∧ o.id = g.flow.nextId ∧ o.kind = .vector ∧ o.entry.mask = sel.mask ∧ o.writes = [.s u.toNat (zext 64 ((g.thread k).vreg v.toNat))])
  ∧ (∀ (v : BitVec 6) (u : BitVec 8) (sw : Bool) (s : State) (is : Issue) (sel : Sel) (g : Group), Issues s is sel g → OperandsOk g sel { ssrc := [u.toNat] } →
     let x := g.sget u.toNat
     let legal := field 21 43 x = 0 ∧ field 0 3 x ≠ 7 ∧ field 9 3 x ≠ 7 ∧ (x.getLsbD 12 = true → (field 13 8 x).toNat < g.place.ucount)
     (legal → ∃ t g', exec (.permSet v u sw) s = .next t ∧ Performed s t sel g g' sw [] ∧ Advanced is sel g g' ∧ g'.flow = g.flow
       ∧ g'.regs = { g.regs with perm := g'.regs.perm } ∧ Assoc.get v.toNat g'.regs.perm = lowWord x ∧ ∀ n, n ≠ v.toNat → Assoc.get n g'.regs.perm = Assoc.get n g.regs.perm)
     ∧ (¬ legal → g.trap.tmasked = false → s.unfinished sel.g g sel.bundle = false → Traps (.permSet v u sw) s is sel g 0x1002 (0x900#64 ||| zext 64 v) sel.mask 0))

/-- The results of a vector or uniform instruction, or of a link move, are written when its write-back comes and its shadow does not disagree (02 R38, 08 R245, 09 R255, 21 R493); after a division the
instructions turned away in its partition try again; the data of a load or atomic when it returns,
every peer has answered, and no compare buffer or gate holds it (10 R280).
Completion: `exec` answers a next state for vectorWriteback, loadDataReturn. -/
def Obligations.OutstandingResultsAreWritten : Prop :=
  ∀ (s : State) (gi id : Nat) (bad : BitVec 64) (g : Group) (o : Outstanding) (i : Instr), s.group gi = some g → g.out id = some o → InFile g o →
    (i = .vectorWriteback gi id bad ∧ o.kind ≠ .load ∧ o.disagreeing bad = 0) ∨ (i = .loadDataReturn gi id ∧ o.kind = .load ∧ s.dataHere gi id = true) →
    ∃ t g', exec i s = .next t ∧ t.group gi = some g' ∧ WrittenBack g g' o ∧ t = { s with groups := t.groups, agenda := t.agenda }
      ∧ (∀ k, k ≠ gi → t.group k = s.group k ∨ (o.entry.divides = true ∧ ∃ x, s.group k = some x ∧ x.partIndex = g.partIndex ∧ t.group k = some x.wakeTurned))
      ∧ t.agenda = s.agenda ++ (if g'.parkedThreads = 0 then [] else [.bundleUnpark gi g'.parkedThreads])


/-! ### Control transfers, waiting, extended registers -/

/-- The branches, `nop` and `yield` complete: each thread of the bundle goes to the place the instruction gives it, and nothing else changes (08 R228-R239). `call` and the link moves complete:
the bundle goes to the target, or on, and the LNK or pair of each of its threads is outstanding with the value the instruction gives (08 R228, R232, R245). `gbar` is a release at group scope (04 R145): it waits at the gate with its bundle past the instruction (05 R175; the wait is the model's, log 21); when it
performs, its threads wait until every live thread of the group waits in it, and with the last of them all go on (08 R236).
Completion: `exec` answers a next state for bra, brp, call, sBra, sBrz, sBrnz, sBrlt, nop, ret, jmp, yield, gbar, rdlnk, wrlnk. -/
def Obligations.ControlTransfersAndGbarComplete : Prop :=
  (∀ (o18 : BitVec 18) (o14 : BitVec 14) (p : BitVec 3) (n : BitVec 1) (u : BitVec 8) (a : BitVec 6) (sw : Bool), ∀ r ∈ controlRows o18 o14 p n u a sw, r.Completes)
  ∧ (∀ (o18 : BitVec 18) (a : BitVec 6) (sw : Bool), ∀ r ∈ linkRows o18 a sw, ∀ (s : State) (is : Issue) (sel : Sel) (g : Group), Issues s is sel g → OperandsOk g sel (r is).use →
      (r is).Performs s is sel g)
  ∧ (∀ (sw : Bool) (s : State) (is : Issue) (sel : Sel) (g : Group), Issues s is sel g → OperandsOk g sel {} → HeldAtGate (.gbar sw) s is sel g sw 13 0 .gbar s.mem)
  ∧ ∀ (s : State) (core : Nat) (h : Held) (g : Group), s.heldRelease h.id = some (core, h) → h.act = .gbar → s.performable core h = true → s.group h.g = some g →
      let all : Bool := decide (g.live ≠ 0#64 ∧ (g.waiting .gbar ||| h.mask) &&& g.live = g.live)
      ∃ t g', exec (.releasePerform h.id) s = .next t ∧ t.group h.g = some g' ∧ t.mem = s.mem ∧ g'.regs = g.regs ∧ g'.flow = g.flow ∧ g'.trap = g.trap
        ∧ ∀ L, L < g.threads.length → L < 64 → (g'.thread L).pc = (g.thread L).pc ∧ (g'.thread L).v = (g.thread L).v
            ∧ (h.mask.getLsbD L = true → (g.thread L).exited = false → (g'.thread L).wait = if all then .none else .gbar)

/-- `xreg.try` with an amount the role may hold writes 1 to sd and grants 8 times `x` more registers, which read zero with clear taint and poison, when no request waits and the lanes have
room; else it writes 0 and grants none. Every other register is unchanged (08 R248). `xreg.acq`: when its partition has no request waiting and the lanes have room, it is granted at once: the group holds 8 times `x` more registers, which read zero, and the bundle goes on;
else the request joins the tail of the partition's queue and the bundle waits at the instruction (02 R52, 08 R247). `xreg.rel`, once no write to the group's extended registers is outstanding, frees every extended register of the group: the count is zero and the words read zero; then the partition's queue is served (08 R249). The queue is served from its head, in order,
while the head fits (02 R52): a head that does not fit keeps every request waiting; one that fits takes its registers, its threads go on past their `xreg.acq`, and the rest is served.
Completion: `exec` answers a next state for xregAcq, xregRel, xregTry. -/
def Obligations.ExtendedRegistersAreGrantedInOrder : Prop :=
  (∀ (d : BitVec 8) (x : BitVec 3) (sw : Bool) (s : State) (is : Issue) (sel : Sel) (g : Group), Issues s is sel g → operandStop g sel.mask { sdst := [d.toNat] } = none →
     g.regs.xheld + 8 * x.toNat ≤ g.place.xmax →
     let ok := (s.part g.partIndex).xqueue = [] ∧ s.xregFits g (8 * x.toNat) = true
     ∃ t g', exec (.xregTry d x sw) s = .next t ∧ OnlyGroup s t sel g g' sw ∧ t = { s with groups := t.groups, agenda := t.agenda, issue := none }
       ∧ g'.trap = g.trap ∧ g'.flow = g.flow
       ∧ (d ≠ 0 → (ok → g'.sget d.toNat = 1) ∧ (¬ ok → g'.sget d.toNat = 0)) ∧ (∀ n, n ≠ d.toNat → g'.sget n = g.sget n)
       ∧ g'.regs = { g.regs with s := g'.regs.s, sAt := g'.regs.sAt, usplit := g.regs.usplit || (sel.bundle &&& g.live != g.live), xheld := g'.regs.xheld }
       ∧ (ok → g'.regs.xheld = g.regs.xheld + 8 * x.toNat) ∧ (¬ ok → g'.regs.xheld = g.regs.xheld)
       ∧ ∀ L n, L < g.threads.length → L < 64 → n < 64 →
           let fresh := ok ∧ g.vLimit ≤ n ∧ n < g.vLimit + 8 * x.toNat
           (fresh → (g'.thread L).vreg n = 0 ∧ (g'.thread L).taint.getLsbD n = false ∧ (g'.thread L).poison.getLsbD n = false)
           ∧ (¬ fresh → (g'.thread L).vreg n = (g.thread L).vreg n ∧ (g'.thread L).taint.getLsbD n = (g.thread L).taint.getLsbD n
               ∧ (g'.thread L).poison.getLsbD n = (g.thread L).poison.getLsbD n))
  ∧ (∀ (x : BitVec 3) (sw : Bool) (s : State) (is : Issue) (sel : Sel) (g : Group), Issues s is sel g → is.short = false →
     g.regs.xheld + 8 * x.toNat ≤ g.place.xmax → sel.bundle &&& ~~~g.live = 0#64 →
     let k := g.partIndex
     let q := (s.part k).xqueue
     (q = [] → s.xregFits g (8 * x.toNat) = true →
       ∃ t g', exec (.xregAcq x sw) s = .next t ∧ OnlyGroup s t sel g g' sw ∧ g'.trap = g.trap ∧ t.mem = s.mem
         ∧ (t.part k).xqueue = [] ∧ g'.regs = { g.regs with xheld := g.regs.xheld + 8 * x.toNat }
         ∧ ∀ L, L < g.threads.length → (g'.thread L).pc = (if sel.bundle.getLsbD L then is.pc + 4 else (g.thread L).pc)
             ∧ (∀ n, g.vLimit ≤ n → n < g.vLimit + 8 * x.toNat → n < 64 → L < 64 → (g'.thread L).vreg n = 0)
             ∧ ∀ n, n < g.vLimit → (g'.thread L).vreg n = (g.thread L).vreg n)
     ∧ ((q = [] ∧ s.xregFits g (8 * x.toNat) = false) ∨ (∃ r h, q.head? = some r ∧ s.group r.g = some h ∧ s.xregFits h r.n = false) →
       ∃ t g' e, exec (.xregAcq x sw) s = .next t ∧ OnlyGroup s t sel g g' sw ∧ g'.trap = g.trap ∧ t.mem = s.mem
         ∧ (t.part k).xqueue = q ++ [{ g := sel.g, bundle := sel.bundle, n := 8 * x.toNat, entry := e }] ∧ g'.regs = g.regs
         ∧ ∀ L, L < g.threads.length → (g'.thread L).v = (g.thread L).v ∧ (sel.bundle.getLsbD L = true → (g'.thread L).wait = .xregAcq ∧ (g'.thread L).pc = is.pc)))
  ∧ ((∀ (sw : Bool) (s : State) (is : Issue) (sel : Sel) (g : Group), Issues s is sel g → (s.part g.partIndex).xqueue = [] →
     g.regs.xheld = 0 ∨ s.xregPending sel.g g = false →
     ∃ t g', exec (.xregRel sw) s = .next t ∧ Performed s t sel g g' sw [] ∧ g'.flow = g.flow ∧ g'.regs = { g.regs with xheld := 0 }
       ∧ ∀ L n, L < g.threads.length → L < 64 → n < 64 →
           (g'.thread L).pc = (if sel.bundle.getLsbD L then is.next else (g.thread L).pc)
           ∧ (g'.thread L).vreg n = (if g.place.base ≤ n ∧ n < g.vLimit then 0 else (g.thread L).vreg n)
           ∧ (g'.thread L).taint.getLsbD n = (!(decide (g.place.base ≤ n ∧ n < g.vLimit)) && (g.thread L).taint.getLsbD n))
   ∧ ∀ (s : State) (k : Nat) (r : XRequest) (rest : List XRequest) (g : Group), (s.part k).xqueue = r :: rest → s.group r.g = some g →
     (s.xregFits g r.n = false → s.grantX k = s)
     ∧ (s.xregFits g r.n = true → s.grantX k
         = ((s.modPart k (fun p => { p with xqueue := rest })).modGroup r.g
             (fun g => (g.grantX r.n).modLanes (r.bundle &&& g.waiting .xregAcq) (fun _ t => { t with wait := .none, pc := t.pc + 4 }))).grantX k))

/-- Threads of a group that execute `exit` end: they keep their PC and registers and no longer take part; with the last live thread of the group its end is due (08 R233, R234). The last `exit`
of a block is a release at device scope, and waits at the gate (04 R145; the wait is the model's, log 21).
Completion: `exec` answers a next state for exit. -/
def Obligations.ExitEndsThreads : Prop :=
  ∀ (sw : Bool) (s : State) (is : Issue) (sel : Sel) (g : Group), Issues s is sel g → OperandsOk g sel {} → g.place.paired = false → s.convoyOf sel.g = none →
    (s.lastOfBlock sel g = false →
    ∃ t g', exec (.exit sw) s = .next t ∧ t.group sel.g = some g' ∧ t.mem = s.mem ∧ g'.regs = g.regs
      ∧ (∀ L, L < g.threads.length → (g'.thread L).exited = ((g.thread L).exited || sel.mask.getLsbD L)
          ∧ (sel.mask.getLsbD L = true → (g'.thread L).pc = is.pc) ∧ (g'.thread L).v = (g.thread L).v ∧ (g'.thread L).lnk = (g.thread L).lnk)
      ∧ (g.live &&& ~~~sel.mask = 0#64 → .groupEnd sel.g ∈ t.agenda))
    ∧ (s.lastOfBlock sel g = true → HeldAtGate (.exit sw) s is sel g sw 4 5 .exit s.mem)

/-! ### System registers, traps, interrupts -/

/-- While the uniform pipeline runs no division (08 R245): `rdsr` of a register that a group holds as one value leaves it outstanding for sd; only TRAPQ and SLOTTOTAL are changed by the read: TRAPQIX advances by 8 modulo its width, and the slot
counters are copied for a debuggable context. TIDX and LANE go to the vector register sd[5:0] of each active thread (07 R220, R221, 15 R395). `wrsr` writes TRAPPC, TRAPQLEN (a smaller value discards the youngest entries), TRAPQIX (bits [14:3]) and USTAT.USPLIT (cleared by a one), UIMASK and EINJ; a write of any other register has
no effect (00 R7, 07 R221, 12 R345).
Completion: `exec` answers a next state for rdsr, wrsr. -/
def Obligations.RdsrAndWrsrFollowTheRegisterTable : Prop :=
  (∀ (s : State) (is : Issue) (sel : Sel) (g : Group) (d : BitVec 8) (sw : Bool), Issues s is sel g → s.dividing sel.g g.partIndex = false →
     (operandStop g sel.mask { sdst := [d.toNat] } = none → ∀ (r : Nat) (x : Word64), (r, x) ∈ sysTable s g →
       ∃ t g' o, exec (.rdsr (BitVec.ofNat 11 r) d sw) s = .next t ∧ OnlyGroup s t sel g g' sw ∧ Advanced is sel g g'
         ∧ t = { s with groups := t.groups, parts := t.parts, agenda := t.agenda, late := t.late, issue := none }
         ∧ (∃ n, s.clocks < n ∧ t.late = s.late ++ [(n, .vectorWriteback sel.g g.flow.nextId 0)])
         ∧ g'.flow = { g.flow with outstanding := g.flow.outstanding ++ [o], nextId := g.flow.nextId + 1 } ∧ o.id = g.flow.nextId ∧ o.kind = .vector ∧ o.bundle = sel.bundle
         ∧ o.writes = [.s d.toNat x] ∧ g'.regs = { g.regs with usplit := g.regs.usplit || (sel.bundle &&& g.live != g.live) }
         ∧ g'.trap = { g.trap with qix := if r = 0x25 then (g.trap.qix + 8) &&& 0x7FF8 else g.trap.qix }
         ∧ (t.part g.partIndex).slotSnap = (if r = 0x10F ∧ s.debuggable g.place.ctx = true then s.slotCounters g.partIndex else (s.part g.partIndex).slotSnap)
         ∧ (t.part g.partIndex).slots = (s.part g.partIndex).slots ∧ ∀ k, k ≠ g.partIndex → t.part k = s.part k)
     ∧ (operandStop g sel.mask { vdst := [(d.toNat % 64, 1)] } = none → ∀ r : Nat, r = 0x000 ∨ r = 0x002 →
       ({ instr := .rdsr (BitVec.ofNat 11 r) d sw, use := { vdst := [(d.toNat % 64, 1)] }, sw := sw
          writes := fun g ins => ins.map (fun i => .v i.L (d.toNat % 64)
            (BitVec.ofNat 32 (if r = 0 then i.L else if g.width = 8 ∧ g.place.upper = true then i.L + 8 else i.L % 16)) false false) } : Row).Performs s is sel g))
  ∧ (∀ (s : State) (is : Issue) (sel : Sel) (g : Group) (r : BitVec 11) (d : BitVec 8) (sw : Bool), Issues s is sel g → s.dividing sel.g g.partIndex = false →
     operandStop g sel.mask (useSr r d true) = none →
     let x := g.sget d.toNat
     (r ≠ 0x051 → r ≠ 0x0C0 →
       ∃ t g', exec (.wrsr r d sw) s = .next t ∧ OnlyGroup s t sel g g' sw ∧ Advanced is sel g g' ∧ t = { s with groups := t.groups, agenda := t.agenda, issue := none }
         ∧ g'.regs = { g.regs with usplit := g.regs.usplit && !(decide (r = 0x030) && x.getLsbD 0) } ∧ g'.flow = g.flow
         ∧ g'.trap = { g.trap with
             pc := if r = 0x021 then x else g.trap.pc
             queue := if r = 0x024 then g.trap.queue.take x.toNat else g.trap.queue
             qix := if r = 0x026 then x &&& 0x7FF8 else g.trap.qix })
     ∧ (r = 0x051 → s.context g.place.ctx ≠ none →
       ∃ t, exec (.wrsr r d sw) s = .next t ∧ t.irqOf g.place.ctx = { s.irqOf g.place.ctx with mask := x } ∧ t.mem = s.mem ∧ ∀ c, c ≠ g.place.ctx → t.context c = s.context c))

/-- The events of the system registers. A write of EINJ in a debuggable context, of a legal kind and target, keeps the bits the register has and arms it; kind 1 flips the named bit of a vector register
and kind 2 of an accumulator word at once, and both disarm it; in any other context, or with a target outside the group's state, nothing happens (17 R424). A read of TRAPQ or SLOTTOTAL and a write
of TRAPQLEN, USTAT or UIMASK do what `rdsr` and `wrsr` do (07 R221).
Completion: `exec` answers a next state for trapqRead, slottotalRead, trapqlenWrite, ustatUsplitClear, uimaskWrite, einjWrite. -/
def Obligations.SystemRegisterEventsComplete : Prop :=
  (∀ (s : State) (gi : Nat) (g : Group) (x : Word64), s.group gi = some g →
    let v := x &&& 0x80F3FFFFFFFFFFFF#64
    let kind := field 52 4 v
    (s.debuggable g.place.ctx = false ∨ s.einjRefused g v = true → exec (.einjWrite gi x) s = .next s)
    ∧ (s.debuggable g.place.ctx = true → s.einjRefused g v = false →
      ∃ t g', exec (.einjWrite gi x) s = .next t ∧ t.group gi = some g' ∧ t = { s with groups := t.groups, blks := t.blks } ∧ (∀ k, k ≠ gi → t.group k = s.group k)
        ∧ g'.regs = { g.regs with einj := if v.getLsbD 63 = true ∧ (kind = 1 ∨ kind = 2) then setBit v 63 false else v }
        ∧ (∀ L n, L < g.threads.length → L < 64 → (g'.thread L).vreg n
            = if v.getLsbD 63 = true ∧ kind = 1 ∧ L = (field 11 6 v).toNat ∧ n = (field 0 6 v).toNat
              then (g.thread L).vreg n ^^^ BitVec.ofNat 32 (2 ^ (field 6 5 v).toNat) else (g.thread L).vreg n)
        ∧ (v.getLsbD 63 = false ∨ kind ≠ 2 → t.blks = s.blks)))
  ∧ ∀ (s : State) (gi : Nat) (g : Group) (d : BitVec 8) (x : BitVec 64), s.group gi = some g →
    (∃ t g', exec (.trapqRead gi d) s = .next t ∧ t.group gi = some g' ∧ g'.sget d.toNat = (if d = 0 then 0 else g.queueWord g.trap.qix.toNat)
      ∧ g'.trap = { g.trap with qix := (g.trap.qix + 8) &&& 0x7FF8 } ∧ g'.threads = g.threads ∧ t = { s with groups := t.groups })
    ∧ (∃ t g', exec (.slottotalRead gi d) s = .next t ∧ t.group gi = some g' ∧ g'.trap = g.trap ∧ g'.threads = g.threads
      ∧ g'.sget d.toNat = (if d = 0 ∨ s.debuggable g.place.ctx = false then 0 else BitVec.ofNat 64 s.clocks)
      ∧ (t.part g.partIndex).slotSnap = (if s.debuggable g.place.ctx = true then s.slotCounters g.partIndex else (s.part g.partIndex).slotSnap) ∧ t.mem = s.mem)
    ∧ (∃ t, exec (.trapqlenWrite gi x) s = .next t ∧ t.group gi = some { g with trap := { g.trap with queue := g.trap.queue.take x.toNat } } ∧ t = { s with groups := t.groups })
    ∧ (∃ t, exec (.ustatUsplitClear gi) s = .next t ∧ t.group gi = some { g with regs := { g.regs with usplit := false } } ∧ t = { s with groups := t.groups })
    ∧ (s.context g.place.ctx ≠ none → ∃ t, exec (.uimaskWrite gi x) s = .next t ∧ t.irqOf g.place.ctx = { s.irqOf g.place.ctx with mask := x } ∧ t.mem = s.mem)

/-- `brk` and `trap` take their trap, once the bundle's older instructions have completed: cause 0x1006 or 0x1007, the code operand in TRAPADDR, the instruction in the queue as completed on its lanes, the bundle at TRAPVEC with traps masked,
and no register, no byte of memory and no other group changed (08 R237, 12 R344, R348). A word that is no instruction does so with 0x1001, its word and the failed check in TRAPADDR (18 R434, R437). `rett` in a handler ends it: the threads of the trapped bundle that still live stand at the resume point (the place after the youngest kept entry, else TRAPPC), the kept entries are to be issued
again, before entries of an earlier return, the queue is empty and traps are unmasked (12 R346). Outside a handler it is an illegal operand of kind 8.
`tmask` masks traps; `tunmask` unmasks them, except in a handler (12 R348).
Completion: `exec` answers a next state for reservedEncoding, brk, trap, rett, tmask, tunmask. -/
def Obligations.TrapInstructionsEnterAndLeaveTheHandler : Prop :=
  (∀ (s : State) (is : Issue) (sel : Sel) (g : Group) (c : BitVec 8) (sw : Bool) (w : BitVec 32) (k : BitVec 4), Issues s is sel g → g.trap.tmasked = false →
     s.unfinished sel.g g sel.bundle = false →
     (s.dbg.armBrk = false → Traps (.brk c sw) s is sel g 0x1006 (zext 64 c) sel.mask sel.mask)
     ∧ Traps (.trap c sw) s is sel g 0x1007 (zext 64 c) sel.mask sel.mask
     ∧ Traps (.reservedEncoding w k) s is sel g 0x1001 (0#28 ++ k ++ w) sel.mask 0)
  ∧ ((∀ (s : State) (is : Issue) (sel : Sel) (g : Group) (sw : Bool), Issues s is sel g →
     (g.trap.inHandler = true → ∃ t g', exec (.rett sw) s = .next t ∧ OnlyGroup s t sel g g' sw ∧ g'.regs = g.regs ∧ t = { s with groups := t.groups, agenda := t.agenda, issue := none }
       ∧ g'.trap = { g.trap with queue := [], qix := 0, bundle := 0, held := false, inHandler := false, tmasked := false }
       ∧ g'.flow = { g.flow with inject := g.trap.queue, injectMask := g.trap.bundle, reissue := g.flow.inject.map (fun e => (g.flow.injectMask, e)) ++ g.flow.reissue }
       ∧ ∀ L, L < g.threads.length → (g'.thread L).v = (g.thread L).v ∧ (g'.thread L).lnk = (g.thread L).lnk
           ∧ ((g.trap.bundle &&& g.live).getLsbD L = true → (g'.thread L).pc = g.trap.resume L ∧ (g'.thread L).wait = .none))
     ∧ (g.trap.inHandler = false → g.trap.tmasked = false → s.unfinished sel.g g sel.bundle = false → Traps (.rett sw) s is sel g 0x1002 0x800 sel.mask 0))
   ∧ ∀ (s : State) (is : Issue) (sel : Sel) (g : Group) (sw : Bool), Issues s is sel g →
     (∃ t g', exec (.tmask sw) s = .next t ∧ OnlyGroup s t sel g g' sw ∧ Advanced is sel g g' ∧ g'.regs = g.regs ∧ g'.flow = g.flow ∧ g'.trap = { g.trap with tmasked := true }
       ∧ t = { s with groups := t.groups, agenda := t.agenda, issue := none })
     ∧ (∃ t g', exec (.tunmask sw) s = .next t ∧ OnlyGroup s t sel g g' sw ∧ Advanced is sel g g' ∧ g'.regs = g.regs ∧ g'.flow = g.flow
       ∧ g'.trap = { g.trap with tmasked := g.trap.tmasked && g.trap.inHandler } ∧ t = { s with groups := t.groups, agenda := t.agenda, issue := none }))

/-- An integer vector or uniform instruction whose registers fail a check takes, once the bundle's older instructions have completed, the trap of the first failed one, in the order operands (0x1002), segment hazard (0x1008), poison (0x100A), and
writes nothing (18 R434, R435, 19 R441, R451). -/
def Obligations.FailedOperandChecksTrap : Prop :=
  ∀ (d a b c : BitVec 6) (p q : BitVec 2) (u ud ub : BitVec 8) (i10 : BitVec 10) (i12 : BitVec 12) (i5 : BitVec 5) (i6 : BitVec 6) (i16 : BitVec 16) (sw : Bool) (s : State) (is : Issue)
    (sel : Sel) (g : Group) (st : Stop), Issues s is sel g → g.trap.tmasked = false → s.unfinished sel.g g sel.bundle = false →
    (∀ r ∈ integerRows d a b c p q u i10 i5 i16 sw, firstStop [operandStop g sel.mask r.use, hazardStop g sel.bundle r.use, poisonStop g sel.mask r.use] = some st →
      (st.code = 0x1002 ∨ st.code = 0x1008 ∨ st.code = 0x100A) ∧ Traps r.instr s is sel g st.code st.addr st.mask 0)
    ∧ ∀ r ∈ uniformRows ud ub i12 i6 i16 sw, firstStop [operandStop g sel.mask r.use, hazardStop g sel.bundle r.use, poisonStop g sel.mask r.use] = some st →
      (st.code = 0x1002 ∨ st.code = 0x1008 ∨ st.code = 0x100A) ∧ Traps r.instr s is sel g st.code st.addr st.mask 0

/-- A fetch that fails takes its trap, once the bundle's older instructions have completed, with an empty queue, TRAPADDR the address of the halfword that failed (18 R431, 19 R443).
Completion: `exec` answers a next state for fetchFault. -/
def Obligations.FetchFaultEntersTheHandler : Prop :=
  ∀ (s u : State) (is : Issue) (sel : Sel) (g : Group) (f : FetchStop), s.issue = some is → is.sels = [sel] → s.group sel.g = some g →
    s.fetch g.place.core g.place.ctx g.code is.pc = (u, .error f) → u.group sel.g = some g → g.runOn sel.bundle = none → u.unfinished sel.g g sel.bundle = false → g.trap.tmasked = false →
    routeOf f.code = .trap →
    ∃ t g', exec .fetchFault s = .next t ∧ t.group sel.g = some g' ∧ TrapTaken g g' sel.bundle f.code is.pc f.addr sel.mask [] ∧ t.mem = u.mem
      ∧ ∀ k, k ≠ sel.g → t.group k = u.group k

/-- While traps are masked a condition does not enter the handler, once the bundle's older instructions have completed: the group is saved as Escalated, its trap frame is kept as it was, and the nested code, PC and lanes are recorded (19 R446).
A condition with a numbered route holds the group for its disposition instead: the frame is written, the threads stay where they are with an empty segment write set, and the condition's record is written (18 R433, 19 R444). -/
def Obligations.ConditionsEscalateOrHold : Prop :=
  (∀ (s : State) (is : Issue) (sel : Sel) (g : Group) (c : BitVec 8) (sw : Bool), Issues s is sel g → g.trap.tmasked = true → s.unfinished sel.g g sel.bundle = false →
    ∃ t g', exec (.trap c sw) s = .next t ∧ t.group sel.g = some g' ∧ g'.st = .saving 2 ∧ g'.trap.cause = g.trap.cause ∧ g'.trap.pc = g.trap.pc
      ∧ g'.trap.nested = some { code := 0x1007, pc := is.pc, mask := sel.mask, done := sel.mask, bundle := sel.bundle } ∧ g'.regs = g.regs ∧ g'.threads = g.threads
      ∧ .groupSaveComplete sel.g ∈ t.agenda ∧ t.mem = s.mem ∧ ∀ k, k ≠ sel.g → t.group k = s.group k)
  ∧ ∀ (s : State) (gi : Nat) (g : Group) (B : Mask) (st : Stop) (pc : Word64) (q : List ReplayEntry), s.group gi = some g → g.trap.tmasked = false → st.holds = true →
    ∃ g', (s.takeStop gi B st pc q).group gi = some g' ∧ g'.trap.held = true ∧ g'.trap.inHandler = g.trap.inHandler ∧ g'.trap.tmasked = false ∧ g'.trap.cause = zext 64 st.code ∧ g'.trap.pc = pc
      ∧ g'.trap.addr = st.addr ∧ g'.trap.mask = st.mask ∧ g'.trap.queue = q ∧ g'.trap.bundle = B ∧ g'.regs = g.regs
      ∧ g'.threads.length = g.threads.length ∧ (∀ L, L < g.threads.length → L < 64 → g'.thread L = { g.thread L with seg := [] })
      ∧ (s.takeStop gi B st pc q).mem = s.mem ∧ ∀ k, k ≠ gi → (s.takeStop gi B st pc q).group k = s.group k

/-! ### Translation and memory instructions -/

/-- A translation gives the physical address of the leaf that maps the virtual one, when the leaf permits the access, and sets ACCESSED (and DIRTY on a write) in the leaf's entry in memory,
changing no other byte; one that is not permitted gives its fault and changes nothing (03 R96-R100). The leaf is that of the core's TLB, else of its die's, else of the walk (03 R110).
The walk reads the entry of each level at its index; three table pointers and a leaf give the leaf of the fourth level; an entry that is not valid is a fault. -/
def Obligations.TranslationFollowsTheLeaf : Prop :=
  (∀ (s : State) (core ctx V : Nat) (n : Need) (l : Leaf), s.leafVia core ctx V = .ok l →
    (∀ f, l.check n = some f → s.translate core ctx V n = (s, .error f))
    ∧ (l.check n = none → ∃ t, s.translate core ctx V n = (t, .ok (l.phys V, l))
        ∧ (∀ a, a < l.place V ∨ l.place V + 8 ≤ a → t.byteAt a = s.byteAt a)
        ∧ BitVec.ofNat 64 (t.readPhys (l.place V) 8) = (BitVec.ofNat 64 (s.readPhys (l.place V) 8) ||| 0x40#64 ||| (if n.write then 0x80#64 else 0))))
  ∧ (∀ (s : State) (core ctx V : Nat), s.leafVia core ctx V = (match tlbFind (s.coreAt core).l1tlb ctx V with
      | some l => .ok l
      | none => match tlbFind (s.die (core / 48)).tlb ctx V with
        | some l => .ok l
        | none => (s.walk ctx V).map (fun l => l.widen s.mem)))
  ∧ ∀ (s : State) (ctx V : Nat) (c : Context), s.context ctx = some c → c.table ≠ 0 →
    let rd := fun (a : Nat) => BitVec.ofNat 64 (bytesFrom s.mem a 8)
    let a0 := c.table + 8 * (V / 2 ^ 39 % 2 ^ 18)
    let a1 := ptePA (rd a0) + 8 * (V / 2 ^ 30 % 512)
    let a2 := ptePA (rd a1) + 8 * (V / 2 ^ 21 % 512)
    let a3 := ptePA (rd a2) + 8 * (V / 2 ^ 12 % 512)
    let points := fun (a : Nat) => pteValid (rd a) = true ∧ pteLeaf (rd a) = false ∧ inDram (ptePA (rd a)) = true ∧ pteC64 (rd a) = false
      ∧ (ptePin (rd a) ≠ 0 → pteHome (rd a) = 1) ∧ (pteHome (rd a) = 1 → ptePin (rd a) < 192)
    ((pteValid (rd a0) = false → s.walk ctx V = .error .notMapped)
     ∧ (points a0 → points a1 → points a2 → pteValid (rd a3) = true → pteLeaf (rd a3) = true → leafMalformed 3 (rd a3) = false →
         s.walk ctx V = .ok { entry := rd a3, level := 3, at_ := a3 })
     ∧ (points a0 → points a1 → points a2 → pteValid (rd a3) = false → s.walk ctx V = .error .notMapped))

/-- `ld`, `ld.acq` and `ld.con` complete (10 R276-R280, R284).
Completion: `exec` answers a next state for ld, ldAcq, ldCon. -/
def Obligations.LoadsComplete : Prop :=
  ∀ (d a : BitVec 6) (w : BitVec 3) (o9 : BitVec 9) (q : BitVec 2) (o6 : BitVec 6) (sw : Bool), ∀ r ∈ loadRows d a w o9 q o6 sw, r.Completes

/-- `st` completes: each lane's data is written at its physical address, sector by sector in ascending thread index, or waits with its sector for write ownership (10 R279, R280); no other byte
changes, and no register. A store that waited performs when ownership arrives. Of both, where no finding of a checker stops a group meanwhile (20 R469).
Completion: `exec` answers a next state for ownershipArrival, st. -/
def Obligations.StoresWriteTheirLanes : Prop :=
  (∀ (b a : BitVec 6) (w : BitVec 3) (o : BitVec 9) (sw : Bool) (s : State) (is : Issue) (sel : Sel) (g : Group), Issues s is sel g → OperandsOk g sel (useStore b a w) → Plain s sel g →
    let l := pairAddrs (useStore b a w) is sel g o (sizeOf_ w)
    Reachable s is sel g (sizeOf_ w) l →
    let x := landing s is sel g { write := true } l
    let st := laneStores g b a w x.2.2
    x.2.1 = [] → Undisturbed s is sel (x.1.performStores g.place.core sel.g 1 0 0 none x.2.2 st) →
    ∃ t g' now, exec (.st b a w o sw) s = .next t ∧ OnlyGroup s t sel g g' sw ∧ SameModule s t ∧ t.blks = s.blks ∧ Advanced is sel g g' ∧ g'.regs = { g.regs with einj := g'.regs.einj }
      ∧ g'.trap = g.trap ∧ g'.flow = g.flow
      ∧ t.mem = (((hitSectors x.2.2).filter now).flatMap (fun k => st.filter (fun y => sectorOf y.pa == k))).foldl (fun m y => storeBytes m y.pa y.size y.x) x.1.mem
      ∧ (∀ k ∈ hitSectors x.2.2, now k = false → ∃ id p, Tab.get? id t.stores = some p ∧ p.g = sel.g ∧ p.l = st.filter (fun y => sectorOf y.pa == k) ∧ .ownershipArrival id ∈ t.agenda)
      ∧ ∀ c, (∀ y ∈ st, c < y.pa ∨ y.pa + y.size ≤ c) → t.byteAt c = x.1.byteAt c)
  ∧ ∀ (s : State) (id : Nat) (p : PendingStore), Tab.get? id s.stores = some p →
    (∀ w ∈ p.l.head?, ({ s with stores := Tab.del id s.stores }.ownSector p.core (sectorOf w.pa) false (p.home == 2)).1.groups = s.groups) →
    (∀ g, s.group p.g = some g → ∀ w ∈ p.l, g.injects w.ptr = none) →
    ∃ t, exec (.ownershipArrival id) s = .next t ∧ t.stores = Tab.del id s.stores ∧ t.groups = s.groups ∧ SameModule s t
      ∧ t.mem = p.l.foldl (fun m y => storeBytes m y.pa y.size y.x) s.mem
      ∧ ∀ c, (∀ y ∈ p.l, c < y.pa ∨ y.pa + y.size ≤ c) → t.byteAt c = s.byteAt c

/-- The uniform load and store complete: 8 bytes at one address, s[sa] plus the scaled offset, for the bundle (10 R283), where no finding of a checker stops a group meanwhile (20 R469). `lds` and `sts` complete: each active lane reads or writes its bytes of the block's scratchpad; `sts` writes in ascending thread index, and no byte of memory changes (10 R281).
Completion: `exec` answers a next state for lds, sts, sLd, sSt. -/
def Obligations.UniformAndScratchpadLoadsAndStoresComplete : Prop :=
  (∀ (d a o : BitVec 8) (sw : Bool) (s : State) (is : Issue) (sel : Sel) (g : Group), Issues s is sel g → Plain s sel g →
     let l : Addrs := [(lowestOf sel.mask, g.sget a.toNat + 8 * sext 64 o)]
     Reachable s is sel g 8 l →
     (OperandsOk g sel { ssrc := [a.toNat], sdst := [d.toNat] } →
       let x := landing s is sel g { read := true } l
       ∀ h, x.2 = ([], [h]) → regionOf h.pa ≠ 2 → ((x.1.loadSectors g.place.core sel.g 0 0 0 8 (some sel.mask) [h]).loadValue h 8).2 = false →
       Undisturbed s is sel (x.1.loadSectors g.place.core sel.g 0 0 0 8 (some sel.mask) [h]) →
       ∃ t g' e, exec (.sLd d a o sw) s = .next t ∧ OnlyGroup s t sel g g' sw ∧ SameModule s t ∧ t.blks = s.blks ∧ t.mem = x.1.mem ∧ Advanced is sel g g'
         ∧ g'.regs = { g.regs with einj := g'.regs.einj, usplit := g.regs.usplit || (sel.bundle &&& g.live != g.live) }
         ∧ g'.flow.outstanding = g.flow.outstanding ++ [e] ∧ e.kind = .load ∧ e.id = g.flow.nextId ∧ e.writes = [.s d.toNat (BitVec.ofNat 64 (bytesFrom x.1.mem h.pa 8))]
         ∧ ∃ n, s.clocks < n ∧ t.late = s.late ++ [(n, .loadDataReturn sel.g e.id)])
     ∧ (OperandsOk g sel { ssrc := [a.toNat, d.toNat] } →
       let x := landing s is sel g { write := true } l
       ∀ h, x.2 = ([], [h]) →
       let w : List LaneStore := [{ L := h.L, ptr := h.ptr, pa := h.pa, size := 8, x := (g.sget d.toNat).toNat }]
       Undisturbed s is sel (x.1.performStores g.place.core sel.g 1 0 0 (some sel.mask) [h] w) →
       ∃ t g', exec (.sSt d a o sw) s = .next t ∧ OnlyGroup s t sel g g' sw ∧ SameModule s t ∧ t.blks = s.blks ∧ Advanced is sel g g'
         ∧ g'.regs = { g.regs with einj := g'.regs.einj } ∧ g'.flow = g.flow
         ∧ (t.mem = storeBytes x.1.mem h.pa 8 (g.sget d.toNat).toNat
            ∨ (t.mem = x.1.mem ∧ ∃ id p, Tab.get? id t.stores = some p ∧ p.l = w ∧ .ownershipArrival id ∈ t.agenda))
         ∧ ∀ c, c < h.pa ∨ h.pa + 8 ≤ c → t.byteAt c = x.1.byteAt c))
  ∧ (∀ (d a : BitVec 6) (w : BitVec 3) (o : BitVec 9) (sw : Bool) (s : State) (is : Issue) (sel : Sel) (g : Group), Issues s is sel g → Plain s sel g →
     let addrs := fun (u : Use) => scratchAddrs u is sel g o (sizeOf_ w)
     let fits := fun (u : Use) => ∀ p ∈ addrs u, field 22 10 (g.gather u none p.1).a = 0 ∧ s.spot g p.2 (sizeOf_ w) ≠ none ∧ p.2.toNat % sizeOf_ w = 0
     (OperandsOk g sel (useLds d a w) → fits (useLds d a w) →
       ∃ t g' e, exec (.lds d a w o sw) s = .next t ∧ OnlyGroup s t sel g g' sw ∧ SameModule s t ∧ t.mem = s.mem ∧ Advanced is sel g g' ∧ g'.regs = g.regs ∧ g'.trap = g.trap
         ∧ g'.flow.outstanding = g.flow.outstanding ++ [e] ∧ e.kind = .load ∧ e.entry.mask = sel.mask ∧ (∃ n, s.clocks < n ∧ t.late = s.late ++ [(n, .loadDataReturn sel.g e.id)])
         ∧ ∃ po : Nat → Bool, e.writes = (s.spots g (sizeOf_ w) (addrs (useLds d a w))).flatMap (fun p =>
             laneLoad d.toNat (loadWords w (s.readScratch g.place.blk p.2 (sizeOf_ w))) p.1 ((g.gather (useLds d a w) none p.1).tv.any id) (po p.1)))
     ∧ (OperandsOk g sel (useSts d a w) → fits (useSts d a w) →
       ∃ t g', exec (.sts d a w o sw) s = .next t ∧ OnlyGroup s t sel g g' sw ∧ SameModule s t ∧ t.mem = s.mem ∧ Advanced is sel g g' ∧ g'.regs = g.regs ∧ g'.flow = g.flow ∧ g'.trap = g.trap
         ∧ t.blks = (((s.spots g (sizeOf_ w) (addrs (useSts d a w))).foldl (fun s p => s.writeScratch g.place.blk p.2 (sizeOf_ w)
             (valueOf ((g.gather (useSts d a w) none p.1).v.drop 1) % 2 ^ (8 * sizeOf_ w))) s)).blks))

/-- The atomics compute the new values of 10 R286, and the ones that are no release complete at once: each lane reads the old value, computes and writes as one step, in ascending thread index (04 R126), a `cas` whose comparison
fails writes nothing, and every site is recorded as a read-modify-write; the old value returns untainted to the destination of an `atom` (a pair for 64 bits), and a `red` writes no register. No other byte changes. All of it where no finding of a checker stops a group meanwhile (20 R469).
Completion: `exec` answers a next state for atom, atomAcq, red. -/
def Obligations.AtomicsApplyTheStatedOperations : Prop :=
  ((∀ r ∈ atomWords, ∀ (x b c : Word32), atomNew (BitVec.ofNat 4 r.1) x.toNat [b, c] = (r.2 x b c).map (·.toNat))
   ∧ ∀ r ∈ atomDoubles, ∀ (x b c : Word64),
       atomNew (BitVec.ofNat 4 r.1) x.toNat [lowWord b, highWord b, lowWord c, highWord c] = (r.2 x b c).map (·.toNat))
  ∧ (∀ (d a b : BitVec 6) (o : BitVec 4) (q : BitVec 2) (sw : Bool) (s : State) (is : Issue) (sel : Sel) (g : Group), Issues s is sel g → Plain s sel g →
     let u := useAtom d a b o
     let ur := useRed a b o
     let l := pairAddrs u is sel g (0#9) 1
     Reachable s is sel g (atomSize o) l →
     (∀ i kind sc cls, (i = .atom d a b o sw ∧ kind = 5 ∧ sc = 0 ∧ cls = 0) ∨ (i = .atomAcq d a b o q sw ∧ kind = 6 ∧ sc = g.scopeSlot q ∧ cls = s.classOf g sc) → OperandsOk g sel u →
       let x := landing s is sel g { read := true, write := true } l
       let r := atomicRun o (laneAtomics g u x.2.2) x.1.mem
       x.2.1 = [] → (∀ h ∈ x.2.2, regionOf h.pa ≠ 2 ∧ x.1.containedAt h.pa = none) →
       Undisturbed s is sel (x.1.performAtomics g.place.core sel.g kind sc cls o x.2.2 (laneAtomics g u x.2.2)).1 →
       ∃ t g' e, exec i s = .next t ∧ OnlyGroup s t sel g g' sw ∧ SameModule s t ∧ t.blks = s.blks ∧ Advanced is sel g g' ∧ g'.regs = { g.regs with einj := g'.regs.einj } ∧ g'.trap = g.trap
         ∧ t.mem = r.1 ∧ g'.flow.outstanding = g.flow.outstanding ++ [e] ∧ e.kind = .load ∧ (∃ n, s.clocks < n ∧ t.late = s.late ++ [(n, .loadDataReturn sel.g e.id)])
         ∧ e.writes = (x.2.2.zip r.2).flatMap (fun p => laneLoad d.toNat (oldWords o p.2) p.1.L false ((x.1.injectHits sel.g x.2.2).loadValue p.1 (atomSize o)).2)
         ∧ (∀ h ∈ x.2.2, ∃ v ∈ (t.coreAt g.place.core).events, v.g = sel.g ∧ v.line = some (lineOf h.pa) ∧ v.kind = kind)
         ∧ ∀ c, (∀ h ∈ x.2.2, c < h.pa ∨ h.pa + atomSize o ≤ c) → t.byteAt c = x.1.byteAt c)
     ∧ (OperandsOk g sel ur →
       let x := landing s is sel g { write := true } (pairAddrs ur is sel g (0#9) 1)
       x.2.1 = [] → (∀ h ∈ x.2.2, regionOf h.pa ≠ 2) →
       Undisturbed s is sel (x.1.performAtomics g.place.core sel.g 5 0 0 o x.2.2 (laneAtomics g ur x.2.2)).1 →
       ∃ t g', exec (.red 0 a b o q sw) s = .next t ∧ OnlyGroup s t sel g g' sw ∧ SameModule s t ∧ t.blks = s.blks ∧ Advanced is sel g g' ∧ g'.regs = { g.regs with einj := g'.regs.einj }
         ∧ g'.flow = g.flow ∧ t.mem = (atomicRun o (laneAtomics g ur x.2.2) x.1.mem).1
         ∧ (∀ h ∈ x.2.2, ∃ v ∈ (t.coreAt g.place.core).events, v.g = sel.g ∧ v.line = some (lineOf h.pa) ∧ v.kind = 5)
         ∧ ∀ c, (∀ h ∈ x.2.2, c < h.pa ∨ h.pa + atomSize o ≤ c) → t.byteAt c = x.1.byteAt c))

/-- The releases to memory wait at the gate with their lanes' stores or atomics, memory still unwritten (10 R284, R287, 05 R175): `st.rel`, `atom.rel`, `atom.ar` and a
`red` whose order bit is set, of a group whose EINJ does not let them pass, where no finding of a checker stops a group meanwhile (20 R469).
Completion: `exec` answers a next state for stRel, atomRel, atomAr, red. -/
def Obligations.MemoryReleasesWaitAtTheGate : Prop :=
  ∀ (d b a : BitVec 6) (w : BitVec 3) (q : BitVec 2) (o6 : BitVec 6) (o : BitVec 4) (sw : Bool) (s : State) (is : Issue) (sel : Sel) (g : Group), Issues s is sel g → Plain s sel g →
    g.armed 6 = false →
    let sc := g.scopeSlot q
    (OperandsOk g sel (useStore b a w) →
      let l := pairAddrs (useStore b a w) is sel g o6 (sizeOf_ w)
      let x := landing s is sel g { write := true } l
      Reachable s is sel g (sizeOf_ w) l → x.2.1 = [] → Undisturbed s is sel x.1 → HeldAtGate (.stRel b a w q o6 sw) s is sel g sw 4 sc (.store (laneStores g b a w x.2.2)) x.1.mem)
    ∧ (OperandsOk g sel (useAtom d a b o) →
      let l := pairAddrs (useAtom d a b o) is sel g (0#9) 1
      let x := landing s is sel g { read := true, write := true } l
      Reachable s is sel g (atomSize o) l → x.2.1 = [] → Undisturbed s is sel x.1 →
        HeldAtGate (.atomRel d a b o q sw) s is sel g sw 7 sc (.atomic o (some d.toNat) (laneAtomics g (useAtom d a b o) x.2.2)) x.1.mem
        ∧ HeldAtGate (.atomAr d a b o q sw) s is sel g sw 8 sc (.atomic o (some d.toNat) (laneAtomics g (useAtom d a b o) x.2.2)) x.1.mem)
    ∧ (OperandsOk g sel (useRed a b o) →
      let l := pairAddrs (useRed a b o) is sel g (0#9) 1
      let x := landing s is sel g { write := true } l
      Reachable s is sel g (atomSize o) l → x.2.1 = [] → Undisturbed s is sel x.1 → HeldAtGate (.red 1 a b o q sw) s is sel g sw 7 sc (.atomic o none (laneAtomics g (useRed a b o) x.2.2)) x.1.mem)

/-! ### Barriers, fences, releases, interrupts -/

/-- The barrier instructions complete on an object of the block (10 R294-R298): `bar.init` sets the counts and keeps the phase, `bar.expect` adds to the pending count, `bar.wait` passes when the phase
differs from its parity and else waits at the instruction, `bar.test` writes whether it differs, `bar.stat` reads LAST. An index past the block's objects is an illegal operand of kind 7.
Completion: `exec` answers a next state for barInit, barExpect, barWait, barTest, barStat. -/
def Obligations.BarrierInstructionsComplete : Prop :=
  ∀ (a b : BitVec 8) (p : BitVec 3) (sw : Bool) (s : State) (is : Issue) (sel : Sel) (g : Group), Issues s is sel g → Plain s sel g →
    let x := g.sget a.toNat
    let y := g.sget b.toNat
    let ok := fun (u : Use) => operandStop g sel.mask u = none
    (((s.manifestOf g.place.blk).map (·.objects)).getD 0 ≤ objIndex x → g.trap.tmasked = false → s.unfinished sel.g g sel.bundle = false → ok { ssrc := [a.toNat, b.toNat] } →
      Traps (.barExpect a b sw) s is sel g 0x1002 (operandAddr 7 (objIndex x)) sel.mask 0)
    ∧ ∀ q, objIndex x < ((s.manifestOf g.place.blk).map (·.objects)).getD 0 → s.barSpot g x = some q → x.toNat % 32 = 0 → s.blockPart g.place.blk q.part ≠ none →
      let o := s.readBar g.place.blk q
      let n := if b = 0 then 1 else (field 0 30 y).toNat
      let acts := fun (i : Instr) (o' : BarObj) => Acts i s is sel g sw (fun t => SameModule s t ∧ t.mem = s.mem ∧ t.readBar g.place.blk q = o'
        ∧ (∀ c k, (c ≠ g.place.blk ∨ k ≠ q.part) → t.blockPart c k = s.blockPart c k)
        ∧ ∀ c m, (c + m ≤ q.off ∨ q.off + 32 ≤ c) → t.readScratch g.place.blk { q with off := c } m = s.readScratch g.place.blk { q with off := c } m)
      (ok { ssrc := [a.toNat, b.toNat] } →
        (field 0 30 y ≠ 0 → field 30 2 y = 0 → field 33 31 y = 0 → s.engineOps g.place.blk q = 0 →
          acts (.barInit a b sw) { pending := (field 0 30 y).toNat, control := field 0 30 y ++ field 32 1 y ++ ofBool 1 o.phase, last := 0, acc := 0 })
        ∧ (n ≠ 0 → o.pending + n ≤ 2 ^ 30 - 1 → acts (.barExpect a b sw) { o with pending := o.pending + n })
        ∧ (o.phase ≠ bit y 0 → Acts (.barWait a b sw) s is sel g sw (fun t => SameModule s t ∧ t.mem = s.mem ∧ t.blks = s.blks))
        ∧ (o.phase = bit y 0 → ∃ t g', exec (.barWait a b sw) s = .next t ∧ OnlyGroup s t sel g g' sw ∧ SameModule s t ∧ t.mem = s.mem ∧ t.blks = s.blks ∧ g'.regs = g.regs ∧ g'.flow = g.flow
            ∧ g'.trap = g.trap ∧ ∀ L, L < g.threads.length →
              (if sel.bundle.getLsbD L then { g.thread L with wait := .barWait, waitOn := q.key, waitParity := bit y 0, pc := is.pc } else g.thread L).like (g'.thread L)))
      ∧ (ok { ssrc := [a.toNat, b.toNat], pdst := [p.toNat] } →
        ∃ t g', exec (.barTest a b p sw) s = .next t ∧ OnlyGroup s t sel g g' sw ∧ SameModule s t ∧ t.mem = s.mem ∧ t.blks = s.blks ∧ g'.regs = g.regs ∧ g'.flow = g.flow ∧ g'.trap = g.trap
          ∧ ∀ L, L < g.threads.length → (∃ pr, { g.thread L with pred := pr, pc := if sel.bundle.getLsbD L then is.next else (g.thread L).pc }.like (g'.thread L))
            ∧ ∀ k, k < 8 → (g'.thread L).pget k = if sel.mask.getLsbD L ∧ k = p.toNat ∧ k ≠ 7 then o.phase != bit y 0 else (g.thread L).pget k)
      ∧ (ok { ssrc := [a.toNat], sdst := [b.toNat] } → ReadsUniform (.barStat a b sw) s is sel g sw b.toNat o.last)

/-- The other releases, and the acquiring fence, wait at the gate of their core, each with its ART kind and its scope entry (05 R175, 10 R290, R295, R299, 12 R335, R338, R340, R343, R349): an arrival, `bsync`, a fence of any kind,
a task's post or signal, a user interrupt, a service call, and, in the wait of the copy engine, a kick and a stage. Nothing has happened to memory or the block yet.
Completion: `exec` answers a next state for cpyKick, cpyStage, taskPost, taskSig, uirqSend, svc, fence, barArrive, bsync. -/
def Obligations.OtherReleasesWaitAtTheGate : Prop :=
  ∀ (a b : BitVec 8) (e : BitVec 5) (k : BitVec 2) (n : BitVec 8) (sw : Bool) (s : State) (is : Issue) (sel : Sel) (g : Group), Issues s is sel g → Plain s sel g →
    let x := g.sget a.toNat
    let y := g.sget b.toNat
    let ok := fun (l : List Nat) => operandStop g sel.mask { ssrc := l } = none
    (∀ q, ok [a.toNat, b.toNat] → objIndex x < ((s.manifestOf g.place.blk).map (·.objects)).getD 0 → s.barSpot g x = some q → x.toNat % 32 = 0 →
      HeldAtGate (.barArrive a b sw) s is sel g sw 13 1 (.arrive q.part q.off (if b = 0 then 1 else (field 0 30 y).toNat)) s.mem)
    ∧ HeldAtGate (.bsync sw) s is sel g sw 13 1 .bsync s.mem
    ∧ (s.scopeValid g.place.ctx e = true → HeldAtGate (.fence e k sw) s is sel g sw (9 + k.toNat) e .fence s.mem)
    ∧ (ok [a.toNat] → x.toNat % 64 = 0 → HeldAtGate (.taskPost a sw) s is sel g sw 4 5 (.post x) s.mem)
    ∧ (ok [a.toNat] → field 12 52 x = 0 → HeldAtGate (.taskSig a sw) s is sel g sw 4 5 (.sig x) s.mem)
    ∧ (ok [a.toNat, b.toNat] → field 6 10 x = 0 → field 48 16 x = 0 →
        HeldAtGate (.uirqSend a b sw) s is sel g sw 4 (if field 32 16 x = 0xFFFF then 5 else 7) (.uirq x y) s.mem)
    ∧ HeldAtGate (.svc n sw) s is sel g sw 4 5 (.svc n) s.mem
    ∧ (ok [a.toNat, b.toNat] → y ≠ 0 → y.toNat ≤ 256 → x.toNat % 32 = 0 → x.toNat < 2 ^ 20 → x.toNat + 32 * y.toNat ≤ 4096 * s.unitsOf g.place.blk →
        HeldAs .copy (.cpyKick a b sw) s is sel g sw 15 2 (.kick x.toNat y.toNat) s.mem)
    ∧ (stageStop s sel g = none → HeldAs .copy (.cpyStage sw) s is sel g sw 15 2 .stage s.mem)

/-- A misaligned task record, a signal with high bits set, a kick of no records and an invalid scope entry trap at issue, once the bundle's older instructions have completed, in the order of 18 R435 (10 R290, R292, 12 R335, R340). -/
def Obligations.EngineOperandsAreChecked : Prop :=
  ∀ (a b : BitVec 8) (e : BitVec 5) (k : BitVec 2) (sw : Bool) (s : State) (is : Issue) (sel : Sel) (g : Group), Issues s is sel g → g.trap.tmasked = false → s.unfinished sel.g g sel.bundle = false →
    let x := g.sget a.toNat
    let ok := fun (l : List Nat) => operandStop g sel.mask { ssrc := l } = none
    (ok [a.toNat] → x.toNat % 64 ≠ 0 → Traps (.taskPost a sw) s is sel g 0x1004 x sel.mask 0)
    ∧ (ok [a.toNat] → field 12 52 x ≠ 0 → Traps (.taskSig a sw) s is sel g 0x1002 (operandAddr 7 (x.toNat % 256)) sel.mask 0)
    ∧ (ok [a.toNat, b.toNat] → g.sget b.toNat = 0 → Traps (.cpyKick a b sw) s is sel g 0x1002 (operandAddr 7 0) sel.mask 0)
    ∧ (s.scopeValid g.place.ctx e = false → Traps (.fence e k sw) s is sel g 0x1002 (operandAddr 5 e.toNat) sel.mask 0
        ∧ Traps (.scopeSet e k sw) s is sel g 0x1002 (operandAddr 5 e.toNat) sel.mask 0)
    ∧ (g.place.handler = false → Traps (.uirqWait sw) s is sel g 0x1002 (operandAddr 8 0) sel.mask 0)

/-- `scope.set` sets a slot; `kset`, `kget`, `gang.set` and `gang.get` write and read the coefficient registers and the gang; `gen.cur` and `cpy.wp` read; `ckpt`
outside a convoy only passes, and so does `prof.mark` while marks are not armed, else it writes its record; `gen.pass`, once every access of the group has performed, marks the generation as passed (10 R292, R301, 11 R303-R305, R324, 12 R337, R350). A context's generation advances by one when every live group has passed it, and what was allocated below the watermark is reclaimed; else nothing happens (03 R115, R116).
Completion: `exec` answers a next state for generationAdvance, cpyWp, gangSet, gangGet, genPass, genCur, kset, kget, scopeSet, ckpt, profMark. -/
def Obligations.GroupRegisterInstructionsAndGenerationsComplete : Prop :=
  (∀ (a d : BitVec 8) (c : BitVec 3) (k : BitVec 4) (e : BitVec 5) (q : BitVec 2) (sw : Bool) (s : State) (is : Issue) (sel : Sel) (g : Group), Issues s is sel g → Plain s sel g →
     let ok := fun (u : Use) => operandStop g sel.mask u = none
     let G := ((s.context g.place.ctx).map (·.gen)).getD 1
     (s.scopeValid g.place.ctx e = true → SetsRegs (.scopeSet e q sw) s is sel g sw { g.regs with qslot := (g.regs.qslot &&& ~~~(0x1F#32 <<< (8 * q.toNat))) ||| (zext 32 e <<< (8 * q.toNat)) })
     ∧ (ok { ssrc := [a.toNat] } → s.coefficientsBusy sel.g = false →
         ∃ t g', exec (.kset k a sw) s = .next t ∧ OnlyGroup s t sel g g' sw ∧ Advanced is sel g g' ∧ t = { s with groups := t.groups, agenda := t.agenda, issue := none } ∧ g'.flow = g.flow
           ∧ g'.trap = g.trap ∧ g'.regs = { g.regs with k := g'.regs.k } ∧ ∀ n, g'.kget n = if n = k.toNat then lowWord (g.sget a.toNat) else g.kget n)
     ∧ (ok { ssrc := [a.toNat] } → s.gangFine sel.g g (g.sget a.toNat) = true →
         ∃ t g', exec (.gangSet a sw) s = .next t ∧ OnlyGroup s t sel g g' sw ∧ Advanced is sel g g' ∧ t = { s with groups := t.groups, agenda := t.agenda, issue := none } ∧ g'.flow = g.flow
           ∧ g'.trap = g.trap ∧ g'.regs = { g.regs with gang := packGang ((t.gangGroups g (gangList (g.sget a.toNat))).map Prod.snd), gangIdx := gangList (g.sget a.toNat) })
     ∧ (ok { sdst := [d.toNat] } → ReadsUniform (.kget d k sw) s is sel g sw d.toNat (zext 64 (g.kget k.toNat)) ∧ ReadsUniform (.gangGet d sw) s is sel g sw d.toNat g.regs.gang
         ∧ ReadsUniform (.genCur d sw) s is sel g sw d.toNat G
         ∧ ReadsUniform (.cpyWp d c sw) s is sel g sw d.toNat (((s.blockPart g.place.blk g.place.bpart).map (fun p => Assoc.get c.toNat p.wp)).getD 0))
     ∧ SetsRegs (.ckpt sw) s is sel g sw g.regs
     ∧ (ok { ssrc := [a.toNat] } → s.traceArmed g.place.ctx 0 = false → SetsRegs (.profMark a sw) s is sel g sw g.regs)
     ∧ (∀ ctl i, ok { ssrc := [a.toNat] } → s.traceArmed g.place.ctx 0 = true → (s.context g.place.ctx).map (·.trace) = some ctl → s.hold g.place.core g.place.ctx = {} →
         let r := (s.modGroup sel.g (fun x => x.advance is sel)).takeIndex g.place.core g.place.ctx ctl
         let p := r.1.putRecord g.place.core g.place.ctx ctl i (traceRecord 1 g 0 (s.clkOf (dieOfCore g.place.core)) is.pc (g.sget a.toNat &&& 0xFFFF))
         r.2 = .taken i → p.2 = true → Acts (.profMark a sw) s is sel g sw (fun t => t.mem = p.1.mem ∧ t.ctxs = p.1.ctxs ∧ t.blks = s.blks ∧ t.cores = p.1.cores))
     ∧ (s.unperformed sel.g g = false →
         ∃ t g', exec (.genPass sw) s = .next t ∧ t.group sel.g = some g' ∧ (∀ n, n ≠ sel.g → t.group n = s.group n) ∧ g'.sched.passed = G ∧ Advanced is sel g g' ∧ g'.regs = g.regs ∧ g'.trap = g.trap
           ∧ g'.flow = g.flow ∧ t = { s with groups := t.groups, agenda := t.agenda, issue := none }))
  ∧ (∀ (s : State) (ctx : Nat) (c : Context), s.context ctx = some c →
     let w := s.watermark ctx c.gen
     (c.gen.ult w = true → ∃ t c', exec (.generationAdvance ctx) s = .next t ∧ t.context ctx = some c' ∧ t = { s with ctxs := t.ctxs, agenda := t.agenda } ∧ (∀ k, k ≠ ctx → t.context k = s.context k)
       ∧ c' = { c with gen := c.gen + 1, allocs := c.allocs.filter (fun a => w.ule a.gen), reclaimed := c.reclaimed ++ c.allocs.filter (fun a => !w.ule a.gen) })
     ∧ (c.gen.ult w = false → exec (.generationAdvance ctx) s = .next s))

/-- A release performs once the stamps, closes and acknowledgements it waits for are in, and not before (05 R175, R178): its threads go on and it leaves the gate, then its act happens: a fence only
records its event; a signal goes to the dispatcher, a user interrupt to the target's home slice; an arrival takes from the pending count and flips the object at 0; a service call saves the group; the last `exit` of a block ends its threads.
Completion: `exec` answers a next state for releasePerform. -/
def Obligations.ReleasesPerformWhenTheyMay : Prop :=
  ∀ (s : State) (id core : Nat) (h : Held) (g : Group), s.heldRelease id = some (core, h) → s.group h.g = some g → g.place.core = core →
    (s.performable core h = false → exec (.releasePerform id) s = .next s)
    ∧ (s.performable core h = true → ∃ t, exec (.releasePerform id) s = .next t ∧ (∀ x ∈ (t.coreAt core).gate, x.id ≠ h.id)
      ∧ (h.act = .fence → t.mem = s.mem ∧ t.blks = s.blks ∧ SameModule s t
          ∧ ∃ g', t.group h.g = some g' ∧ ∀ L, L < g.threads.length → g'.thread L = { g.thread L with wait := (g'.thread L).wait }
            ∧ ((g.thread L).wait = .gate → (g.thread L).waitOn = h.id → L < 64 → (g'.thread L).wait = .none))
      ∧ (∀ x, h.act = .sig x → .counterSignal g.place.ctx (field 0 12 x) ∈ t.agenda ∧ t.mem = s.mem)
      ∧ (∀ x y, h.act = .uirq x y → field 32 16 x = 0xFFFF → .interruptArrival (field 16 16 x).toNat (field 0 6 x) y 1 (BitVec.ofNat 16 g.place.ctx) 0 ∈ t.agenda ∧ t.mem = s.mem)
      ∧ (∀ p off n, h.act = .arrive p off n → h.bundle ≠ 0 → s.blockPart g.place.blk p ≠ none → n ≠ 0 →
          let q : Spot := { part := p, off := off }
          let o := s.readBar g.place.blk q
          n ≤ o.pending → t.mem = s.mem ∧ t.readBar g.place.blk q = if o.pending = n
            then { pending := (field 2 30 o.control).toNat, control := o.control ^^^ 1#32, last := o.acc ||| 1#64, acc := 0 } else { o with pending := o.pending - n })
      ∧ (∀ n, h.act = .svc n → h.bundle ≠ 0 → ∃ g', t.group h.g = some g' ∧ g'.st = .saving 1 ∧ .groupSaveComplete h.g ∈ t.agenda ∧ g'.regs = g.regs ∧ t.mem = s.mem
          ∧ ∀ L, L < g.threads.length → L < 64 → (h.bundle &&& g.live).getLsbD L = true → (g'.thread L).wait = .svc ∧ (g'.thread L).waitOn = n.toNat)
      ∧ (h.act = .exit → h.bundle ≠ 0 → ∃ g', t.group h.g = some g' ∧ g'.regs = g.regs ∧ t.mem = s.mem
          ∧ ∀ L, L < g.threads.length → L < 64 → (g'.thread L).exited = ((g.thread L).exited || h.mask.getLsbD L) ∧ (h.mask.getLsbD L = true → (g'.thread L).pc = h.pc))
      ∧ (∀ l, h.act = .store l → (∀ x ∈ l, regionOf x.pa ≠ 2) → ∀ c, (∀ x ∈ l, c < x.pa ∨ x.pa + x.size ≤ c) → t.byteAt c = s.byteAt c))

/-- The interrupt instructions complete in a group whose role handles interrupts (12 R343; `uirq.mask` and `uirq.pend` in any): `uirq.take` takes the lowest deliverable vector, with its count and
payload, and 0 when there is none; `uirq.wait` passes when a vector is deliverable and else waits; `uirq.mask` exchanges the mask; `uirq.pend` reads the pending set; `uirq.done` ends a service. A vector
that becomes deliverable lets the waiting threads of the context's Resident groups go on. An interrupt that a sender entry of the context permits is pending: its count rises by one and stays at 65,535, its payload is the first, the last, or the union of the payloads as the vector's mode
says; the other vectors stay. One that no entry permits changes no context and no group (12 R341, R342).
Completion: `exec` answers a next state for interruptArrival, uirqWait, uirqTake, uirqMask, uirqPend, uirqDone. -/
def Obligations.InterruptInstructionsAndArrivalsComplete : Prop :=
  (∀ (a d : BitVec 8) (sw : Bool) (s : State) (is : Issue) (sel : Sel) (g : Group) (c : Context), Issues s is sel g → s.context g.place.ctx = some c →
     let b := c.irq
     let ready := fun (b : IrqBlock) => b.pending &&& ~~~b.mask &&& ~~~b.inService
     let wakes := fun (t : State) (g' : Group) (b' : IrqBlock) =>
       (ready b' = 0 → Advanced is sel g g' ∧ ∀ k, k ≠ sel.g → t.group k = s.group k)
       ∧ (ready b' ≠ 0 → ∀ k h L, k ≠ sel.g → s.group k = some h → h.place.ctx = g.place.ctx → h.st = .resident → L < h.threads.length → L < 64 → (h.thread L).wait = .uirqWait →
           (h.thread L).exited = false → ∃ h', t.group k = some h' ∧ (h'.thread L).wait = .none ∧ (h'.thread L).pc = (h.thread L).pc + 4)
     (operandStop g sel.mask { sdst := [d.toNat] } = none → ReadsUniform (.uirqPend d sw) s is sel g sw d.toNat b.pending)
     ∧ (operandStop g sel.mask { ssrc := [a.toNat], sdst := [d.toNat] } = none → ∃ t g', exec (.uirqMask d a sw) s = .next t ∧ t.group sel.g = some g' ∧ t.mem = s.mem
         ∧ g'.sget d.toNat = (if d = 0 then 0 else b.mask) ∧ (∀ n, n ≠ d.toNat → g'.sget n = g.sget n) ∧ t.irqOf g.place.ctx = { b with mask := g.sget a.toNat }
         ∧ wakes t g' { b with mask := g.sget a.toNat } ∧ ∀ k, k ≠ g.place.ctx → t.context k = s.context k)
     ∧ (g.place.handler = true →
       (ready b ≠ 0 → SetsRegs (.uirqWait sw) s is sel g sw g.regs)
       ∧ (ready b = 0 → ∃ t g', exec (.uirqWait sw) s = .next t ∧ OnlyGroup s t sel g g' sw ∧ g'.regs = g.regs ∧ t = { s with groups := t.groups, agenda := t.agenda, issue := none }
           ∧ ∀ L, L < g.threads.length → (if sel.bundle.getLsbD L then { g.thread L with wait := .uirqWait, pc := is.pc } else g.thread L).like (g'.thread L))
       ∧ (operandStop g sel.mask { ssrc := [a.toNat] } = none → ∃ t g', exec (.uirqDone a sw) s = .next t ∧ t.group sel.g = some g' ∧ t.mem = s.mem ∧ g'.regs = g.regs
           ∧ t.irqOf g.place.ctx = { b with inService := setBit b.inService ((g.sget a.toNat).toNat % 64) false }
           ∧ wakes t g' { b with inService := setBit b.inService ((g.sget a.toNat).toNat % 64) false })
       ∧ (operandStop g sel.mask { sdst := [d.toNat, d.toNat + 1] } = none →
         (ready b = 0 → ReadsUniform (.uirqTake d sw) s is sel g sw d.toNat 0)
         ∧ ∀ v, v < 64 → (ready b).getLsbD v = true → (∀ k, k < v → (ready b).getLsbD k = false) →
           ∃ t g', exec (.uirqTake d sw) s = .next t ∧ OnlyGroup s t sel g g' sw ∧ Advanced is sel g g' ∧ t.mem = s.mem
             ∧ g'.sget d.toNat = (if d = 0 then 0 else 1#1 ++ 0#39 ++ (b.vector v).count ++ BitVec.ofNat 8 v) ∧ g'.sget (d.toNat + 1) = (b.vector v).payload
             ∧ (∀ n, n ≠ d.toNat → n ≠ d.toNat + 1 → g'.sget n = g.sget n)
             ∧ (let b' := t.irqOf g.place.ctx
                b'.pending = setBit b.pending v false ∧ b'.inService = setBit b.inService v true ∧ b'.mask = b.mask ∧ b'.senders = b.senders
                ∧ b'.vector v = { b.vector v with count := 0, payload := 0 } ∧ ∀ k, k ≠ v → b'.vector k = b.vector k))))
  ∧ (∀ (ctx : Nat) (v : BitVec 6) (x : BitVec 64) (kind : BitVec 2) (sender dev : BitVec 16) (s : State) (c : Context), s.context ctx = some c →
     let b := c.irq
     let w := b.vector v.toNat
     let acknowledged := if kind = 3 then [{ dev := dev, value := some 0 }] else []
     (b.accepts v kind sender dev = true → ∃ t, exec (.interruptArrival ctx v x kind sender dev) s = .next t ∧ t.mem = s.mem ∧ t.replies = s.replies ++ acknowledged ∧ (∀ k, k ≠ ctx → t.context k = s.context k)
       ∧ (let b' := t.irqOf ctx
          b'.pending = setBit b.pending v.toNat true ∧ b'.mask = b.mask ∧ b'.inService = b.inService ∧ b'.senders = b.senders ∧ (∀ k, k ≠ v.toNat → b'.vector k = b.vector k)
          ∧ b'.vector v.toNat = { w with
              count := if w.count = 0xFFFF then 0xFFFF else w.count + 1
              payload := if w.mode = 0 then (if w.count = 0 then x else w.payload) else if w.mode = 1 then x else if w.mode = 2 then w.payload ||| x else w.payload }))
     ∧ (b.accepts v kind sender dev = false → ∃ t, exec (.interruptArrival ctx v x kind sender dev) s = .next t ∧ t.ctxs = s.ctxs ∧ t.groups = s.groups ∧ t.mem = s.mem ∧ t.replies = s.replies ++ acknowledged))

/-- The cache instructions complete on the sectors of their range that translate (10 R300): they move no byte and no register. After `cache.wb` no sector of the range is dirty in the core's L1, nor, at
device scope, in the L2; after `cache.inv` the core's L1 holds no unpinned one, and the group fetches what memory holds there (04 R146); after `cache.pf2` of one cacheable sector with a way of its set free the L2 holds it;
after `cache.pf` of one the core's L1 holds it too. All of it where no engine owns a sector of the range (03 R108) and no finding of a checker stops a group meanwhile (20 R469).
Completion: `exec` answers a next state for cacheWb, cacheInv, cachePf, cachePf2. -/
def Obligations.CacheInstructionsComplete : Prop :=
  ∀ (a b : BitVec 8) (x : BitVec 3) (sw : Bool) (s : State) (is : Issue) (sel : Sel) (g : Group), Issues s is sel g → operandStop g sel.mask { ssrc := [a.toNat, b.toNat] } = none →
    (g.sget b.toNat).toNat ≤ 1048576 → pointerForm (g.sget a.toNat) = true →
    let r := (s.modGroup sel.g (fun y => y.advance is sel)).cacheRange g (g.sget a.toNat) (g.sget b.toNat)
    (∀ k ∈ r.2, r.1.engineOwns k.1 = false) →
    let quiet := fun (f : SectorAct) => Undisturbed s is sel (r.1.cacheSectors f sel.g (g.advance is sel) r.2)
    let acts := fun (i : Instr) (more : State → Prop) => Acts i s is sel g sw (fun t => SameModule s t ∧ t.blks = s.blks ∧ t.mem = r.1.mem ∧ more t)
    let room := fun (k : Nat × BitVec 2) => ((r.1.bank (k.1 / 4)).ways (k.1 / 4)).length < 16 ∧ (k.2 = 2 → r.1.pinFits (k.1 / 4) = true)
    (quiet (wbSector x) → acts (.cacheWb a b x sw) (fun t => ∀ k ∈ r.2, (∀ l, (t.coreAt g.place.core).l1Line k.1 = some l → l.st ≠ .m ∧ l.st ≠ .o)
        ∧ (x = 1 → (t.line (k.1 / 4)).dirty.getLsbD (k.1 % 4) = false)))
    ∧ (quiet pf2Sector → acts (.cachePf2 a b sw) (fun t => ∀ k, r.2 = [k] → r.1.cacheable k = true → room k → (t.line (k.1 / 4)).valid &&& sectorBit k.1 ≠ 0))
    ∧ (quiet pfSector → acts (.cachePf a b sw) (fun t => ∀ k, r.2 = [k] → r.1.cacheable k = true → room k → (t.line (k.1 / 4)).contained = none → t.holdsSector g.place.core k.1 = true))
    ∧ ∀ c, (r.1.cacheSectors (invSector x) sel.g (g.advance is sel) r.2).groups
          = (s.modGroup sel.g (fun y => { y.advance is sel with code := c })).groups →
        ∃ t g', exec (.cacheInv a b x sw) s = .next t ∧ t.group sel.g = some { g' with code := c } ∧ OnlyGroup s (t.modGroup sel.g (fun y => { y with code := g.code })) sel g g' sw
          ∧ Advanced is sel g g' ∧ g'.regs = g.regs ∧ g'.flow = g.flow ∧ g'.trap = g.trap ∧ SameModule s t ∧ t.blks = s.blks ∧ t.mem = r.1.mem
          ∧ (∀ k ∈ r.2, (∀ l, (r.1.coreAt g.place.core).l1Line k.1 = some l → l.pinned = false) → (t.coreAt g.place.core).l1Line k.1 = none)
          ∧ ((∀ o ∈ r.1.oldCode, o.epoch ≤ r.1.epoch) → ∀ k ∈ r.2, ∀ pa, sectorOf pa = k.1 → t.codeByte c pa = t.byteAt pa)

/-- `acc.ld` and `acc.st` complete on a slab of the block that no operation uses and whose words are free of errors (11 R309, R326): the words of each thread's granule, or packed in pairs in a 16-bit
format, become its registers; and back, in ascending thread index; no other slab word changes. A slab number past the block's slabs is an illegal operand of kind 4.
Completion: `exec` answers a next state for accLd, accSt. -/
def Obligations.SlabLoadsAndStoresComplete : Prop :=
  ∀ (v : BitVec 6) (slab : BitVec 9) (q : BitVec 2) (f : BitVec 3) (sw : Bool) (s : State) (is : Issue) (sel : Sel) (g : Group), Issues s is sel g →
    let ul : Use := { vdst := [(v.toNat, if f = 0 then 16 else 8)] }
    let us : Use := { vsrc := [{ reg := v.toNat, cnt := if f = 0 then 16 else 8 }] }
    let gran := fun (L : Nat) => 64 * slab.toNat + 16 * q.toNat + L % 16
    (s.slabsOf g.place.blk ≤ slab.toNat → g.trap.tmasked = false → s.unfinished sel.g g sel.bundle = false → Traps (.accSt v slab q f sw) s is sel g 0x1002 (operandAddr 4 slab.toNat) sel.mask 0)
    ∧ ∀ p, slab.toNat < s.slabsOf g.place.blk → s.slabBusy g slab.toNat true = false → s.blockPart g.place.blk g.place.bpart = some p → p.slabErr = [] →
      let words := fun (p : BlockPart) (L : Nat) => (List.range 16).map (fun m => Assoc.get (16 * gran L + m) p.slabs)
      (operandStop g sel.mask ul = none → hazardStop g sel.bundle ul = none → (∀ L ∈ maskList sel.mask, ¬ gran L ∈ p.slabPoison) →
        ∃ t g' o, exec (.accLd v slab q f sw) s = .next t ∧ Performed s t sel g g' sw [.vectorWriteback sel.g g.flow.nextId 0] ∧ Advanced is sel g g' ∧ g'.regs = g.regs
          ∧ g'.flow = { g.flow with outstanding := g.flow.outstanding ++ [o], nextId := g.flow.nextId + 1 } ∧ o.id = g.flow.nextId ∧ o.bundle = sel.bundle
          ∧ o.writes = (maskList sel.mask).flatMap (fun L =>
              (if f = 0 then words p L else (List.range 8).map (fun m => toHalf f ((words p L).getD (2 * m + 1) 0) ++ toHalf f ((words p L).getD (2 * m) 0))).zipIdx.map
                (fun e => .v L (v.toNat + e.2) e.1 false false)))
      ∧ (operandStop g sel.mask us = none → hazardStop g sel.bundle us = none →
        Acts (.accSt v slab q f sw) s is sel g sw (fun t => t = { s with groups := t.groups, blks := t.blks, agenda := t.agenda, issue := none }
          ∧ (∀ c k, (c ≠ g.place.blk ∨ k ≠ g.place.bpart) → t.blockPart c k = s.blockPart c k)
          ∧ ∃ p', t.blockPart g.place.blk g.place.bpart = some p' ∧ p' = { p with slabs := p'.slabs, slabPoison := p'.slabPoison, slabErr := p'.slabErr }
            ∧ (∀ n, (∀ L ∈ maskList sel.mask, n / 16 ≠ gran L) → Assoc.get n p'.slabs = Assoc.get n p.slabs)
            ∧ ∀ L ∈ maskList sel.mask, (∀ K ∈ maskList sel.mask, K % 16 = L % 16 → K ≤ L) →
                words p' L = (let rs := (g.gather us none L).v
                  if f = 0 then rs else rs.flatMap (fun r => [fromHalf f (r.extractLsb' 0 16), fromHalf f (r.extractLsb' 16 16)]))))

/-- A channel with no record to take does nothing; it takes a well-formed record and starts its first segment; a malformed one leaves the queue, with no access (12 R334, R336). `cpy.cancel` withdraws every record of the block kicked on the core and gives their number (12 R339); here none of them is in flight.
Completion: `exec` answers a next state for copyRecordStart, cpyCancel. -/
def Obligations.CopyChannelsTakeAndCancelRecords : Prop :=
  (∀ (s : State) (core ch : Nat),
     (s.nextRecord core ch = none → exec (.copyRecordStart core ch) s = .next s)
     ∧ ∀ k r, s.nextRecord core ch = some (k, r) →
       let r' := { r with chCore := core, ch := ch, active := true }
       (s.copyOk r' = true → ∃ t, exec (.copyRecordStart core ch) s = .next t ∧ Tab.get? k t.copies = some r' ∧ (∀ n, n ≠ k → Tab.get? n t.copies = Tab.get? n s.copies)
         ∧ .copySegmentCredit core ch ∈ t.agenda ∧ t.mem = s.mem ∧ t.groups = s.groups)
       ∧ (s.copyOk r' = false → ∃ t, exec (.copyRecordStart core ch) s = .next t ∧ Tab.get? k t.copies = none ∧ (∀ n, n ≠ k → Tab.get? n t.copies = Tab.get? n s.copies)
         ∧ t.mem = s.mem))
  ∧ (∀ (d : BitVec 8) (sw : Bool) (s : State) (is : Issue) (sel : Sel) (g : Group), Issues s is sel g → operandStop g sel.mask { sdst := [d.toNat] } = none →
     (∀ e ∈ s.copies, e.2.active = false ∧ e.2.remote = []) →
     ∃ t g', exec (.cpyCancel d sw) s = .next t ∧ t.group sel.g = some g' ∧ g'.sget d.toNat = (if d = 0 then 0 else BitVec.ofNat 64 (s.blockCopies g.place.blk g.place.core).length)
       ∧ (∀ n, n ≠ d.toNat → g'.sget n = g.sget n) ∧ t.mem = s.mem ∧ t.copies = s.copies.filter (fun e => ¬ ∃ x ∈ s.blockCopies g.place.blk g.place.core, x.1 = e.1))

/-- A segment moves at most 256 bytes of its row from the source to the destination and is credited (12 R332, R333): to memory, piece by piece, or to scratchpad, where the poisoned bytes of the source
are zeros (20 R479); the record goes on with the next segment or, after its last, leaves the queue. An access that fails holds the record, with no byte written.
Completion: `exec` answers a next state for copySegmentCredit. -/
def Obligations.CopySegmentsMoveAndCredit : Prop :=
  ∀ (s : State) (core ch k : Nat) (r : CopyRecord), s.activeOn core ch = some (k, r) →
    (r.held = true ∨ r.remote ≠ [] ∨ r.cancel = 2 → exec (.copySegmentCredit core ch) s = .next s)
    ∧ (r.held = false → r.remote = [] → r.cancel = 0 → Tab.get? k s.copies = some r →
      let n := min 256 (r.rowBytes - r.col)
      let rowDone := r.col + n = r.rowBytes
      let r' := { r with delivered := r.delivered + n, row := if rowDone then r.row + 1 else r.row, col := if rowDone then 0 else r.col + n, remote := [] }
      let goesOn := fun (t : State) => Tab.get? k t.copies = (if r'.row = r.rows then none else some r') ∧ ∀ m, m ≠ k → Tab.get? m t.copies = Tab.get? m s.copies
      let src := s.copySource r
      (∀ c, src.2 = .inl c → c.code ≠ 0x2704 →
        ∃ t r2, exec (.copySegmentCredit core ch) s = .next t ∧ Tab.get? k t.copies = some r2 ∧ r2 = { r with held := true, heldKey := r2.heldKey } ∧ t.mem = src.1.mem ∧ t.groups = s.groups)
      ∧ ∀ d ls, src.2 = .inr (d, ls) → peerPieces ls = [] →
        (∀ p, scratchForm r.w2 = true → src.1.copySpot r r.w2 (r.dstOffset r.row + r.col) n = some p → r.bar = 0x3FFF → s.blockPart r.blk p.part ≠ none →
          ∃ t, exec (.copySegmentCredit core ch) s = .next t ∧ goesOn t ∧ t.mem = src.1.mem
            ∧ ∀ i (h : i < d.length), t.readScratch r.blk { p with off := p.off + i } 1 = if d[i].2 then 0 else d[i].1 % 256)
        ∧ (scratchForm r.w2 = false → r.kind < 4 →
          let dst := src.1.landPieces r.chCore r.ctx { write := true } (pieces (plusPtr r.w2 (r.dstOffset r.row + r.col)) n)
          ∀ l, dst.2 = .inr l → peerPieces l = [] → dst.1.destBusy r l = false →
            ∃ t, exec (.copySegmentCredit core ch) s = .next t ∧ goesOn t
              ∧ t.mem = l.foldl (fun m x => storeBytes m x.pa x.len (dataValue ((d.drop x.off).take x.len))) dst.1.mem
              ∧ (r.bar ≠ 0x3FFF → s.blockPart r.blk r.part ≠ none →
                  let q : Spot := { part := r.part, off := 32 * r.bar }
                  let o := s.readBar r.blk q
                  n ≤ o.pending → ∃ po, (po = none ∨ po = some poisonedBit) ∧ t.readBar r.blk q = ({ o with acc := creditAcc o.acc n po (decide (r'.row = r.rows)) } : BarObj).take n)))

/-- A signal takes one from its dependence counter; the one that takes the last removes the counter and hands its task, once checked, to the block distributor of the home die as a launch; a task that fails
its check leaves the queue without a launch; a signal of no counter, or of one at 0, is recorded as 0x7A02 and changes no context, launch, group or byte of memory (02 R48, R54). A posted record takes the lowest free slot and sets its counter, or is ready at once with a
count of 0 (02 R53, 12 R340).
Completion: `exec` answers a next state for counterSignal. -/
def Obligations.CountersReleaseTasks : Prop :=
  ∀ (s : State) (ctx : Nat) (ctr : BitVec 12) (c : Context), s.context ctx = some c →
    let launched := fun (s t : State) (slot : Nat) (x : Task) =>
      (∀ m l, s.checkManifest ctx x = .ok (m, l) → ∃ id, Tab.get? id s.launches = none
        ∧ Tab.get? id t.launches = some { ctx := ctx, slot := slot, manifestAddr := x.manifest, man := m, params := l, signal := x.signal, endCounter := x.endCounter } ∧ (∀ n, n ≠ id → Tab.get? n t.launches = Tab.get? n s.launches)
        ∧ .blockDistribute (s.homeDie ctx) ∈ t.agenda)
      ∧ (∀ e, s.checkManifest ctx x = .error e → t.launches = s.launches ∧ ∃ c', t.context ctx = some c' ∧ Tab.get? slot c'.tasks = none)
    (Tab.get? ctr.toNat c.counters = none → ∃ t, exec (.counterSignal ctx ctr) s = .next t ∧ t = s.report (taskReport s ctx 0x7A02 (zext 64 ctr) 0) ∧ t.ctxs = s.ctxs ∧ t.launches = s.launches ∧ t.groups = s.groups ∧ t.mem = s.mem)
    ∧ (∀ p, Tab.get? ctr.toNat c.counters = some p →
      (p.count = 0 → ∃ t, exec (.counterSignal ctx ctr) s = .next t ∧ t = s.report (taskReport s ctx 0x7A02 (zext 64 ctr) 0))
      ∧ (1 < p.count → ∃ t, exec (.counterSignal ctx ctr) s = .next t ∧ t = { s with ctxs := t.ctxs } ∧ t.context ctx = some { c with counters := Tab.put ctr.toNat { p with count := p.count - 1 } c.counters })
      ∧ (p.count = 1 → ∃ t, exec (.counterSignal ctx ctr) s = .next t ∧ t.groups = s.groups ∧ t.mem = s.mem ∧ (∃ c', t.context ctx = some c' ∧ Tab.get? ctr.toNat c'.counters = none)
          ∧ ∀ x, Tab.get? p.slot c.tasks = some x → launched (s.modCtx ctx (fun c => { c with counters := Tab.del ctr.toNat c.counters })) t p.slot x))
    ∧ ∀ (a : Word64) (x slot : Nat), s.readVirt (s.homeDie ctx) ctx (virtOf a) 64 = .ok x → bytesAt x 16 2 < 4096 → bytesAt x 20 2 / 4096 % 8 = 0 → bytesAt x 22 42 = 0 →
      Tab.get? (bytesAt x 16 2) c.counters = none → slot < 1024 → Tab.get? slot c.tasks = none → (∀ i, i < slot → Tab.get? i c.tasks ≠ none) →
      let y : Task := { record := a, manifest := BitVec.ofNat 64 (bytesAt x 0 8), params := BitVec.ofNat 64 (bytesAt x 8 8), counter := BitVec.ofNat 12 (bytesAt x 16 2)
                        signal := if bytesAt x 20 2 / 32768 = 1 then some (BitVec.ofNat 12 (bytesAt x 20 2)) else none,
                        endCounter := BitVec.ofNat 12 (bytesAt x 20 2), initial := bytesAt x 18 2 }
      (bytesAt x 18 2 ≠ 0 → (s.postTask ctx a).context ctx
          = some { c with tasks := Tab.put slot y c.tasks, counters := Tab.put (bytesAt x 16 2) { count := bytesAt x 18 2, slot := slot } c.counters })
      ∧ (bytesAt x 18 2 = 0 → launched (s.modCtx ctx (fun c => { c with tasks := Tab.put slot y c.tasks })) (s.postTask ctx a) slot y)

/-! ### Matrix operations -/

/-- Each MX instruction of a gang joins the oldest rendezvous of its gang that its group has not reached, or opens one: its bundle waits at the instruction, and the last member's arrival lets the rendezvous be
looked at (11 R306). A group in no gang traps with an illegal operand of kind 8 (11 R307). A rendezvous completes when every member has arrived and none of what it waits for is left; then its checks end it, or it starts: the operation runs, its registers staged (11 R306, R307). The gang
timeout ends one that waits (19 R458). A running operation completes in the order of its gang: `acc.zero` leaves zeros in its tile, `mma.z` and `mma` the product of the staged operands, in chunks, on the
tile's old words (11 R316, R325). A save stops an iteration at the start of its next product (11 R323). A diverged iteration's trap 0x1104 is taken by the threads that wait (21 R510).
Completion: `exec` answers a next state for mxEvictionStop, mxRendezvous, gangTimeout, mxCompletion, iterationDivergedTrap, mma, mmaZ, mmaS, mmaF, mpoly, miter, accZero, accScale, accAdd,
accTr, accNorm, accOut, accIn. -/
def Obligations.MatrixInstructionsArriveAndRun : Prop :=
  (∀ (d : BitVec 8) (a b : BitVec 6) (sw : Bool) (s : State) (is : Issue) (sel : Sel) (g : Group), ∀ r ∈ mxRows d a b sw, Issues s is sel g → Plain s sel g →
     (gangCount g.regs.gang = 0 → g.trap.tmasked = false → s.unfinished sel.g g sel.bundle = false → Traps r.1 s is sel g 0x1002 (operandAddr 8 0) sel.mask 0)
     ∧ (gangCount g.regs.gang ≠ 0 → ∃ t g' id o x, exec r.1 s = .next t ∧ OnlyGroup s t sel g g' sw ∧ g'.regs = g.regs ∧ g'.trap = g.trap ∧ g'.flow = g.flow
         ∧ t = { s with groups := t.groups, mxops := t.mxops, nextId := t.nextId, agenda := t.agenda, issue := none } ∧ Tab.get? id t.mxops = some o ∧ (∀ k, k ≠ id → Tab.get? k t.mxops = Tab.get? k s.mxops)
         ∧ ((∃ old, Tab.get? id s.mxops = some old ∧ o = { old with arrived := old.arrived ++ [x] })
            ∨ (id = s.nextId + 1 ∧ o.arrived = [x] ∧ o.running = false ∧ o.blk = g.place.blk ∧ o.part = g.place.bpart ∧ o.ctx = g.place.ctx ∧ o.core = g.place.core))
         ∧ x.g = sel.g ∧ x.bundle = sel.bundle ∧ x.gang = g.regs.gang ∧ x.entry.word = r.2.1 ++ r.2.2.1 ++ r.2.2.2 ++ d ++ 0x3E#6 ++ ofBool 1 sw ++ 1#1 ∧ x.entry.pc = is.pc
         ∧ (o.full = true → .mxRendezvous id ∈ t.agenda)
         ∧ ∀ L, L < g.threads.length → (if sel.bundle.getLsbD L then { g.thread L with pc := is.pc, wait := .mx, waitOn := id } else g.thread L).like (g'.thread L)))
  ∧ ((∀ (s : State) (id : Nat) (o : MxOp), Tab.get? id s.mxops = some o →
     (s.mxReady id o = false → exec (.mxRendezvous id) s = .next s)
     ∧ (s.mxReady id o = true → (∀ a ∈ o.arrived, ∀ g, s.group a.g = some g → g.flow.regErrors = []) →
       (∀ e, s.mxCheck (s.readDescriptors o) = some e → ∃ t, exec (.mxRendezvous id) s = .next t ∧ Tab.get? id t.mxops = none ∧ t.blks = s.blks ∧ t.mem = s.mem)
       ∧ (s.mxCheck (s.readDescriptors o) = none → ∃ t o', exec (.mxRendezvous id) s = .next t ∧ Tab.get? id t.mxops = some o' ∧ o'.running = true ∧ o'.arrived = (s.readDescriptors o).arrived
           ∧ (∃ n, s.clocks < n ∧ (n, .mxCompletion id []) ∈ t.late) ∧ t.mem = s.mem))
     ∧ (s.gangCounts o = true → ∃ t, exec (.gangTimeout id) s = .next t ∧ Tab.get? id t.mxops = none ∧ t.blks = s.blks ∧ t.mem = s.mem)
     ∧ (s.gangCounts o = false → exec (.gangTimeout id) s = .next s)
     ∧ (o.running = false ∨ o.stopped = true → exec (.mxCompletion id []) s = .next s)
     ∧ (o.running = true → o.stopped = false → o.begun = false →
         (s.mxBehind o = true → ∃ t, exec (.mxCompletion id []) s = .next t ∧ t = { s with late := t.late } ∧ ∃ n, s.clocks < n ∧ t.late = s.late ++ [(n, .mxCompletion id [])])
         ∧ (s.mxBehind o = false → ∃ t, exec (.mxCompletion id []) s = .next t ∧ t = { s with mxops := t.mxops, agenda := t.agenda, late := t.late }
             ∧ Tab.get? id t.mxops = some { o with begun := true } ∧ ∃ n, s.clocks < n ∧ t.late = s.late ++ [(n, .mxCompletion id [])]))
     ∧ (o.running = true → o.stopped = false → o.begun = true → (o.desc.iterates = false ∨ (o.desc.fn = 4 ∧ o.desc.count = 0 ∧ o.progress.phase = 0)) → o.desc.bar = 0x3FFF → ∀ p, s.blockPart o.blk o.part = some p → p.slabErr = [] →
         ∃ t, exec (.mxCompletion id []) s = .next t ∧ Tab.get? id t.mxops = none ∧ t.mem = s.mem
           ∧ (o.desc.fn = 6 → t.tileWords o.blk o.part o.desc.ad o.edge = some (List.replicate (o.edge * o.edge) 0))
           ∧ (o.desc.fn = 4 → t.tileWords o.blk o.part o.desc.ad o.edge = some ((List.range (o.edge * o.edge)).map (fun e => if e / o.edge = e % o.edge then s.leaderK o 0 else 0)))
           ∧ (o.desc.fn ≤ 1 → o.desc.lookups o.edge = [] →
               t.tileWords o.blk o.part o.desc.ad o.edge = some (matProduct o.edge (min (chunkOf o.desc.fa) (chunkOf o.desc.fb))
                 (o.staged o.runA o.badA o.desc.fa o.desc.sca false []).rows (o.staged o.runB o.badB o.desc.fb o.desc.scb true []).rows
                 (if o.desc.fn = 1 then [] else (p.tile o.desc.ad o.edge).words)).1))
     ∧ (o.running = true → o.stopped = false → o.desc.fn = 5 →
         (s.mxops.any (fun e => e.2.running && e.2.behind o) = true → ∃ t, exec (.mxEvictionStop id) s = .next t ∧ t = { s with late := t.late })
         ∧ (s.mxops.any (fun e => e.2.running && e.2.behind o) = false →
             ∃ t, exec (.mxEvictionStop id) s = .next t ∧ Tab.get? id t.mxops = some { o with asked := true, stopped := !o.begun && decide (o.progress.phase < 3) } ∧ t.mem = s.mem ∧ t.blks = s.blks))
     ∧ (o.desc.iterates = false → exec (.mxEvictionStop id) s = .next s))
   ∧ ∀ (s : State) (gi : Nat) (g : Group), s.group gi = some g →
     (g.trap.divergePending = false → exec (.iterationDivergedTrap gi) s = .next s)
     ∧ (∀ m pc, g.trap.divergePending = true → g.st = .resident → g.trap.held = false → g.trap.tmasked = false → g.divergeBundle = some (m, pc) →
         ∃ t g', exec (.iterationDivergedTrap gi) s = .next t ∧ t.group gi = some g' ∧ g'.trap.cause = 0x1104 ∧ g'.trap.addr = g.trap.divergeAddr ∧ g'.trap.pc = pc ∧ g'.trap.mask = m
           ∧ g'.trap.divergePending = false ∧ g'.trap.inHandler = true ∧ g'.regs = g.regs ∧ t.mem = s.mem ∧ ∀ k, k ≠ gi → t.group k = s.group k))

/-! ### Checkers, caches, memory engines -/

/-- A perform stamp verifies its event, and a pair it shows out of order contains the line found (05 R173, 20 R465); one that does not come in time leaves the checker too (20 R464). The home
confirms records that agree and contains the line of those that differ or do not come (05 R167, 20 R464). A close that is confirmed is no longer waited for (05 R168); a sequence number is the next of its
sequencer (05 R178).
Completion: `exec` answers a next state for closeConfirmation, sequenceNumberArrival, stampArrival, reorderCheckerTimeout, intervalRecordArrival, coherenceCheckerTimeout. -/
def Obligations.CheckersHandleTheirEvents : Prop :=
  (∀ (s : State) (core id : Nat) (stamp : BitVec 96) (e : MemEvent), (s.coreAt core).events.find? (fun x => x.id == id) = some e →
    let e' := { e with stamp := some stamp }
    let c := s.coreAt core
    (s.orderBroken core e' = none → ∃ t, exec (.stampArrival core id stamp) s = .next t ∧ (∀ x ∈ (t.coreAt core).events, x.id ≠ id) ∧ e' ∈ (t.coreAt core).verified
      ∧ t.mem = s.mem ∧ t.lines = s.lines ∧ t.blks = s.blks)
    ∧ (∀ x y ln, s.orderBroken core e' = some (x, y) → s.group y.g ≠ none → findingLine ((c.verify e').events ++ (c.verify e').verified) x y = some ln →
      ∃ t, exec (.stampArrival core id stamp) s = .next t ∧ (t.line ln).contained ≠ none ∧ t.mem = s.mem)
    ∧ ((∀ x ∈ c.events, x.id = id → s.stampLate core x = false) → exec (.reorderCheckerTimeout core id) s = .next s)
    ∧ (s.stampLate core e = true → ∃ t, exec (.reorderCheckerTimeout core id) s = .next t ∧ (∀ x ∈ (t.coreAt core).events, x.id ≠ id) ∧ t.mem = s.mem))
  ∧ (∀ (s : State) (ln : Nat),
    let found := (s.line ln).disagreement (fun a => s.signatureAgrees a (homeSliceOf (256 * ln)))
    ((s.line ln).pending = [] → exec (.intervalRecordArrival ln) s = .next s)
    ∧ ((s.line ln).pending ≠ [] →
      (found = none → ∃ t, exec (.intervalRecordArrival ln) s = .next t ∧ t.line ln = { s.line ln with pending := [], writers := (t.line ln).writers }
        ∧ t = { s with lines := t.lines, logical := t.logical, groups := t.groups } ∧ ∀ gi g, s.group gi = some g → t.group gi = some g ∨ t.group gi = some g.wakeTurned)
      ∧ (found ≠ none → ∃ t, exec (.intervalRecordArrival ln) s = .next t ∧ (t.line ln).contained ≠ none ∧ t.mem = s.mem))
    ∧ (s.overdue ln = none → exec (.coherenceCheckerTimeout ln) s = .next s)
    ∧ (s.overdue ln ≠ none → ∃ t, exec (.coherenceCheckerTimeout ln) s = .next t ∧ (t.line ln).contained ≠ none ∧ t.mem = s.mem)
    ∧ ∀ core, ((s.line ln).pending = [] ∨ found = none) → (s.line ln).contained = none →
      (∀ h ∈ (s.coreAt core).gate, h.early = false) →
      ∃ t, exec (.closeConfirmation core ln) s = .next t ∧ (∀ h ∈ (t.coreAt core).gate, ¬ ln ∈ h.lines) ∧ t.mem = s.mem
        ∧ ∀ gi g, s.group gi = some g → t.group gi = some g ∨ t.group gi = some g.wakeTurned)
  ∧ ∀ (s : State) (id core : Nat) (h : Held), s.heldRelease id = some (core, h) →
    (h.asked = false ∨ h.seq ≠ none → exec (.sequenceNumberArrival id) s = .next s)
    ∧ (h ∈ (s.coreAt core).gate → h.asked = true → h.seq = none →
      let n := if s.closingClass h = 0 then (s.coreAt core).seq + 1 else ((Tab.get? (if s.closingClass h = 1 then 16 * dieOfCore core else 0) s.slices).getD {}).fenceSeq + 1
      ∃ t h', exec (.sequenceNumberArrival id) s = .next t ∧ h' ∈ (t.coreAt core).gate ∧ h'.id = id ∧ h'.seq = some n ∧ t.mem = s.mem ∧ t.groups = s.groups)

/-- A recall, a host snoop and an eviction leave no L1 with a sector of the line (03 R106-R108, 13 R354); an eviction also the L2, but for a contained line (20 R467). A walk fills the die's TLB (03 R111);
an invalidation empties every TLB of the page (03 R112). The zero engine clears a page before its leaf becomes valid (03 R119). A scale's fill puts its two bytes into the core's cache, and a window write empties the
caches (06 R202). The scrub rewrites a sector with a corrected error and poisons one with another (20 R477).
Completion: `exec` answers a next state for directoryRecall, l2LineEviction, pageWalkComplete, tlbInvalidationComplete, zeroEngineClear, scaleFill, patrolScrub, hostSnoop, formatWindowWrite. -/
def Obligations.CachesAndMemoryEnginesAct : Prop :=
  (∀ (s : State) (ln : Nat),
    let gone := fun (t : State) => ∀ i c, i < 4 → (t.coreAt c).l1Line (4 * ln + i) = none
    let known := ∀ i c, i < 4 → (s.coreAt c).l1Line (4 * ln + i) ≠ none → c ∈ s.recallTargets (4 * ln + i)
    let kept := fun (t : State) => t.mem = s.mem ∧ ((t.line ln).contained = none → t.groups = s.groups)
    (known → (∀ i, i < 4 → s.engineOwns (4 * ln + i) = false ∧ s.pinHolder (4 * ln + i) = none) →
      (∃ t, exec (.directoryRecall ln) s = .next t ∧ gone t ∧ kept t) ∧ ∃ t, exec (.hostSnoop ln) s = .next t ∧ gone t ∧ kept t)
    ∧ (s.keepsLine ln = true → exec (.l2LineEviction ln) s = .next s)
    ∧ (s.keepsLine ln = false → known → ∃ t, exec (.l2LineEviction ln) s = .next t ∧ gone t ∧ (t.line ln).valid = 0 ∧ (t.line ln).dirty = 0 ∧ kept t))
  ∧ (∀ (s : State) (die ctx page : Nat),
    (∀ l, s.walk ctx (4096 * page) = .ok l → ∃ t l', exec (.pageWalkComplete die ctx page) s = .next t ∧ t.leafFor die ctx (4096 * page) = .ok l' ∧ l'.phys (4096 * page) = l.phys (4096 * page)
      ∧ bit l'.entry 6 = true ∧ ∀ c, (c < (l.widen s.mem).place (4096 * page) ∨ (l.widen s.mem).place (4096 * page) + 8 ≤ c) → t.byteAt c = s.byteAt c)
    ∧ (∀ f, s.walk ctx (4096 * page) = .error f → exec (.pageWalkComplete die ctx page) s = .next s)
    ∧ (s.pagesBusy (s.translates ctx (4096 * page)) = true → exec (.tlbInvalidationComplete ctx page) s = .next s)
    ∧ (s.pagesBusy (s.translates ctx (4096 * page)) = false → ∃ t, exec (.tlbInvalidationComplete ctx page) s = .next t ∧ t.mem = s.mem ∧ t.groups = s.groups
        ∧ let fresh := (s.walk ctx (4096 * page)).map (fun l => l.widen s.mem)
          (∀ d, t.leafFor d ctx (4096 * page) = fresh) ∧ ∀ c, t.leafVia c ctx (4096 * page) = fresh))
  ∧ (∀ (s : State) (page a : Nat) (leaf : Word64), Tab.get? page s.zeroing = some (a, leaf) →
    ∃ t, exec (.zeroEngineClear page) s = .next t ∧ Tab.get? page t.zeroing = none ∧ BitVec.ofNat 64 (t.readPhys a 8) = leaf
      ∧ ∀ c, (c < a ∨ a + 8 ≤ c) → t.byteAt c = if 4096 * page ≤ c ∧ c < 4096 * page + 4096 then 0 else s.byteAt c)
  ∧ (∀ (s : State) (core n ctx b : Nat) (tensor : BitVec 8) (x : List (BitVec 64)), b < 2 ^ 20 →
    (s.scaleAddr ctx tensor b = none → exec (.scaleFill core tensor (ctx * 2 ^ 20 + b)) s = .next s)
    ∧ (∀ pa, s.scaleAddr ctx tensor b = some pa → ∃ t e, exec (.scaleFill core tensor (ctx * 2 ^ 20 + b)) s = .next t ∧ (t.coreAt core).scaleEntry ctx tensor b = some e
        ∧ e.scale = BitVec.ofNat 16 (s.readPhys pa 2) ∧ t.mem = s.mem ∧ (Calm s t → t.groups = s.groups))
    ∧ (n < 16 → ∃ t, exec (.formatWindowWrite n x) s = .next t ∧ (∀ k, Tab.get? k t.windows = if k = n
        then some { base := x.getD 0 0 &&& 0x000FFFFFFFFFFF00, limit := x.getD 1 0 &&& 0x000FFFFFFFFFFF00, scale := x.getD 2 0 &&& 0x000FFFFFFFFFFF00, ctl := x.getD 3 0 &&& 0xFFFFFF0F }
        else Tab.get? k s.windows) ∧ (∀ c, (t.coreAt c).scales = []) ∧ t.mem = s.mem))
  ∧ ∀ (s : State) (k : Nat),
    ((s.sector k).ecc = none → exec (.patrolScrub k) s = .next s)
    ∧ ((s.sector k).ecc = some .corrected → s.dirtyInL2 k = false → ∃ t, exec (.patrolScrub k) s = .next t ∧ t.sector k = { s.sector k with ecc := none } ∧ t.mem = s.mem)
    ∧ ((s.sector k).ecc ≠ none → (s.sector k).ecc ≠ some .corrected → s.dirtyInL2 k = false →
        ∃ t, exec (.patrolScrub k) s = .next t ∧ t.sector k = { s.sector k with ecc := none, poison := true } ∧ t.mem = s.mem)

/-! ### Blocks, groups, the scheduler -/

/-- The block distributor deals the next block of its launch, X fastest, to the next cluster with room in its queue (02 R55); a cluster places the block it can place next: its groups are at their start and
Placing (02 R43, R44, R56), and all become Resident together (02 R28), when none of its places has been fenced meanwhile. A group whose last thread has exited and whose accesses have performed is Ended; a block whose groups have all ended leaves the module,
and the last of its launch signals the launch's counter (08 R234, 02 R55).
Completion: `exec` answers a next state for blockDistribute, blockPlace, blockResident, groupEnd, blockEnd. -/
def Obligations.LaunchesRunAsBlocks : Prop :=
  (∀ (s : State) (die id : Nat) (l : Launch), s.dealtLaunch die = some (id, l) →
    let cs := maskClusters (s.dieMaskOf l.ctx)
    (s.nextCluster cs l.turn = none → exec (.blockDistribute die) s = .next s)
    ∧ ∀ i k, s.nextCluster cs l.turn = some (i, k) → ∃ t b x, exec (.blockDistribute die) s = .next t ∧ t.blk b = some x ∧ x.ctx = l.ctx ∧ x.launch = id ∧ x.st = .queued ∧ x.cluster = k
        ∧ x.bx = l.dealt % l.man.gx ∧ x.byy = l.dealt / l.man.gx % l.man.gy ∧ x.bz = l.dealt / (l.man.gx * l.man.gy) ∧ b ∈ t.queue k
        ∧ Tab.get? id t.launches = some { l with dealt := l.dealt + 1, turn := (i + 1) % cs.length } ∧ .blockPlace k ∈ t.agenda ∧ t.groups = s.groups ∧ t.mem = s.mem)
  ∧ (∀ (s : State) (k : Nat), s.returnsFirst k = none →
    (s.nextPlaced k = none → s.queue k = [] → exec (.blockPlace k) s = .next s)
    ∧ ∀ b x m p a, s.nextPlaced k = some (b, x, m, p, a) → p.rear = none → ∃ t x', exec (.blockPlace k) s = .next t ∧ t.blk b = some x' ∧ x'.st = .placing
        ∧ x'.parts.map (·.core) = p.parts.map Prod.fst ∧ (∀ c, ¬ b ∈ t.queue c) ∧ .blockResident b ∈ t.agenda ∧ t.mem = s.mem
        ∧ ∀ e ∈ p.parts, ∀ g ∈ e.2, ∃ n g', t.group n = some g' ∧ g'.st = g.st ∧ g'.regs = g.regs ∧ g'.threads = g.threads ∧ g'.trap = g.trap)
  ∧ (∀ (ctx blk core bpart gidx role : Nat) (r : Role) (rear : Bool) (params : List Word64) (gen : Word64),
    let g := groupStart ctx blk core bpart gidx role r rear params gen
    g.st = .placing ∧ g.threads.length = 8 * 2 ^ r.wcode.toNat ∧ g.trap.tmasked = false ∧ g.trap.inHandler = false ∧ g.sched.passed = gen - 1
    ∧ (∀ i, i < params.length → g.sget (i + 1) = params.getD i 0) ∧ (∀ i, params.length < i → g.sget i = 0)
    ∧ ∀ L n, L < g.threads.length → (g.thread L).pc = r.entry ∧ (g.thread L).exited = false ∧ (g.thread L).vreg n = 0 ∧ (g.thread L).pget n = (n == 7))
  ∧ (∀ (s : State) (b : Nat) (x : Block), s.blk b = some x → x.twin = none →
    (x.st ≠ .placing → exec (.blockResident b) s = .next s)
    ∧ (x.st = .placing → s.onFenced b = false → ∃ t, exec (.blockResident b) s = .next t ∧ t.blk b = some { x with st := .resident } ∧ t.mem = s.mem
        ∧ ∀ k g, s.group k = some g → t.group k = some (if g.place.blk = b ∧ g.st = .placing then { g with st := .resident } else g))
    ∧ (s.blockEndReady b = false → exec (.blockEnd b) s = .next s)
    ∧ (s.blockEndReady b = true → ∃ t, exec (.blockEnd b) s = .next t ∧ t.blk b = none ∧ (∀ k g, t.group k = some g → g.place.blk ≠ b) ∧ t.mem = s.mem
        ∧ ∀ l, Tab.get? x.launch s.launches = some l → (s.context l.ctx).any (·.live) = true →
          (l.ended + 1 < l.man.gridSize → Tab.get? x.launch t.launches = some { l with ended := l.ended + 1 })
          ∧ (l.man.gridSize ≤ l.ended + 1 → Tab.get? x.launch t.launches = none ∧ ∀ c, l.signal = some c → .counterSignal l.ctx c ∈ t.agenda)))
  ∧ ∀ (s : State) (gi : Nat) (g : Group), s.group gi = some g →
    (s.endReady gi g = false → exec (.groupEnd gi) s = .next s)
    ∧ (s.endReady gi g = true → ∃ t g', exec (.groupEnd gi) s = .next t ∧ t.group gi = some g' ∧ g'.st = .ended ∧ g'.regs.xheld = 0 ∧ .blockEnd g.place.blk ∈ t.agenda ∧ t.mem = s.mem)

/-- A block that fits nowhere though its records would begins the save of work of lower priority (02 R57); a group's save writes its record and frees its place, without a change of any register (02 R43,
R64); a block's save leaves it saved (02 R59); saved work returns when it fits (02 R62), with what its record says (02 R43, 19 R448), unless the record is damaged (19 R454).
Completion: `exec` answers a next state for eviction, groupSaveComplete, blockSaveComplete, groupRestore, restoreComplete. -/
def Obligations.WorkIsSavedAndReturns : Prop :=
  (∀ (s : State) (k : Nat), (s.stuckHead k = none → exec (.eviction k) s = .next s)
    ∧ ∀ b x m c gs, s.stuckHead k = some (b, x, m) → s.room = none →
      (s.victimCores (s.dieMaskOf x.ctx) (s.priorityOf x.ctx)).findSome? (fun c => (s.evictionSet b x m c).map (fun e => (c, e))) = some (c, gs, []) →
      ∃ t, exec (.eviction k) s = .next t ∧ t.room = some (b, c) ∧ t.mem = s.mem ∧ ∀ n ∈ gs, ∀ g, s.group n = some g → g.st = .resident → s.convoyOf n = none →
        t.group n = some { g with st := .saving 0 } ∧ .groupSaveComplete n ∈ t.agenda)
  ∧ (∀ (s : State) (gi kind : Nat) (g : Group), s.group gi = some g → g.st = .saving kind →
    (s.saveReady gi g = false → exec (.groupSaveComplete gi) s = .next s)
    ∧ (s.saveReady gi g = true → g.flow.runOns = [] → g.live ≠ 0 → (s.coreAt g.place.core).written0 = [] → (s.coreAt g.place.core).written1 = [] → (s.coreAt g.place.core).written2 = [] →
      let u := (s.closeAll g.place.core).capture gi g
      ∃ t g', exec (.groupSaveComplete gi) s = .next t ∧ t.group gi = some g' ∧ g'.st = (if kind = 0 then .saved else if kind = 1 then .offCore else .escalated) ∧ g'.regs = g.regs
        ∧ g'.threads.length = g.threads.length ∧ (∀ L, L < g.threads.length → g'.thread L = { g.thread L with wait := (g'.thread L).wait, pc := (g'.thread L).pc })
        ∧ (∀ h, u.group gi = some h → t.mem = (u.writeFields h.place.record (u.recordFields gi h)).mem)
        ∧ (kind = 1 → .svcRingAppend gi ∈ t.agenda) ∧ .groupRestore g.place.core ∈ t.agenda))
  ∧ (∀ (s : State) (b : Nat) (x : Block) (m : Manifest), s.blk b = some x → s.manifestOf b = some m →
    (s.blockSaveReady b x = false → exec (.blockSaveComplete b) s = .next s)
    ∧ (s.blockSaveReady b x = true → ∃ t x', exec (.blockSaveComplete b) s = .next t ∧ t.blk b = some x' ∧ x'.st = .saved ∧ x'.savingWhole = false))
  ∧ (∀ (s : State) (core : Nat), (s.nextReturn core = none → exec (.groupRestore core) s = .next s)
    ∧ ∀ r, s.nextReturn core = some r → ∃ t, exec (.groupRestore core) s = .next t ∧ t.mem = s.mem
        ∧ ∀ e ∈ r.groups, s.group e.1 ≠ none → ∃ g', t.group e.1 = some g' ∧ g'.st = .restoring ∧ .restoreComplete e.1 ∈ t.agenda)
  ∧ ∀ (s : State) (gi : Nat) (g : Group), s.group gi = some g →
    (g.st ≠ .restoring → exec (.restoreComplete gi) s = .next s)
    ∧ (g.st = .restoring → (s.vitalError g ≠ none → (∀ r ∈ (s.part g.partIndex).xqueue, r.g ≠ gi) → ∃ t g', exec (.restoreComplete gi) s = .next t ∧ t.group gi = some g' ∧ g'.st = .escalated ∧ g'.regs = g.regs ∧ g'.threads = g.threads ∧ t.mem = s.mem)
      ∧ (s.vitalError g = none →
        let y := s.poisonWords (g.load s.mem)
        y.trap.nested = none → y.trap.held = false → y.flow.late = [] → (s.blk g.place.blk).any (fun b => b.st == .saving) = false →
          ∃ t g', exec (.restoreComplete gi) s = .next t ∧ t.group gi = some g' ∧ g'.st = .resident ∧ g'.sched.restore = true ∧ g'.regs = { y.regs with gang := g'.regs.gang }
            ∧ (y.regs.gangIdx = [] → g'.regs = y.regs) ∧ t.mem = s.mem))

/-- Ageing marks a group and a bundle (02 R34, R35), a bundle whose writes are in leaves its parking (02 R36), the youngest request of a deadlocked partition traps (19 R449), a clock without an issue is counted
under its leaf and in the total (15 R394, R395). A sample period writes the record of each partition's first group (15 R399); a held record is written once its page is back, and the trace of a core
whose page stays away is suspended (20 R486). A deadlock event of a partition that is not deadlocked, a sample period of a core with no armed context, and a page retry or hold timeout of a core whose
trace waits for no page change nothing.
Completion: `exec` answers a next state for bundleUnpark, groupAgeingExpiry, bundleAgeingExpiry, registerDeadlock, traceSample, tracePageRetry, traceHoldTimeout, slotClassification. -/
def Obligations.SchedulerEventsComplete : Prop :=
  (∀ (s : State) (gi : Nat) (g : Group) (m : BitVec 64), s.group gi = some g →
    (∃ t, exec (.groupAgeingExpiry gi) s = .next t ∧ t = { s with groups := t.groups } ∧ (∀ k, k ≠ gi → t.group k = s.group k) ∧ t.group gi = some { g with sched := { g.sched with aged := true } })
    ∧ (∃ t g', exec (.bundleAgeingExpiry gi m) s = .next t ∧ t = { s with groups := t.groups } ∧ (∀ k, k ≠ gi → t.group k = s.group k) ∧ t.group gi = some g' ∧ g' = { g with threads := g'.threads }
        ∧ ∀ L, L < g.threads.length → L < 64 → g'.thread L = if (m &&& g.live).getLsbD L then { g.thread L with waitCount := 4096 } else g.thread L)
    ∧ (∃ t g', exec (.bundleUnpark gi m) s = .next t ∧ t = { s with groups := t.groups } ∧ (∀ k, k ≠ gi → t.group k = s.group k) ∧ t.group gi = some g' ∧ g' = { g with threads := g'.threads }
        ∧ ∀ L, L < g.threads.length → L < 64 → g'.thread L = { g.thread L with parked := (g.thread L).parked && !(m.getLsbD L && g.unparkable L) }))
  ∧ (∀ (s : State) (k : Nat),
    (s.deadlocked k = false → exec (.registerDeadlock k) s = .next s)
    ∧ (∀ l r g, s.deadlocked k = true → (s.part k).xqueue = l ++ [r] → s.group r.g = some g → g.trap.tmasked = false → g.runOn r.bundle = none →
        ∃ t g', exec (.registerDeadlock k) s = .next t ∧ (t.part k).xqueue = l ∧ t.group r.g = some g' ∧ t.mem = s.mem ∧ (∀ n, n ≠ r.g → t.group n = s.group n)
          ∧ TrapTaken g g' r.bundle 0x1009 r.entry.pc (BitVec.ofNat 64 (r.n % 256)) r.entry.mask [{ r.entry with done := 0 }])
    ∧ ∃ t, exec (.slotClassification k) s = .next t ∧ t = { s with parts := t.parts } ∧ (∀ n, n ≠ k → t.part n = s.part n) ∧ t.part k = { s.part k with slots := (t.part k).slots }
        ∧ (let leaf := s.idleLeaf k
           (s.residents k = [] → leaf = 14) ∧ ((∀ e ∈ s.residents k, ∀ L, (e.2.thread L).turnedLeaf < 14) → leaf < 15)
           ∧ ∀ n, Assoc.get n (t.part k).slots = if n = leaf ∧ leaf ≠ 14 then Assoc.get n (s.part k).slots + 1 else Assoc.get n (s.part k).slots)
        ∧ Assoc.get 15 (s.slotCounters k) = BitVec.ofNat 64 s.clocks)
  ∧ ∀ (s : State) (core : Nat),
    ((∀ c, s.traceArmed c 1 = false) → exec (.traceSample core) s = .next s)
    ∧ (∀ (n c p L i : Nat) (g : Group) (ctl : TraceCtl), p < 16 → Tab.keys s.ctxs = [c] → s.traceArmed c 1 = true → (s.context c).map (·.trace) = some ctl → s.hold core c = {} →
        s.groups = [(n, g)] → g.partIndex = 16 * core + p → g.st = .resident → g.place.ctx = c → g.place.core = core → g.lowThread = some L →
        let w := g.choose
        let leaf := s.slotLeaf (16 * core + p)
        let mask := (w.map (·.mask)).getD (maskOf ((maskList g.live).filter (fun K => (g.thread K).pc == (g.thread L).pc && (g.thread K).wait == (g.thread L).wait)))
        let u := s.takeIndex core c ctl
        let x := u.1.putRecord core c ctl i (traceRecord 2 g (BitVec.ofNat 8 leaf) (s.clkOf (dieOfCore core)) ((w.map (·.pc)).getD (g.thread L).pc) mask)
        u.2 = .taken i → x.2 = true → ∃ t, exec (.traceSample core) s = .next t ∧ t.mem = x.1.mem ∧ t.ctxs = x.1.ctxs ∧ t.groups = s.groups)
    ∧ (∀ (c i : Nat) (ctl : TraceCtl) (r : TraceRecord), Tab.keys (s.coreAt core).trace = [c] → (s.context c).map (·.trace) = some ctl → s.hold core c = { held := [(some i, r)], waiting := true } →
        let x := (s.setHold core c {}).putRecord core c ctl i r
        (x.2 = true → ∃ t, exec (.tracePageRetry core) s = .next t ∧ t.mem = x.1.mem ∧ t.ctxs = x.1.ctxs ∧ t.groups = s.groups ∧ t.hold core c = {})
        ∧ (x.2 = false → ∃ t, exec (.tracePageRetry core) s = .next t ∧ t.mem = s.mem ∧ t.groups = s.groups ∧ t.hold core c = s.hold core c))
    ∧ ((∀ c ∈ Tab.keys (s.coreAt core).trace, (s.hold core c).waiting = false) → exec (.tracePageRetry core) s = .next s ∧ exec (.traceHoldTimeout core) s = .next s)
    ∧ ∀ c, Tab.keys (s.coreAt core).trace = [c] → (s.hold core c).waiting = true →
      ∃ t, exec (.traceHoldTimeout core) s = .next t ∧ t.hold core c = { s.hold core c with held := [], waiting := false, suspended := true, gap := (s.hold core c).gap + (s.hold core c).held.length, gapAt := s.clkOf (dieOfCore core) }
        ∧ t.groups = s.groups ∧ t.mem = s.mem

/-- A convoy's matched entry performs once and leaves the buffer (02 R74, R75); entries that differ, or a rear's entry that does not come, discard the buffer and set both groups back to their last waystation, at most
twice and only when nothing but stores has performed (21 R513, R514); the retry continues both from their snapshots.
Completion: `exec` answers a next state for convoyCompare, convoyTimeout, convoyRetry. -/
def Obligations.ConvoysCompareAndRetry : Prop :=
  ∀ (s : State) (k : Nat) (c : Convoy) (g h : Group), s.convoy k = some c → s.group c.lead = some g → s.group c.rear = some h →
    let setBack := fun (i : Instr) => ∃ t c' g' h', exec i s = .next t ∧ t.convoy k = some c' ∧ c'.held = [] ∧ c'.rearEntry = none ∧ c'.retrying = true ∧ c'.retries = c.retries ∧ c'.snapLead = c.snapLead
      ∧ c'.snapRear = c.snapRear ∧ t.group c.lead = some g' ∧ g'.st = .restoring ∧ g'.threads = g.threads ∧ t.group c.rear = some h' ∧ h'.st = .restoring ∧ h'.threads = h.threads
      ∧ .convoyRetry k ∈ t.agenda ∧ t.mem = s.mem
    let quiet := fun (p : Nat) => ∀ r ∈ (s.part p).xqueue, r.g ≠ c.lead ∧ r.g ≠ c.rear
    (s.comparable c = false → exec (.convoyCompare k) s = .next s)
    ∧ (∀ e es r, s.comparable c = true → c.held = e :: es → c.rearEntry = some r → e.sig = r.sig →
        ∃ t c', exec (.convoyCompare k) s = .next t ∧ t.convoy k = some c' ∧ c'.held = es ∧ c'.rearEntry = none ∧ c'.retries = (if e.act = .ckpt then 0 else c.retries))
    ∧ (∀ e es r, s.comparable c = true → c.held = e :: es → c.rearEntry = some r → e.sig ≠ r.sig → c.retries < 2 → c.nonStore = false → quiet g.partIndex → quiet h.partIndex → setBack (.convoyCompare k))
    ∧ (s.convoyCounts c = false → exec (.convoyTimeout k) s = .next s)
    ∧ (s.convoyCounts c = true → c.retries < 2 → c.nonStore = false → quiet g.partIndex → quiet h.partIndex → setBack (.convoyTimeout k))
    ∧ (s.retryReady c = false → exec (.convoyRetry k) s = .next s)
    ∧ (∀ x y, s.retryReady c = true → c.evicting = false → c.lead ≠ c.rear → c.snapLead = some x → c.snapRear = some y → quiet x.partIndex → quiet y.partIndex →
        ∃ t c' g' h', exec (.convoyRetry k) s = .next t ∧ t.convoy k = some c' ∧ c'.retries = c.retries + 1 ∧ c'.retrying = false ∧ t.mem = s.mem
          ∧ t.group c.lead = some g' ∧ g'.st = .resident ∧ g'.regs = x.regs ∧ g'.threads = x.threads ∧ g'.trap = x.trap ∧ g'.place = g.place
          ∧ t.group c.rear = some h' ∧ h'.st = .resident ∧ h'.regs = y.regs ∧ h'.threads = y.threads ∧ h'.trap = y.trap ∧ h'.place = h.place)

/-! ### The service kernel -/

/-- A group whose record is complete appends its call to the request ring, in the layout of `callEntry` (13 R375), when the ring has room (13 R376), and nothing else happens to it. What a service core does with the entry of a group (13 R374, R377, R379): only the next entry begins. Call 0 answers 0, an unlisted call fails with 0xBE01, call 1 with bad arguments with 0xBE02; calls 2, 3
and 128 to 255 go to the host, thread by thread in ascending order, and bad arguments of call 3 fail. A reply writes v0 and v1 of each calling thread in the group's record and lets the group return
(13 R378). An allocation answers an aligned pointer whose tag is not 0 to an allocation of the context that is no shorter (03 R114; where it lies is the model's, log 41).
Completion: `exec` answers a next state for svcRingAppend, svcCallNull, svcCallAllocate, svcCallLog, svcCallExchangeBuffer, svcCallHost, svcCallReserved. -/
def Obligations.ServiceCallsAreAppendedAndAnswered : Prop :=
  (∀ (s : State) (gi : Nat) (g : Group), s.group gi = some g →
     let k := s.homeSlice g.place.ctx
     let sl := s.slice k
     let e := callEntry sl gi g
     (e.ctx = g.place.ctx ∧ e.g = gi ∧ e.mask = g.waiting .svc ∧ e.pc = (g.thread (lowestOf e.mask)).pc - 4 ∧ e.seq = sl.ringCount ∧ e.size = 64 + 32 * (maskList (g.waiting .svc)).length
       ∧ e.args = (maskList (g.waiting .svc)).map (fun L => (L, [0, 1, 2, 3, 4, 5, 6, 7].map (g.thread L).vreg)) ∧ e.record = g.place.record ∧ e.gidx = g.place.gidx
       ∧ e.placement = 0#2 ++ g.place.wcode ++ BitVec.ofNat 4 g.place.part ++ BitVec.ofNat 8 g.place.core)
     ∧ (s.convoyOf gi = none → (g.st ≠ .offCore ∨ g.sched.returning = true ∨ g.waiting .svc = 0 ∨ (∃ x ∈ sl.ring, x.g = gi) ∨ gi ∈ sl.ringWait) → exec (.svcRingAppend gi) s = .next s)
     ∧ (s.convoyOf gi = none → g.st = .offCore → g.sched.returning = false → g.waiting .svc ≠ 0 → (∀ x ∈ sl.ring, x.g ≠ gi) → sl.ringWait = [] →
         ∃ t, exec (.svcRingAppend gi) s = .next t ∧ t = { s with slices := t.slices, agenda := t.agenda } ∧ (∀ n, n ≠ k → t.slice n = s.slice n)
           ∧ (sl.ringUsed + e.size ≤ 2 ^ 20 → t.slice k = sl.appendEntry [] e ∧ t.agenda = s.agenda ++ [callEvent e.n gi])
           ∧ (2 ^ 20 < sl.ringUsed + e.size → t.slice k = { sl with ringWait := [gi] } ∧ t.agenda = s.agenda)))
  ∧ ((∀ (s : State) (gi k : Nat) (e : RingEntry), s.callOf gi = some (k, e) → e.forwarded = [] → e.results = [] → (s.slice k).ringWait = [] →
     let next := (s.slice k).nextCall.map (·.seq) = some e.seq
     let answers := fun (i : Instr) (results : List (Nat × Word64)) => s.convoyOf e.g = none → ∃ t, exec i s = .next t
       ∧ (t.slice k).ring = (s.slice k).ring.filter (fun x => x.seq != e.seq) ∧ t.host = s.host ∧ (∀ n, n ≠ e.g → t.group n = s.group n)
       ∧ ∀ g, s.group e.g = some g → g.st = .offCore →
           let g' := { (results.foldl (fun g r => g.modLanes (oneBit r.1) (fun _ t => t.answer r.2)) g) with sched := { g.sched with returning := true } }
           t.group e.g = some g' ∧ .groupRestore g.place.core ∈ t.agenda ∧ t.mem = (s.writeFields g.place.record (s.recordFields e.g g')).mem
     let forwards := fun (i : Instr) (kind : BitVec 8) (l : List (Nat × List Word32)) (results : List (Nat × Word64)) => ∃ t, exec i s = .next t
       ∧ t.host = { s.host with heqHeld := s.host.heqHeld ++ l.map (callHeq e kind) } ∧ .hostEventEntryWrite ∈ t.agenda ∧ t.groups = s.groups ∧ t.mem = s.mem
       ∧ (t.slice k).ring = (s.slice k).ring.map (fun x => if x.seq = e.seq then { e with begun := true, forwarded := l.map Prod.fst, results := results } else x)
     let bad := e.args.filter (fun a => !exchangeOk a)
     (∀ i ∈ [Instr.svcCallNull gi, .svcCallAllocate gi, .svcCallLog gi, .svcCallExchangeBuffer gi, .svcCallHost gi, .svcCallReserved gi], ¬ next → exec i s = .next s)
     ∧ (next → e.n = 0 → answers (.svcCallNull gi) (e.args.map (fun a => (a.1, 0))))
     ∧ (next → 4 ≤ e.n → e.n < 128 → answers (.svcCallReserved gi) (e.args.map (fun a => (a.1, callFailure 0xBE01))))
     ∧ (next → e.n = 1 → (∀ a ∈ e.args, argOf a 0 = 0 ∨ 2 ^ 31 < argOf a 0 ∨ argOf a 1 < 6 ∨ 21 < argOf a 1) →
         answers (.svcCallAllocate gi) (e.args.map (fun a => (a.1, callFailure 0xBE02))))
     ∧ (∀ a, next → e.n = 1 → e.args = [a] → s.convoyOf e.g = none → ∃ t, exec (.svcCallAllocate gi) s = .next t ∧ (t.slice k).ring = (s.slice k).ring.filter (fun x => x.seq != e.seq)
         ∧ ∀ g, s.group e.g = some g → g.st = .offCore →
             t.group e.g = some { (g.modLanes (oneBit a.1) (fun _ t => t.answer (s.allocate e.ctx (argOf a 0) (argOf a 1)).2)) with sched := { g.sched with returning := true } })
     ∧ (next → e.n = 2 → e.args ≠ [] → forwards (.svcCallLog gi) 4 e.args [])
     ∧ (next → 128 ≤ e.n → e.args ≠ [] → forwards (.svcCallHost gi) 1 e.args [])
     ∧ (next → e.n = 3 → e.args.filter exchangeOk = [] → answers (.svcCallExchangeBuffer gi) (e.args.map (fun a => (a.1, callFailure 0xBE02))))
     ∧ (next → e.n = 3 → e.args.filter exchangeOk ≠ [] → forwards (.svcCallExchangeBuffer gi) 1 (e.args.filter exchangeOk) (bad.map (fun a => (a.1, callFailure 0xBE02)))))
   ∧ ∀ (s u : State) (ctx bytes log2 : Nat) (x : Word64) (c : Context), s.context ctx = some c → s.allocate ctx bytes log2 = (u, x) → x.getLsbD 63 = false →
       1 ≤ bytes ∧ bytes ≤ 2 ^ 31 ∧ 6 ≤ log2 ∧ log2 ≤ 21 ∧ u.groups = s.groups
       ∧ ∃ d a, u.context ctx = some d ∧ a ∈ d.allocs ∧ a.gen = c.gen ∧ bytes ≤ a.size ∧ a.va % 2 ^ log2 = 0 ∧ field 0 56 x = BitVec.ofNat 56 a.va ∧ field 56 4 x = a.tag ∧ a.tag ≠ 0)

/-- The service core writes the oldest held entry at TAIL of the host event queue and sends its vector, while the queue is enabled and has room (13 R363, R364). The owner's disposition stands in the record of its
event, and acts on the group it stopped: 2 enters the handler (19 R445), 1 lets an escalated group return (19 R448), 5 ends the context of an event that stopped no group (13 R372, 17 R422); an event of the host or one that is disposed of keeps
its record.
Completion: `exec` answers a next state for eventDisposition, hostEventEntryWrite. -/
def Obligations.EventsReachTheHostAndAreDisposedOf : Prop :=
  (∀ (s : State), (s.host.heqHeld = [] ∨ s.heqReady = false → exec .hostEventEntryWrite s = .next s)
    ∧ ∀ e l, s.host.heqHeld = e :: l → s.heqReady = true → ∃ t, exec .hostEventEntryWrite s = .next t
        ∧ (e.kind ≠ 4 → t.mem = storeBytes s.mem (hostAddr (s.host.heqBase.toNat + 64 * (s.host.heqTail.toNat % 2 ^ s.host.heqLog2))) 64 (e.image s.host.heqLog2 s.host.heqTail))
        ∧ t.host.heqTail = s.host.heqTail + 1 ∧ t.host.heqHeld = l
        ∧ t.host.msix = s.host.msix ++ (s.heqVector e).toList.filter (fun v => !s.host.msixMasked v)
        ∧ (∀ v, v < 2048 → t.host.msixPending.getLsbD v = (s.host.msixPending.getLsbD v || (s.heqVector e == some v && s.host.msixMasked v)))
        ∧ (e.kind ≠ 4 → Calm s t → t.groups = s.groups)
        ∧ ∀ x, e.kind = 3 → e.key.bind s.eventRecord = some x → e.key.bind t.eventRecord = some { x with heqIndex := some s.host.heqTail.toNat })
  ∧ ∀ (s : State) (key : Nat) (d : BitVec 8),
    (d = 0 ∨ 8 < d.toNat ∨ s.eventRecord key = none → exec (.eventDisposition key d) s = .next s)
    ∧ ∀ r, s.eventRecord key = some r → d ≠ 0 → d.toNat ≤ 8 →
      (r.disp ≠ 0 → (∀ gi g, r.grp = some gi → s.group gi = some g → g.st ≠ .escalated) → exec (.eventDisposition key d) s = .next s)
      ∧ (r.disp = 0 → r.code ≠ 0xCF02 → r.owner ≠ 2 → (∀ e ∈ s.copies, e.2.held = false) →
        (r.grp = none → d ≠ 5 ∨ r.ctx = 0xFFFF → ∃ t, exec (.eventDisposition key d) s = .next t ∧ t = { s with slices := t.slices } ∧ t.eventRecord key = some { r with disp := d })
        ∧ (r.grp = none → d = 5 → r.ctx ≠ 0xFFFF → r.ctx ≠ 0 → ∀ c, s.context r.ctx.toNat = some c → ∃ t c', exec (.eventDisposition key d) s = .next t ∧ t.context r.ctx.toNat = some c' ∧ c'.live = false)
        ∧ ∀ gi g, r.grp = some gi → s.group gi = some g → g.trap.heldSeq = key →
          (g.trap.held = true → g.st = .resident → d = 2 → ∃ t, exec (.eventDisposition key d) s = .next t ∧ t.eventRecord key = some { r with disp := 2 } ∧ t.mem = s.mem
            ∧ t.group gi = some g.enterHandler ∧ ∀ n, n ≠ gi → t.group n = s.group n)
          ∧ (g.trap.held = false → g.st = .escalated → d = 1 → r.code ≠ 0x6002 → ∃ t, exec (.eventDisposition key d) s = .next t ∧ t.eventRecord key = some { r with disp := 1 } ∧ t.mem = s.mem
            ∧ t.group gi = some { g with sched := { g.sched with returning := true } } ∧ .groupRestore g.place.core ∈ t.agenda ∧ ∀ n, n ≠ gi → t.group n = s.group n)
          ∧ (d ≠ 4 → d ≠ 5 → (g.trap.held = false ∨ g.st ≠ .resident) → g.st ≠ .escalated →
            ∃ t, exec (.eventDisposition key d) s = .next t ∧ t = { s with slices := t.slices } ∧ t.eventRecord key = some { r with disp := d }))

/-! ### Mailbox queues -/

/-- The queue registers: HALTED and EN (13 R355, R356, 16 R406), TAIL with the overrun (13 R356), the registers of the host event queue (13 R363), and function level reset, which waits for a record that is being
applied (13 R352).
Completion: `exec` answers a next state for functionLevelReset, mqtailWrite, mqctlEnable, mqHaltedClear, heqctlEnable, heqheadWrite. -/
def Obligations.QueueRegistersTakeTheirWrites : Prop :=
  ∀ (s : State) (q : Nat) (x : Word64), q < 256 →
    let m := s.mailbox q
    (∃ t n, exec (.mqctlEnable q x) s = .next t ∧ t = { s with host := { s.host with queues := t.host.queues } } ∧ (∀ k, k ≠ q → t.mailbox k = s.mailbox k)
      ∧ t.mailbox q = n ∧ n = { m with ctl := n.ctl, dead := m.dead && m.en } ∧ n.log2n = (field 16 5 x).toNat ∧ n.vec = (field 5 11 x).toNat ∧ n.cirq = bit x 2 ∧ n.halted = (m.halted && !bit x 1)
      ∧ (m.en = true → n.ctx = m.ctx ∧ n.cls = m.cls) ∧ (m.en = false → n.ctx = (field 32 16 x).toNat ∧ n.cls = field 24 8 x)
      ∧ (n.en = true ↔ bit x 0 = true ∧ 6 ≤ (field 16 5 x).toNat ∧ (field 16 5 x).toNat ≤ 16 ∧ (s.context n.ctx).any (·.live) = true ∧ s.plat.ready = true))
    ∧ (∃ t, exec (.mqHaltedClear q) s = .next t ∧ (t.mailbox q).halted = false ∧ (t.mailbox q).head = m.head ∧ (∀ k, k ≠ q → t.mailbox k = s.mailbox k) ∧ t.groups = s.groups ∧ t.mem = s.mem)
    ∧ (∃ t, exec (.mqtailWrite q x) s = .next t ∧ (t.mailbox q).tail = field 0 32 x ∧ (t.mailbox q).head = m.head ∧ (∀ k, k ≠ q → t.mailbox k = s.mailbox k) ∧ (Calm s t → t.groups = s.groups)
      ∧ let past := m.en = true ∧ m.halted = false ∧ 2 ^ m.log2n < (field 0 32 x - m.head).toNat
        (past → (t.mailbox q).halted = true ∧ (t.mailbox q).status = 6 ∧ (t.mailbox q).index = m.head) ∧ (¬ past → t.mem = s.mem ∧ t.groups = s.groups ∧ (t.mailbox q).ctl = m.ctl))
    ∧ (∃ t, exec (.heqctlEnable x) s = .next t ∧ t = { s with host := { s.host with heqCtl := t.host.heqCtl } } ∧ t.host.heqLog2 = (field 16 5 x).toNat ∧ field 5 11 t.host.heqCtl = field 5 11 x
      ∧ (bit t.host.heqCtl 0 = true ↔ bit x 0 = true ∧ 6 ≤ (field 16 5 x).toNat ∧ (field 16 5 x).toNat ≤ 16))
    ∧ exec (.heqheadWrite x) s = .next { s with host := { s.host with heqHead := field 0 32 x } }
    ∧ (s.host.busy = true → exec .functionLevelReset s = .next { s with host := { s.host with flr := true } })
    ∧ (s.host.busy = false → ∃ t, exec .functionLevelReset s = .next t ∧ t = { s with host := t.host } ∧ t.host.flr = false ∧ t.host.heqHead = 0 ∧ t.host.heqTail = 0 ∧ bit t.host.heqCtl 0 = false
      ∧ (∀ e ∈ s.host.queues, ∃ n, (e.1, n) ∈ t.host.queues ∧ n.head = 0 ∧ n.tail = 0 ∧ n.en = false ∧ n.halted = false ∧ n.base = e.2.base ∧ n.cbase = e.2.cbase)
      ∧ t.host.msix = s.host.msix ∧ t.host.route = s.host.route)

/-- A queue applies the record at HEAD when it is ready, each kind by its own event; a record of a queue whose context is gone, a malformed record, and a record that fails halt the queue with the status
of 13 R361, and the host finds the completion. Kinds 0 to 6 have the effect of 13 R358, R359, R362 and R380, then HEAD advances, with a completion when FLAGS asks for one.
Completion: `exec` answers a next state for mailboxNop, mailboxWriteInline, mailboxWriteBulk, mailboxRead, mailboxInterrupt, mailboxTaskPost, callReply. -/
def Obligations.MailboxRecordsAreApplied : Prop :=
  ∀ (s : State) (q : Nat), q < 256 →
    let m := s.mailbox q
    let x := s.record q
    let live := m.dead = false ∧ (s.context m.ctx).any (·.live) = true
    let phase := if m.head.toNat / 2 ^ m.log2n % 2 = 0 then 2 ^ 63 else 0
    let completion := fun (l : List Host.Cell) (status : Nat) => storeBytes l (hostAddr m.completionAt) 16 (m.head.toNat + 2 ^ 32 * status + phase)
    let halts := fun (i : Instr) (u : State) (status : Nat) => ∃ t, exec i s = .next t ∧ t.mailbox q = { m with ctl := setBit m.ctl 1 true, status := BitVec.ofNat 16 status, index := m.head }
      ∧ t.mem = completion u.mem status ∧ (Calm u t → t.groups = u.groups) ∧ t.ctxs = u.ctxs
    let done := fun (i : Instr) (u : State) (status : Nat) => ∃ t, exec i s = .next t ∧ t.mailbox q = { m with head := m.head + 1, wait := .none }
      ∧ t.mem = (if bit (recFlags (u.record q)) 0 then completion u.mem status else u.mem) ∧ (Calm u t → t.groups = u.groups) ∧ t.ctxs = u.ctxs
    let accessed := fun (i : Instr) (u : State × Nat) => (u.2 ≠ 0 → halts i u.1 u.2)
      ∧ (u.2 = 0 → (u.1.mailboxOwed q = false → done i u.1 0)
        ∧ (u.1.mailboxOwed q = true → ∃ t, exec i s = .next t ∧ t = { u.1 with host := t.host } ∧ t.mailbox q = { m with wait := .acks } ∧ ∀ k, k ≠ q → t.mailbox k = s.mailbox k))
    let kinds : List (Instr × (Nat × Nat)) := [(.mailboxNop q, (0, 0)), (.mailboxWriteInline q, (1, 0)), (.mailboxWriteBulk q, (2, 0)), (.mailboxRead q, (3, 0)), (.mailboxInterrupt q, (4, 0)),
      (.mailboxTaskPost q, (5, 0)), (.callReply q, (6, 0)), (.mapPages q, (7, 1)), (.revoke q, (7, 2)), (.dispose q, (7, 3)), (.exportEntry q, (7, 4)), (.createContext q, (7, 5)), (.destroyContext q, (7, 6)),
      (.traceControl q, (7, 7)), (.interruptConfiguration q, (7, 8))]
    let acts := fun (tag : Nat × Nat) => s.mailboxReady q = true ∧ s.recordTag q = tag ∧ m.overrun = false ∧ live ∧ recordOk x = true
    let p := BitVec.ofNat 64 (bytesAt x 8 8)
    let inline := s.mailboxWrite q m.ctx mailboxUnits p (bytesAt x 4 4) (bytesAt x 32 32)
    let bulk := s.mailboxWrite q m.ctx mailboxUnits p (bytesAt x 4 4) (s.hostRead (bytesAt x 16 8) (bytesAt x 4 4))
    let read := s.mailboxRead m.ctx mailboxUnits p (bytesAt x 4 4) (bytesAt x 16 8)
    (∀ e ∈ kinds, (s.mailboxReady q = false ∨ s.recordTag q ≠ e.2 → exec e.1 s = .next s)
      ∧ (s.mailboxReady q = true → s.recordTag q = e.2 → m.overrun = true → halts e.1 s 6)
      ∧ (s.mailboxReady q = true → s.recordTag q = e.2 → m.overrun = false → ¬ live → halts e.1 s 7)
      ∧ (s.mailboxReady q = true → s.recordTag q = e.2 → m.overrun = false → live → recordOk x = false → halts e.1 s 1))
    ∧ (acts (0, 0) → done (.mailboxNop q) s (if recKind x = 7 then 8 else 0))
    ∧ (acts (1, 0) → accessed (.mailboxWriteInline q) inline) ∧ (acts (2, 0) → accessed (.mailboxWriteBulk q) bulk) ∧ (acts (3, 0) → accessed (.mailboxRead q) read)
    ∧ (acts (4, 0) → done (.mailboxInterrupt q) (s.interrupt (bytesAt x 26 2) (BitVec.ofNat 6 (bytesAt x 24 1)) (BitVec.ofNat 64 (bytesAt x 32 8)) 2 (zext 16 m.cls) 0) 0)
    ∧ (acts (5, 0) → done (.mailboxTaskPost q) (s.postTask m.ctx p) 0)
    ∧ (acts (6, 0) →
        let seq := BitVec.ofNat 32 (bytesAt x 24 4)
        let L := bytesAt x 28 1
        let status := BitVec.ofNat 16 (bytesAt x 30 2)
        let k := s.homeSlice m.ctx
        let entry := (s.slice k).ring.find? (fun e => e.seq == seq && e.ctx == m.ctx && e.forwarded.contains L && e.n != 2)
        (entry = none → done (.callReply q) s 5)
        ∧ ∀ e, entry = some e → e.n ≠ 3 →
            let result := if status = 0 then BitVec.ofNat 64 (bytesAt x 32 8) else callFailure status
            let e' := { e with forwarded := e.forwarded.filter (fun y => y != L), results := e.results ++ [(L, result)] }
            ((∃ y ∈ e.forwarded, y ≠ L) → done (.callReply q) s 0 ∧ ∀ t, exec (.callReply q) s = .next t → (t.slice k).ring = (s.slice k).ring.map (fun y => if y.seq = e.seq then e' else y))
            ∧ ((∀ y ∈ e.forwarded, y = L) → e.answers = [] → s.convoyOf e.g = none → ∀ g, s.group e.g = some g → g.st = .offCore → ∃ t, exec (.callReply q) s = .next t
                ∧ t.mailbox q = { m with head := m.head + 1, wait := .none } ∧ (t.slice k).ring = (s.slice k).ring.filter (fun y => y.seq != e.seq) ∧ .groupRestore g.place.core ∈ t.agenda
                ∧ (Calm s t → t.group e.g = some { (e'.results.foldl (fun g r => g.modLanes (oneBit r.1) (fun _ t => t.answer r.2)) g) with sched := { g.sched with returning := true } })))
    ∧ ∀ (ctx : Nat) (v : Word64) (n data : Nat) (u : State), n ≤ 8 - v.toNat % 8 → 0 < n →
        (∀ f st, s.mailboxUnit ctx v true = (u, .inl st) → s.mailboxWrite q ctx (f + 1) v n data = (u, st))
        ∧ (∀ f l, s.mailboxUnit ctx v true = (u, .inr l) → ∃ w, s.mailboxWrite q ctx (f + 1) v n data = (w, 0) ∧ ((u.line (l.pa / 256)).contained = none → Calm u w → w.groups = u.groups)
            ∧ (regionOf l.pa = 2 → w.mem = u.mem ∧ w.mailboxOwed q = true) ∧ (regionOf l.pa ≠ 2 → w.mem = storeBytes u.mem l.pa n (data % 256 ^ n)))
        ∧ (∀ f h l, s.mailboxUnit ctx v false = (u, .inr l) → regionOf l.pa ≠ 2 → ∃ w, s.mailboxRead ctx (f + 1) v n h = (w, 0) ∧ (Calm u w → w.groups = u.groups)
            ∧ w.mem = storeBytes u.mem (hostAddr h) n (u.readPhys l.pa n))
        ∧ (∀ w r, s.mailboxUnit ctx v w = (u, r) → u.groups = s.groups ∧ (pointerForm v = false → r = .inl 2)
            ∧ ∀ l, pointerForm v = true → s.leafFor 0 ctx (virtOf v) = .ok l → l.check { read := !w, write := w } = some .permission → r = .inl 3)

/-- A record of kind 4 is an arrival from the queue's host process class: it is tested by 12 R342 alone, and a refused one completes with status 0 as an accepted one does (13 R362).
Completion: `exec` answers a next state for mailboxInterrupt. -/
def Obligations.HostInterruptRecordsFollowTheSenderTable : Prop :=
  ∀ (s : State) (q : Nat), q < 256 →
    let m := s.mailbox q
    let x := s.record q
    let n := bytesAt x 26 2
    let v := BitVec.ofNat 6 (bytesAt x 24 1)
    let phase := if m.head.toNat / 2 ^ m.log2n % 2 = 0 then 2 ^ 63 else 0
    s.mailboxReady q = true → s.recordTag q = (4, 0) → m.overrun = false → m.dead = false → (s.context m.ctx).any (·.live) = true → recordOk x = true →
      ∃ t, exec (.mailboxInterrupt q) s = .next t ∧ t.mailbox q = { m with head := m.head + 1, wait := .none }
        ∧ t.mem = (if bit (recFlags x) 0 then storeBytes s.mem (hostAddr m.completionAt) 16 (m.head.toNat + phase) else s.mem)
        ∧ ((s.irqOf n).accepts v 2 (zext 16 m.cls) 0 = true → t.irqOf n = (s.irqOf n).arrive v.toNat (BitVec.ofNat 64 (bytesAt x 32 8)) ∧ ∀ k, k ≠ n → t.context k = s.context k)
        ∧ ((s.irqOf n).accepts v 2 (zext 16 m.cls) 0 = false → t.ctxs = s.ctxs ∧ (Calm s t → t.groups = s.groups))

/-- The requests to the service kernel in records of kind 7 (13 R367): refused from a queue of another class than 0, and requests 5 to 8 from a queue not bound to context 0; a refused request changes
nothing. Map, revoke, dispose, export, create, destroy, trace control and interrupt configuration have the effects of 13 R368, R369, R366, R381, R371, R372 and R373. Where the pages of a new context lie is the
model's choice (log 41).
Completion: `exec` answers a next state for mapPages, revoke, revokeDrainComplete, dispose, exportEntry, createContext, destroyContext, destroyDrainComplete, traceControl,
interruptConfiguration. -/
def Obligations.KernelRequestsAreServed : Prop :=
  (∀ (s : State) (q : Nat), q < 256 →
    let m := s.mailbox q
    let x := s.record q
    let phase := if m.head.toNat / 2 ^ m.log2n % 2 = 0 then 2 ^ 63 else 0
    let completion := fun (l : List Host.Cell) (status value : Nat) => storeBytes l (hostAddr m.completionAt) 16 (m.head.toNat + 2 ^ 32 * status + phase + 2 ^ 64 * value)
    let done := fun (i : Instr) (u : State) (status value : Nat) => ∃ t, exec i s = .next t ∧ t.mailbox q = { m with head := m.head + 1, wait := .none }
      ∧ t.mem = (if bit (recFlags (u.record q)) 0 then completion u.mem status value else u.mem) ∧ (Calm u t → t.groups = u.groups) ∧ t.ctxs = u.ctxs
    let acts := fun (code : Nat) => s.mailboxReady q = true ∧ s.recordTag q = (7, code) ∧ m.overrun = false ∧ m.dead = false ∧ (s.context m.ctx).any (·.live) = true ∧ recordOk x = true
    let may := fun (code : Nat) => m.cls = 0 ∧ (5 ≤ code → m.ctx = 0)
    let codes : List (Instr × Nat) := [(.mapPages q, 1), (.revoke q, 2), (.dispose q, 3), (.exportEntry q, 4), (.createContext q, 5), (.destroyContext q, 6), (.traceControl q, 7), (.interruptConfiguration q, 8)]
    let n := bytesAt x 32 2
    (∀ e ∈ codes, acts e.2 → ¬ may e.2 → done e.1 s 8 0)
    ∧ (acts 1 → may 1 → (s.mapExtent m.ctx x = none → done (.mapPages q) s 8 0) ∧ ∀ u k, s.mapExtent m.ctx x = some (u, k) → done (.mapPages q) u 0 k)
    ∧ (acts 2 → may 2 → (bytesAt x 32 24 ≠ 0 → done (.revoke q) s 8 0)
        ∧ (bytesAt x 32 24 = 0 → ∃ t l, exec (.revoke q) s = .next t ∧ t.mailbox q = { m with wait := .revoke l } ∧ .revokeDrainComplete q ∈ t.agenda ∧ t.groups = s.groups
            ∧ (∀ c, s.context m.ctx = some c → t.context m.ctx = some { c with extents := c.extents.filter (fun e => e.1 != bytesAt x 56 8) }
                ∧ ∀ p w, c.extentPages (bytesAt x 56 8) = [p] → s.walk m.ctx (4096 * p) = .ok w → l = [w.phys (4096 * p) / 4096]
                    ∧ t.mem = storeBytes s.mem w.at_ 8 (setBit (BitVec.ofNat 64 (s.readPhys w.at_ 8)) 9 true).toNat)))
    ∧ (∀ l, m.wait = .revoke l →
        (s.pagesBusy l.contains = true → exec (.revokeDrainComplete q) s = .next s) ∧ (s.pagesBusy l.contains = false → done (.revokeDrainComplete q) s 0 l.length))
    ∧ ((∀ l, m.wait ≠ .revoke l) → exec (.revokeDrainComplete q) s = .next s)
    ∧ (acts 3 → may 3 →
        let d := bytesAt x 36 4
        (d = 0 ∨ 6 < d ∨ bytesAt x 40 24 ≠ 0 ∨ s.hostEvent (bytesAt x 32 4) = none → done (.dispose q) s 8 0)
        ∧ ∀ k, 1 ≤ d → d ≤ 6 → d ≠ 5 → bytesAt x 40 24 = 0 → s.hostEvent (bytesAt x 32 4) = some k → done (.dispose q) (s.dispose k (BitVec.ofNat 8 d)) 0 0)
    ∧ (acts 4 → may 4 →
        let ok := m.ctx ≠ 0 ∧ bytesAt x 33 1 = 0 ∧ bytesAt x 38 2 < 8 ∧ bytesAt x 48 8 % 4096 = 0 ∧ bytesAt x 48 8 ≤ 2 ^ 32 ∧ bytesAt x 56 8 = 0
        (¬ ok → done (.exportEntry q) s 8 0)
        ∧ (ok → ∃ u, done (.exportEntry q) u 0 0 ∧ u.mem = s.mem ∧ u.groups = s.groups ∧ (∀ k, k ≠ m.ctx → u.context k = s.context k)
            ∧ ∀ c, s.context m.ctx = some c → ∃ c', u.context m.ctx = some c' ∧ c' = { c with exports := c'.exports }
              ∧ Tab.get? (bytesAt x 32 1) c'.exports = some { dev := BitVec.ofNat 16 (bytesAt x 34 2), ctx := BitVec.ofNat 16 (bytesAt x 36 2), perms := BitVec.ofNat 16 (bytesAt x 38 2), va := BitVec.ofNat 64 (bytesAt x 40 8), size := BitVec.ofNat 64 (bytesAt x 48 8) }
              ∧ ∀ k, k ≠ bytesAt x 32 1 → Tab.get? k c'.exports = Tab.get? k c.exports))
    ∧ (acts 5 → may 5 →
        let image := bytesAt x 40 8
        let scope := if image = 0 then 0 else s.hostRead image 1024
        (createFields x = false ∨ scopeTableOk scope = false → done (.createContext q) s 8 0)
        ∧ ∀ k u, createFields x = true → scopeTableOk scope = true → s.freeContext = some k →
            s.buildContext k (createdContext x (s.homeFor (BitVec.ofNat 4 (bytesAt x 33 1))) scope) scope = some u →
            done (.createContext q) u 0 k ∧ u.groups = s.groups ∧ 1 ≤ k ∧ k ≤ 65534 ∧ s.context k = none ∧ (∀ j, 1 ≤ j → j < k → s.context j ≠ none) ∧ (∀ j, j ≠ k → u.context j = s.context j)
            ∧ ∃ c, u.context k = some c ∧ c.live = true ∧ c.priority = bytesAt x 32 1 ∧ c.dieMask = BitVec.ofNat 4 (bytesAt x 33 1) ∧ (c.debuggable = true ↔ bytesAt x 34 2 = 1)
              ∧ c.saveSize = bytesAt x 36 4 * 2 ^ 20 ∧ c.fabric = BitVec.ofNat 16 (bytesAt x 48 2) ∧ c.tasks = [] ∧ c.counters = [] ∧ c.gen = 1 ∧ c.irq.pending = 0)
    ∧ (acts 6 → may 6 →
        let ok := n ≠ 0 ∧ bytesAt x 34 30 = 0 ∧ (s.context n).any (·.live) = true
        (¬ ok → done (.destroyContext q) s 8 0)
        ∧ (ok → ∃ t, exec (.destroyContext q) s = .next t ∧ t.mailbox q = { m with wait := .destroy n } ∧ .destroyDrainComplete n ∈ t.agenda ∧ (t.context n).any (·.live) = false))
    ∧ (acts 7 → may 7 →
        let ok := (s.context n).any (fun c => c.live && c.debuggable) = true ∧ bytesAt x 34 6 = 0 ∧ bytesAt x 40 8 % 4096 = 0 ∧ 12 ≤ bytesAt x 48 1 ∧ bytesAt x 48 1 ≤ 30 ∧ bytesAt x 49 1 < 16
          ∧ 10 ≤ bytesAt x 50 1 ∧ bytesAt x 50 1 ≤ 30 ∧ bytesAt x 51 13 = 0
        (¬ ok → done (.traceControl q) s 8 0)
        ∧ (ok → ∃ u, done (.traceControl q) u 0 0 ∧ u.mem = s.mem ∧ u.groups = s.groups ∧ (∀ k, k ≠ n → u.context k = s.context k)
            ∧ ∀ c, s.context n = some c → u.context n = some { c with trace := { c.trace with bufva := BitVec.ofNat 64 (bytesAt x 40 8), log2size := BitVec.ofNat 8 (bytesAt x 48 1), kinds := BitVec.ofNat 8 (bytesAt x 49 1), log2period := BitVec.ofNat 8 (bytesAt x 50 1), enable := bytesAt x 40 8 != 0 } }))
    ∧ (acts 8 → may 8 →
        let i := bytesAt x 35 1
        let ok := n ≠ 0 ∧ (s.context n).any (·.live) = true ∧ i < 64 ∧ bytesAt x 36 4 = 0 ∧ ((bytesAt x 34 1 = 0 ∧ bytesAt x 40 8 < 8 ∧ bytesAt x 48 16 = 0)
          ∨ (bytesAt x 34 1 = 1 ∧ bytesAt x 48 1 < 4 ∧ bytesAt x 49 1 = 0 ∧ bytesAt x 54 10 = 0))
        (¬ ok → done (.interruptConfiguration q) s 8 0)
        ∧ (ok → ∃ u, done (.interruptConfiguration q) u 0 0 ∧ u.mem = s.mem ∧ u.groups = s.groups ∧ (∀ k, k ≠ n → u.context k = s.context k)
            ∧ (bytesAt x 34 1 = 0 → (u.irqOf n).vector i = { (s.irqOf n).vector i with mode := BitVec.ofNat 2 (bytesAt x 40 8), wake := bytesAt x 40 8 / 4 == 1 } ∧ (u.irqOf n).senders = (s.irqOf n).senders)
            ∧ (bytesAt x 34 1 = 1 → (u.irqOf n).vectors = (s.irqOf n).vectors ∧ Tab.get? i (u.irqOf n).senders =
                if bytesAt x 48 1 = 0 then none else some { allowed := BitVec.ofNat 64 (bytesAt x 40 8), kind := BitVec.ofNat 2 (bytesAt x 48 1), num := BitVec.ofNat 16 (bytesAt x 50 2), dev := BitVec.ofNat 16 (bytesAt x 52 2) }))))
  ∧ (∀ (s u : State) (ctx x k : Nat), s.mapExtent ctx x = some (u, k) →
      mapFields x = true ∧ k = bytesAt x 40 4 ∧ u.groups = s.groups
      ∧ (u.context ctx).map (·.extents) = (s.context ctx).map (fun c => c.extents ++ [(bytesAt x 56 8, virtOf (BitVec.ofNat 64 (bytesAt x 32 8)) / 4096, k)])
      ∧ ∀ pa w a, k = 1 → s.mapSource (bytesAt x 44 2 / 8 % 2 == 1) (bytesAt x 48 8) 0 = some pa → s.leafPlace ctx (virtOf (BitVec.ofNat 64 (bytesAt x 32 8))) = some (w, a) →
          u.mem = storeBytes w.mem a 8 (mapLeaf (bytesAt x 44 2) pa).toNat)
  ∧ ∀ (s : State) (c : Nat),
      (s.contextIdle c = false → exec (.destroyDrainComplete c) s = .next s)
      ∧ (s.contextIdle c = true → ∃ t, exec (.destroyDrainComplete c) s = .next t ∧ t.context c = none ∧ (∀ k, k ≠ c → t.context k = s.context k) ∧ (∀ e ∈ t.phys, e.1 ≠ c) ∧ (Calm s t → t.groups = s.groups)
          ∧ (s.destroyer c = none → t.mem = s.mem) ∧ ∀ q, s.destroyer c = some q → q < 256 → (t.mailbox q).head = (s.mailbox q).head + 1 ∧ (t.mailbox q).wait = .none)

/-! ### Power, boot, management, debug -/

/-- Rails, reset and boot (16 R405, R406, R411, 17 R427): rails count in their order, a rail that goes and PERST# reset the module, and nothing of it but host memory, the images, the strap and the fuses stays.
Deasserting PERST# boots the main image, or the recovery image when the strap asks for it or the main image fails; with no image that passes it halts with BOOTERR. Boot goes on phase by phase: self-test, which
holds it at a unit that cannot be fenced, the counters, context 0 and the first plan, ready.
Completion: `exec` answers a next state for railOn, perstDeassert, perstAssert, railOff. -/
def Obligations.RailsResetAndBoot : Prop :=
  ∀ (s : State) (rail : Nat),
    let wasReset := fun (t : State) (rails : List Nat) => t.groups = State.reset.groups ∧ t.ctxs = State.reset.ctxs ∧ t.blks = State.reset.blks ∧ t.host = State.reset.host ∧ t.fenced = State.reset.fenced
      ∧ t.plat.rails = rails ∧ t.plat.perst = true ∧ t.plat.phase = 0 ∧ t.plat.ready = false ∧ t.plat.main = s.plat.main ∧ t.plat.rescue = s.plat.rescue ∧ t.plat.minVersion = s.plat.minVersion
      ∧ t.plat.strap = s.plat.strap ∧ (∀ a, 2 ^ 48 ≤ a → t.byteAt a = s.byteAt a) ∧ ∀ a, a < 2 ^ 48 → t.byteAt a = 0
    let goesOn := fun (t : State) (n : BitVec 4) => t.plat.phase = n ∧ t.plat.booting = true ∧ .perstDeassert ∈ t.agenda ∧ t.plat.ready = s.plat.ready ∧ t.plat.perst = false
    (rail ∈ s.plat.rails ∨ 4 ≤ rail → exec (.railOn rail) s = .next s)
    ∧ (¬ rail ∈ s.plat.rails → rail < 4 → exec (.railOn rail) s = .next { s with plat := { s.plat with
        rails := s.plat.rails ++ [rail], misordered := s.plat.misordered || rail != s.plat.rails.length || !s.plat.perst } })
    ∧ (¬ rail ∈ s.plat.rails → exec (.railOff rail) s = .next s)
    ∧ (rail ∈ s.plat.rails → ∃ t, exec (.railOff rail) s = .next t ∧ wasReset t (s.plat.rails.filter (fun r => r != rail)))
    ∧ (∃ t, exec .perstAssert s = .next t ∧ wasReset t s.plat.rails)
    ∧ (s.plat.perst = false → s.plat.booting = false → exec .perstDeassert s = .next s)
    ∧ (s.plat.perst = true →
        let mainOk := s.plat.main.fault s.plat.vendor s.plat.minVersion
        let rescueOk := s.plat.rescue.fault s.plat.vendor s.plat.minVersion
        (s.plat.rails ≠ [0, 1, 2, 3] ∨ s.plat.misordered = true → exec .perstDeassert s = .next { s with plat := { s.plat with perst := false } })
        ∧ (s.plat.rails = [0, 1, 2, 3] → s.plat.misordered = false →
            (s.plat.strap = true ∨ mainOk ≠ 0 → rescueOk ≠ 0 → ∃ t, exec .perstDeassert s = .next t ∧ t.bootErr = 0xEF04 ∧ t.plat.phase = 1 ∧ t.plat.ready = s.plat.ready ∧ t.ctxs = s.ctxs ∧ t.mem = s.mem)
            ∧ ((s.plat.strap = false ∧ mainOk = 0) ∨ rescueOk = 0 →
                ∃ t, exec .perstDeassert s = .next t ∧ goesOn t 1 ∧ t.plat.locked = true ∧ t.bootErr = (if s.plat.strap then 0 else mainOk)
                  ∧ (t.plat.recovery = true ↔ s.plat.strap = true ∨ mainOk ≠ 0))))
    ∧ (s.plat.perst = false → s.plat.booting = true →
        (s.plat.phase = 1 → (s.plat.defects = [] → ∃ t, exec .perstDeassert s = .next t ∧ goesOn t 2 ∧ t.plat = { s.plat with phase := 2 })
          ∧ ∀ d, s.plat.defects = [d] → failedPartitions d = [] → ∃ t, exec .perstDeassert s = .next t ∧ t.plat = { s.plat with phase := 2, booting := false } ∧ t.bootErr = selfTestCode d)
        ∧ (s.plat.phase = 2 → ∃ t, exec .perstDeassert s = .next t ∧ goesOn t 3 ∧ t.plat = { s.plat with phase := 3 })
        ∧ (s.plat.phase = 3 → ∃ t c, exec .perstDeassert s = .next t ∧ goesOn t 4 ∧ t.plat.epoch = s.plat.epoch + 1 ∧ t.context 0 = some c ∧ c.live = true ∧ c.debuggable = false)
        ∧ (s.plat.phase = 4 → exec .perstDeassert s = .next { s with plat := { s.plat with phase := 5, ready := true, booting := false } }))

/-- Power, margins, skew, attestation and recovery (16 R408-R410, R413-R415, 15 R396, 17 R427). A measured skew that leaves its error bound is replaced by the true offset: the bound is kept for every measurement
the environment reports (a DESIGN CHOICE, log 46).
Completion: `exec` answers a next state for powerSample, marginPlan, voltageStep, skewMeasurement, powerlimWrite, attestationGo, certificateChainRequest, attestationReportDone,
firmwareRestore, firmwareRestoreDone. -/
def Obligations.ManagementBlockActs : Prop :=
  ∀ (s : State) (core watts temp : Nat) (x : BitVec 64) (slacks : List (Nat × Int)) (hot : List Nat) (offs : List (BitVec 64)),
    let quiet := fun (t : State) => t.groups = s.groups ∧ t.mem = s.mem ∧ t.ctxs = s.ctxs ∧ t.host.queues = s.host.queues
    (∃ t, exec (.powerSample watts temp) s = .next t ∧ quiet t ∧ t.plat.samples = (watts :: s.plat.samples).take 100 ∧ t.plat.tmax = BitVec.ofNat 16 (min temp 65535)
      ∧ t.plat.watts = BitVec.ofNat 16 (min (t.plat.samples.sum / t.plat.samples.length) 65535) ∧ t.plat.powerLim = s.plat.powerLim ∧ t.plat.hot = (s.plat.hot || decide (115 ≤ temp))
      ∧ (let w := t.plat.samples.sum / t.plat.samples.length
         (s.plat.powerLim.toNat < w ∨ 105 ≤ min temp 65535 → t.plat.throttle = true) ∧ (w ≤ s.plat.powerLim.toNat → 100 * w ≤ 95 * s.plat.powerLim.toNat → temp < 100 → t.plat.throttle = false)
         ∧ (w ≤ s.plat.powerLim.toNat → temp < 105 → (95 * s.plat.powerLim.toNat < 100 * w ∨ 100 ≤ temp) → t.plat.throttle = s.plat.throttle)))
    ∧ (s.plat.phase = 0 → exec (.powerlimWrite x) s = .next s ∧ exec (.attestationGo x) s = .next s)
    ∧ (s.plat.phase ≠ 0 → ∃ t, exec (.powerlimWrite x) s = .next t ∧ quiet t ∧ t.plat.powerLim.toNat = min (max (field 0 12 x).toNat 600) 2200 ∧ t.plat = { s.plat with powerLim := t.plat.powerLim, throttle := t.plat.throttle })
    ∧ (s.plat.ready = false → exec (.marginPlan slacks hot) s = .next s)
    ∧ (s.plat.ready = true → ∃ t, exec (.marginPlan slacks hot) s = .next t ∧ t.plat.epoch = s.plat.epoch + 1 ∧ t.plat.slacks = []
        ∧ ∀ c, c < 192 → ∃ n, Tab.get? c t.plat.margins = some n ∧ -20 ≤ n.target ∧ n.target ≤ 30 ∧ n.epoch = field 0 8 (s.plat.epoch + 1)
            ∧ (let m := (Tab.get? c s.plat.margins).getD {}
               n.offset = m.offset ∧ n.target = marginOffset m.target ((slacks.foldl Platform.noteSlack s.plat).slackOf c)))
    ∧ (∃ t, exec (.voltageStep core) s = .next t ∧ quiet t ∧ (∀ c, c ≠ core → Tab.get? c t.plat.margins = Tab.get? c s.plat.margins)
        ∧ ∀ m, Tab.get? core s.plat.margins = some m → ∃ n, Tab.get? core t.plat.margins = some n ∧ n = { m with offset := n.offset }
            ∧ (m.offset < m.target → n.offset = m.offset + 1) ∧ (m.target < m.offset → n.offset = m.offset - 1) ∧ (m.offset = m.target → n.offset = m.offset))
    ∧ (∃ t, exec (.skewMeasurement offs) s = .next t ∧ t = { s with dieSkew := t.dieSkew, portSkew := t.portSkew }
        ∧ ∀ d, d < 4 →
            let y := Assoc.get d t.dieSkew
            bit y 55 = true ∧ field 56 8 y = field 56 8 (offs.getD d 0) ∧ (field 56 8 y ≠ 255 → offsetDistance (field 0 48 y) (field 0 48 (s.clkOf d - s.clkOf 0)) ≤ (field 56 8 y).toNat))
    ∧ (s.plat.phase ≠ 0 → ∃ t, exec (.attestationGo x) s = .next t ∧ quiet t ∧ t = { s with plat := t.plat } ∧ t.plat.attCtx = field 32 16 x
        ∧ (bit x 0 = false ∨ s.plat.attBusy = true → t.plat = { s.plat with attCtx := field 32 16 x })
        ∧ (bit x 0 = true → s.plat.attBusy = false → t.plat.attBusy = true ∧ (t.plat.attChain = true ↔ field 32 16 x = 0xFFFF)))
    ∧ (field 32 16 x = 0xFFFF → exec (.certificateChainRequest x) s = exec (.attestationGo x) s) ∧ (field 32 16 x ≠ 0xFFFF → exec (.certificateChainRequest x) s = .next s)
    ∧ (∃ t, exec (.certificateChainRequest x) s = .next t ∧ quiet t ∧ t = { s with plat := t.plat })
    ∧ (s.plat.attBusy = false → exec .attestationReportDone s = .next s)
    ∧ (s.plat.attBusy = true → ∃ t, exec .attestationReportDone s = .next t ∧ (Calm s t → t.groups = s.groups) ∧ t.plat = { s.plat with attBusy := false, attChain := false, attReport := [] }
        ∧ t.mem = s.plat.attReport.foldl (fun l f => storeBytes l (hostAddr f.1) f.2.1 f.2.2) s.mem)
    ∧ exec (.firmwareRestore x) s = .next (if s.plat.recovery = true ∧ bit x 0 = true ∧ s.plat.fwBusy = false then { s with plat := { s.plat with fwBusy := true } } else s)
    ∧ (s.plat.fwBusy = false → exec .firmwareRestoreDone s = .next s)
    ∧ (s.plat.fwBusy = true → ∃ t, exec .firmwareRestoreDone s = .next t ∧ quiet t ∧ t.plat.fwBusy = false
        ∧ (s.plat.carried.fault s.plat.vendor s.plat.minVersion = 0 → t.plat.main = s.plat.carried ∧ t.plat.fwStatus = 0 ∧ t.bootErr = s.bootErr)
        ∧ (s.plat.carried.fault s.plat.vendor s.plat.minVersion ≠ 0 → t.plat.main.bootable = false ∧ t.plat.fwStatus = 0xEF05 ∧ t.bootErr = 0xEF05))

/-- The debug registers act on debuggable contexts only (15 R400-R404), and BAR0 is served from boot phase 1 on (16 R406): a listed register that the host may write reads back what its fields take (13 R353), the
registers with an effect have it, and an offset that is not listed ignores the write.
Completion: `exec` answers a next state for powerlimWrite, attestationGo, firmwareRestore, debugStop, debugResume, debugRefusedClear, bar0RegisterWrite, mqtailWrite, mqctlEnable,
heqctlEnable, heqheadWrite. -/
def Obligations.DebugAndHostRegistersTakeTheirWrites : Prop :=
  (∀ (s : State) (x : BitVec 64),
    (∀ i ∈ [Instr.debugStop x, .debugResume x], s.debuggable s.debugCtx = false → exec i s = .next { s with dbg := { s.dbg with refused := true } })
    ∧ (s.debuggable s.debugCtx = true → s.dbg.frozen = [] ∨ bit x 1 = true → ∃ t, exec (.debugStop x) s = .next t ∧ t.dbg.frozen = [(field 0 12 s.dbg.tgt).toNat] ∧ t.dbg.stopped = true
        ∧ t.dbg.armBrk = bit x 2 ∧ t.dbg.armWp = bit x 3 ∧ t.groups = s.groups)
    ∧ (s.debuggable s.debugCtx = true → bit x 0 = false → exec (.debugResume x) s = .next { s with dbg := { s.dbg with
        frozen := [], stopped := false, armBrk := bit x 2, armWp := bit x 3, refused := s.dbg.refused && !bit x 5 } })
    ∧ exec .debugRefusedClear s = .next { s with dbg := { s.dbg with refused := false } })
  ∧ ∀ (s : State) (off : Nat) (x : BitVec 64),
    (s.plat.phase = 0 → exec (.bar0RegisterWrite off x) s = .next s)
    ∧ (s.plat.phase ≠ 0 → off % 8 = 0 →
      let reads := fun (y : Word64) => ∃ t, exec (.bar0RegisterWrite off x) s = .next t ∧ t.readBar0 off = y ∧ (∀ o, o % 8 = 0 → o ≠ off → t.readBar0 o = s.readBar0 o) ∧ t.groups = s.groups ∧ t.mem = s.mem
      (off < 8 ∨ (0x18 ≤ off ∧ off < 0x800) ∨ (0xA00 ≤ off ∧ off < 0xC000) ∨ (0x14000 ≤ off ∧ off < 0x100000) ∨ 0x208000 ≤ off → exec (.bar0RegisterWrite off x) s = .next s)
      ∧ (off = 0x808 ∨ off = 0xC010 ∨ off = 0x10200 → reads (x &&& 0xFFFFFFFFFFFFF000#64))
      ∧ (off = 0xC000 → reads (x &&& 0x0000FFFF00000FFF#64) ∨ s.dbg.stopped = true)
      ∧ (0x810 ≤ off → off < 0x830 → reads x)
      ∧ (∀ n, n < 4 → (off = 0xC020 + 16 * n → reads x) ∧ (off = 0xC028 + 16 * n → reads (x &&& 0x1F07#64)))
      ∧ (∀ c, off = 0x10000 + 8 * c → c < 16 → s.host.route.length = 16 → reads (x &&& (if c = 1 then 0x07FF0004#64 else 0x07FF0007#64)))
      ∧ (0x200000 ≤ off → off < 0x208000 → ∃ t, exec (.bar0RegisterWrite off x) s = .next t ∧ t = { s with host := t.host } ∧ t.readBar0 off = x
          ∧ (∀ o, o % 8 = 0 → o ≠ off → o < 0x208000 → t.readBar0 o = s.readBar0 o)
          ∧ let v := (off - 0x200000) / 16
            let sent := s.host.msixPending.getLsbD v = true ∧ t.host.msixMasked v = false
            (sent → t.host.msix = s.host.msix ++ [v] ∧ t.host.msixPending.getLsbD v = false) ∧ (¬ sent → t.host.msix = s.host.msix ∧ t.host.msixPending = s.host.msixPending))
      ∧ (∀ q, q < 256 → (off = 0x100000 + 64 * q ∨ off = 0x100020 + 64 * q → reads (x &&& 0xFFFFFFFFFFFFF000#64))
          ∧ (off = 0x100008 + 64 * q → exec (.bar0RegisterWrite off x) s = exec (.mqctlEnable q x) s) ∧ (off = 0x100010 + 64 * q → exec (.bar0RegisterWrite off x) s = exec (.mqtailWrite q x) s))
      ∧ (off = 0x10208 → exec (.bar0RegisterWrite off x) s = exec (.heqctlEnable x) s) ∧ (off = 0x10210 → exec (.bar0RegisterWrite off x) s = exec (.heqheadWrite x) s)
      ∧ (off = 0x10 → exec (.bar0RegisterWrite off x) s = exec (.powerlimWrite x) s) ∧ (off = 0x800 → exec (.bar0RegisterWrite off x) s = exec (.attestationGo x) s)
      ∧ (off = 0x900 → exec (.bar0RegisterWrite off x) s = exec (.firmwareRestore x) s))

/-! ### Ports -/

/-- The coherent port and Wayline (20 R483-R485, 13 R381-R385). A peer's acknowledgement ends a request and lets its load return; a refusal stops a load's lanes, marks a store, ends a copy record; a request without
a route fails, and a load's words are poisoned; a failed port leaves the route table and its requests take another route; a host write waits while the coherent port is down. A peer's access performs when an
export entry allows it, and is refused otherwise. A route changes once nothing is owed on the old one.
Completion: `exec` answers a next state for cxlPortFailure, cxlPortRecovery, waylineRemoteAccess, waylineAck, remoteRefusal, waylinePortDown, waylinePortRetrained, waylineRequestTimeout,
routeTableChange, cxlWriteAcknowledgement. -/
def Obligations.PortsAnswerAndFail : Prop :=
  (∀ (s : State) (id : Nat),
    (∀ i ∈ [Instr.waylineAck id, .remoteRefusal id, .waylineRequestTimeout id, .cxlWriteAcknowledgement id], Tab.get? id s.remotes = none → exec i s = .next s)
    ∧ ∀ r, Tab.get? id s.remotes = some r →
      (∀ i ∈ [Instr.waylineAck id, .remoteRefusal id, .waylineRequestTimeout id], r.host = true → exec i s = .next s)
      ∧ (r.host = false ∨ s.cxlUp = false → exec (.cxlWriteAcknowledgement id) s = .next s)
      ∧ (r.host = true → s.cxlUp = true → ∃ t, exec (.cxlWriteAcknowledgement id) s = .next t ∧ t.remotes = Tab.del id s.remotes ∧ t.groups = s.groups ∧ t.mem = s.mem)
      ∧ (r.host = false →
        (r.kind ≠ 3 → ∀ i ∈ [Instr.waylineAck id, .remoteRefusal id], ∃ t, exec i s = .next t ∧ Tab.get? id t.remotes = none)
        ∧ (r.kind = 0 → r.out = none → (∃ t, exec (.waylineAck id) s = .next t ∧ t.remotes = Tab.del id s.remotes ∧ (∀ k, t.group k = if k = r.g then (s.group k).map Group.wakeTurned else s.group k) ∧ t.mem = s.mem)
            ∧ ∃ t, exec (.remoteRefusal id) s = .next t ∧ t.remotes = Tab.del id s.remotes ∧ t.mem = s.mem ∧ (∀ k, k ≠ r.g → t.group k = s.group k)
              ∧ ∀ g, s.group r.g = some g → t.group r.g = some { g.wakeTurned with flow := { g.flow with refusals := g.flow.refusals ++ [(r.mask, r.ptr)] } })
        ∧ (∀ g o, r.kind = 1 → r.out = some o → s.group r.g = some g → ({ s with remotes := Tab.del id s.remotes }).dataHere r.g o = true → g.flow.watch = [] →
            ∃ t, exec (.waylineAck id) s = .next t ∧ .loadDataReturn r.g o ∈ t.agenda ∧ t.group r.g = some g.wakeTurned ∧ (∀ k, k ≠ r.g → t.group k = s.group k) ∧ t.mem = s.mem)
        ∧ (∀ g o, r.kind = 1 → r.out = some o → s.group r.g = some g → ({ s with remotes := Tab.del id s.remotes }).dataHere r.g o = false →
            ∃ t, exec (.remoteRefusal id) s = .next t ∧ t.group r.g = some (g.refuseLane o r.mask r.ptr).wakeTurned ∧ (∀ k, k ≠ r.g → t.group k = s.group k) ∧ t.mem = s.mem)
        ∧ (let routed := s.portsTo r.die r.dev ≠ 0
           (routed → exec (.waylineRequestTimeout id) s = .next { s with agenda := s.agenda ++ [.waylineAck id] })
           ∧ (¬ routed → (r.kind ≠ 3 → ∃ t, exec (.waylineRequestTimeout id) s = .next t ∧ Tab.get? id t.remotes = none)
              ∧ ∀ g o, r.kind = 1 → r.out = some o → s.group r.g = some g → ({ s with remotes := Tab.del id s.remotes }).dataHere r.g o = false →
                  ∃ t, exec (.waylineRequestTimeout id) s = .next t ∧ t.group r.g = some (g.failRequest o r.mask).wakeTurned ∧ t.mem = s.mem))))
  ∧ (∀ (s : State) (port : Nat),
    exec .cxlPortFailure s = .next { s with cxlUp := false }
    ∧ (∃ t, exec .cxlPortRecovery s = .next t ∧ t = { s with cxlUp := true, agenda := t.agenda } ∧ ∀ e ∈ s.remotes, e.2.host = true → .cxlWriteAcknowledgement e.1 ∈ t.agenda)
    ∧ (∃ t, exec (.waylinePortRetrained port) s = .next t ∧ t = { s with slices := t.slices, host := t.host, agenda := t.agenda })
    ∧ ∃ t, exec (.waylinePortDown port) s = .next t ∧ t.ports = s.ports &&& ~~~(BitVec.ofNat 16 (2 ^ port)) ∧ t.groups = s.groups ∧ t.mem = s.mem ∧ t.routes = s.routes
      ∧ ∀ e, s.remotes = [e] → e.2.host = false → e.2.port = port →
          let ps := t.portsTo e.2.die e.2.dev
          (ps = 0 → .waylineRequestTimeout e.1 ∈ t.agenda ∧ t.remotes = s.remotes) ∧ (ps ≠ 0 → t.remotes = [(e.1, { e.2 with port := ctzFrom ps 16 0 })]))
  ∧ (∀ (s : State) (dev : Nat) (ports : BitVec 16), s.routePending = [] →
    (s.owedBy (dev % 256) = true → exec (.routeTableChange dev ports) s = .next { s with routePending := [(dev % 256, ports)] })
    ∧ (s.owedBy (dev % 256) = false → ∃ t, exec (.routeTableChange dev ports) s = .next t ∧ t = { s with routes := t.routes, ports := s.ports ||| ports } ∧ Assoc.get (dev % 256) t.routes = ports
        ∧ ∀ d, d ≠ dev % 256 → Assoc.get d t.routes = Assoc.get d s.routes))
  ∧ ∀ (s : State) (dev ctx : BitVec 16) (entry : BitVec 8) (off : BitVec 32) (op : BitVec 6) (size : Nat) (data : List (BitVec 32)),
    let access := Instr.waylineRemoteAccess dev ctx entry off op size data
    (s.exporter dev ctx entry off op size = none → exec access s = .next { s with replies := s.replies ++ [{ dev := dev, value := none }] })
    ∧ ∀ c e u r, s.exporter dev ctx entry off op size = some (c, e) → s.exportPieces c (peerNeed op) (pieces (plusPtr e.va off.toNat) size) = (u, r) →
      (∃ d ∈ s.ctxs, d.1 = c ∧ d.2.live = true) ∧ e.dev = dev ∧ e.ctx = ctx ∧ off.toNat + size ≤ e.size.toNat ∧ bit e.perms (peerPermission op) = true
      ∧ (r = none → exec access s = .next { u with replies := u.replies ++ [{ dev := dev, value := none }] })
      ∧ ∀ l, r = some l →
          let busy := l.any (fun x => u.engineOwns (sectorOf x.pa))
          (busy = true → ∃ n, u.clocks < n ∧ exec access s = .next { u with late := u.late ++ [(n, access)] })
          ∧ (field 4 2 op = 0 → busy = false → ∃ t, exec access s = .next t ∧ t.mem = u.mem ∧ (Calm u t → t.groups = u.groups)
              ∧ t.replies = u.replies ++ [{ dev := dev, value := some (l.foldl (fun a x => a + u.readPhys x.pa x.len * 256 ^ x.off) 0) }])
          ∧ (∀ p, field 4 2 op = 1 → busy = false → l = [p] → p.off = 0 → ∃ t v, exec access s = .next t ∧ t.mem = storeBytes u.mem p.pa p.len (valueOf data % 256 ^ p.len)
              ∧ t.replies = u.replies ++ [{ dev := dev, value := some v }] ∧ (Calm u t → t.groups = u.groups))
end

