-- ==== Sys2Proof/Laws/State.lean ====
section
/-! SUPPORT. One lemma per field and named update of State: what an update leaves alone. All are true by rfl. -/
namespace Sys2Proof.Machine

variable (s : State)

/-! `modGroup` -/
@[simp] theorem State.modGroup_issue (g : Nat) (f : Group → Group) : (s.modGroup g f).issue = s.issue := rfl
@[simp] theorem State.modGroup_unissued (g : Nat) (f : Group → Group) : (s.modGroup g f).unissued = s.unissued := rfl
@[simp] theorem State.modGroup_mem (g : Nat) (f : Group → Group) : (s.modGroup g f).mem = s.mem := rfl
@[simp] theorem State.modGroup_ctxs (g : Nat) (f : Group → Group) : (s.modGroup g f).ctxs = s.ctxs := rfl
@[simp] theorem State.modGroup_parts (g : Nat) (f : Group → Group) : (s.modGroup g f).parts = s.parts := rfl
@[simp] theorem State.modGroup_blks (g : Nat) (f : Group → Group) : (s.modGroup g f).blks = s.blks := rfl
@[simp] theorem State.modGroup_dies (g : Nat) (f : Group → Group) : (s.modGroup g f).dies = s.dies := rfl
@[simp] theorem State.modGroup_cores (g : Nat) (f : Group → Group) : (s.modGroup g f).cores = s.cores := rfl
@[simp] theorem State.modGroup_sectors (g : Nat) (f : Group → Group) : (s.modGroup g f).sectors = s.sectors := rfl
@[simp] theorem State.modGroup_launches (g : Nat) (f : Group → Group) : (s.modGroup g f).launches = s.launches := rfl
@[simp] theorem State.modGroup_slices (g : Nat) (f : Group → Group) : (s.modGroup g f).slices = s.slices := rfl
@[simp] theorem State.modGroup_queues (g : Nat) (f : Group → Group) : (s.modGroup g f).queues = s.queues := rfl
@[simp] theorem State.modGroup_room (g : Nat) (f : Group → Group) : (s.modGroup g f).room = s.room := rfl
@[simp] theorem State.modGroup_fenced (g : Nat) (f : Group → Group) : (s.modGroup g f).fenced = s.fenced := rfl
@[simp] theorem State.modGroup_host (g : Nat) (f : Group → Group) : (s.modGroup g f).host = s.host := rfl
@[simp] theorem State.modGroup_clk (g : Nat) (f : Group → Group) : (s.modGroup g f).clk = s.clk := rfl
@[simp] theorem State.modGroup_bootErr (g : Nat) (f : Group → Group) : (s.modGroup g f).bootErr = s.bootErr := rfl
@[simp] theorem State.modGroup_lines (g : Nat) (f : Group → Group) : (s.modGroup g f).lines = s.lines := rfl
@[simp] theorem State.modGroup_logical (g : Nat) (f : Group → Group) : (s.modGroup g f).logical = s.logical := rfl
@[simp] theorem State.modGroup_signatures (g : Nat) (f : Group → Group) : (s.modGroup g f).signatures = s.signatures := rfl
@[simp] theorem State.modGroup_expected (g : Nat) (f : Group → Group) : (s.modGroup g f).expected = s.expected := rfl
@[simp] theorem State.modGroup_ends (g : Nat) (f : Group → Group) : (s.modGroup g f).ends = s.ends := rfl
@[simp] theorem State.modGroup_dramEnds (g : Nat) (f : Group → Group) : (s.modGroup g f).dramEnds = s.dramEnds := rfl
@[simp] theorem State.modGroup_oldCode (g : Nat) (f : Group → Group) : (s.modGroup g f).oldCode = s.oldCode := rfl
@[simp] theorem State.modGroup_epoch (g : Nat) (f : Group → Group) : (s.modGroup g f).epoch = s.epoch := rfl
@[simp] theorem State.modGroup_stores (g : Nat) (f : Group → Group) : (s.modGroup g f).stores = s.stores := rfl
@[simp] theorem State.modGroup_remotes (g : Nat) (f : Group → Group) : (s.modGroup g f).remotes = s.remotes := rfl
@[simp] theorem State.modGroup_cxlUp (g : Nat) (f : Group → Group) : (s.modGroup g f).cxlUp = s.cxlUp := rfl
@[simp] theorem State.modGroup_routes (g : Nat) (f : Group → Group) : (s.modGroup g f).routes = s.routes := rfl
@[simp] theorem State.modGroup_ports (g : Nat) (f : Group → Group) : (s.modGroup g f).ports = s.ports := rfl
@[simp] theorem State.modGroup_routePending (g : Nat) (f : Group → Group) : (s.modGroup g f).routePending = s.routePending := rfl
@[simp] theorem State.modGroup_dbg (g : Nat) (f : Group → Group) : (s.modGroup g f).dbg = s.dbg := rfl
@[simp] theorem State.modGroup_plat (g : Nat) (f : Group → Group) : (s.modGroup g f).plat = s.plat := rfl
@[simp] theorem State.modGroup_dieSkew (g : Nat) (f : Group → Group) : (s.modGroup g f).dieSkew = s.dieSkew := rfl
@[simp] theorem State.modGroup_portSkew (g : Nat) (f : Group → Group) : (s.modGroup g f).portSkew = s.portSkew := rfl
@[simp] theorem State.modGroup_turn (g : Nat) (f : Group → Group) : (s.modGroup g f).turn = s.turn := rfl
@[simp] theorem State.modGroup_convoys (g : Nat) (f : Group → Group) : (s.modGroup g f).convoys = s.convoys := rfl
@[simp] theorem State.modGroup_copies (g : Nat) (f : Group → Group) : (s.modGroup g f).copies = s.copies := rfl
@[simp] theorem State.modGroup_mxops (g : Nat) (f : Group → Group) : (s.modGroup g f).mxops = s.mxops := rfl
@[simp] theorem State.modGroup_replies (g : Nat) (f : Group → Group) : (s.modGroup g f).replies = s.replies := rfl
@[simp] theorem State.modGroup_phys (g : Nat) (f : Group → Group) : (s.modGroup g f).phys = s.phys := rfl
@[simp] theorem State.modGroup_zeroing (g : Nat) (f : Group → Group) : (s.modGroup g f).zeroing = s.zeroing := rfl
@[simp] theorem State.modGroup_windows (g : Nat) (f : Group → Group) : (s.modGroup g f).windows = s.windows := rfl
@[simp] theorem State.modGroup_nextId (g : Nat) (f : Group → Group) : (s.modGroup g f).nextId = s.nextId := rfl
@[simp] theorem State.modGroup_agenda (g : Nat) (f : Group → Group) : (s.modGroup g f).agenda = s.agenda := rfl
@[simp] theorem State.modGroup_late (g : Nat) (f : Group → Group) : (s.modGroup g f).late = s.late := rfl
@[simp] theorem State.modGroup_clocks (g : Nat) (f : Group → Group) : (s.modGroup g f).clocks = s.clocks := rfl
@[simp] theorem State.modGroup_agentStamps (g : Nat) (f : Group → Group) : (s.modGroup g f).agentStamps = s.agentStamps := rfl
@[simp] theorem State.modGroup_free (g : Nat) (f : Group → Group) : (s.modGroup g f).free = s.free := rfl

/-! `push` -/
@[simp] theorem State.push_issue (l : List Instr) : (s.push l).issue = s.issue := rfl
@[simp] theorem State.push_unissued (l : List Instr) : (s.push l).unissued = s.unissued := rfl
@[simp] theorem State.push_groups (l : List Instr) : (s.push l).groups = s.groups := rfl
@[simp] theorem State.push_mem (l : List Instr) : (s.push l).mem = s.mem := rfl
@[simp] theorem State.push_ctxs (l : List Instr) : (s.push l).ctxs = s.ctxs := rfl
@[simp] theorem State.push_parts (l : List Instr) : (s.push l).parts = s.parts := rfl
@[simp] theorem State.push_blks (l : List Instr) : (s.push l).blks = s.blks := rfl
@[simp] theorem State.push_dies (l : List Instr) : (s.push l).dies = s.dies := rfl
@[simp] theorem State.push_cores (l : List Instr) : (s.push l).cores = s.cores := rfl
@[simp] theorem State.push_sectors (l : List Instr) : (s.push l).sectors = s.sectors := rfl
@[simp] theorem State.push_launches (l : List Instr) : (s.push l).launches = s.launches := rfl
@[simp] theorem State.push_slices (l : List Instr) : (s.push l).slices = s.slices := rfl
@[simp] theorem State.push_queues (l : List Instr) : (s.push l).queues = s.queues := rfl
@[simp] theorem State.push_room (l : List Instr) : (s.push l).room = s.room := rfl
@[simp] theorem State.push_fenced (l : List Instr) : (s.push l).fenced = s.fenced := rfl
@[simp] theorem State.push_host (l : List Instr) : (s.push l).host = s.host := rfl
@[simp] theorem State.push_clk (l : List Instr) : (s.push l).clk = s.clk := rfl
@[simp] theorem State.push_bootErr (l : List Instr) : (s.push l).bootErr = s.bootErr := rfl
@[simp] theorem State.push_lines (l : List Instr) : (s.push l).lines = s.lines := rfl
@[simp] theorem State.push_logical (l : List Instr) : (s.push l).logical = s.logical := rfl
@[simp] theorem State.push_signatures (l : List Instr) : (s.push l).signatures = s.signatures := rfl
@[simp] theorem State.push_expected (l : List Instr) : (s.push l).expected = s.expected := rfl
@[simp] theorem State.push_ends (l : List Instr) : (s.push l).ends = s.ends := rfl
@[simp] theorem State.push_dramEnds (l : List Instr) : (s.push l).dramEnds = s.dramEnds := rfl
@[simp] theorem State.push_oldCode (l : List Instr) : (s.push l).oldCode = s.oldCode := rfl
@[simp] theorem State.push_epoch (l : List Instr) : (s.push l).epoch = s.epoch := rfl
@[simp] theorem State.push_stores (l : List Instr) : (s.push l).stores = s.stores := rfl
@[simp] theorem State.push_remotes (l : List Instr) : (s.push l).remotes = s.remotes := rfl
@[simp] theorem State.push_cxlUp (l : List Instr) : (s.push l).cxlUp = s.cxlUp := rfl
@[simp] theorem State.push_routes (l : List Instr) : (s.push l).routes = s.routes := rfl
@[simp] theorem State.push_ports (l : List Instr) : (s.push l).ports = s.ports := rfl
@[simp] theorem State.push_routePending (l : List Instr) : (s.push l).routePending = s.routePending := rfl
@[simp] theorem State.push_dbg (l : List Instr) : (s.push l).dbg = s.dbg := rfl
@[simp] theorem State.push_plat (l : List Instr) : (s.push l).plat = s.plat := rfl
@[simp] theorem State.push_dieSkew (l : List Instr) : (s.push l).dieSkew = s.dieSkew := rfl
@[simp] theorem State.push_portSkew (l : List Instr) : (s.push l).portSkew = s.portSkew := rfl
@[simp] theorem State.push_turn (l : List Instr) : (s.push l).turn = s.turn := rfl
@[simp] theorem State.push_convoys (l : List Instr) : (s.push l).convoys = s.convoys := rfl
@[simp] theorem State.push_copies (l : List Instr) : (s.push l).copies = s.copies := rfl
@[simp] theorem State.push_mxops (l : List Instr) : (s.push l).mxops = s.mxops := rfl
@[simp] theorem State.push_replies (l : List Instr) : (s.push l).replies = s.replies := rfl
@[simp] theorem State.push_phys (l : List Instr) : (s.push l).phys = s.phys := rfl
@[simp] theorem State.push_zeroing (l : List Instr) : (s.push l).zeroing = s.zeroing := rfl
@[simp] theorem State.push_windows (l : List Instr) : (s.push l).windows = s.windows := rfl
@[simp] theorem State.push_nextId (l : List Instr) : (s.push l).nextId = s.nextId := rfl
@[simp] theorem State.push_late (l : List Instr) : (s.push l).late = s.late := rfl
@[simp] theorem State.push_clocks (l : List Instr) : (s.push l).clocks = s.clocks := rfl
@[simp] theorem State.push_agentStamps (l : List Instr) : (s.push l).agentStamps = s.agentStamps := rfl
@[simp] theorem State.push_free (l : List Instr) : (s.push l).free = s.free := rfl

/-! `modCtx` -/
@[simp] theorem State.modCtx_issue (c : Nat) (f : Context → Context) : (s.modCtx c f).issue = s.issue := rfl
@[simp] theorem State.modCtx_unissued (c : Nat) (f : Context → Context) : (s.modCtx c f).unissued = s.unissued := rfl
@[simp] theorem State.modCtx_groups (c : Nat) (f : Context → Context) : (s.modCtx c f).groups = s.groups := rfl
@[simp] theorem State.modCtx_mem (c : Nat) (f : Context → Context) : (s.modCtx c f).mem = s.mem := rfl
@[simp] theorem State.modCtx_parts (c : Nat) (f : Context → Context) : (s.modCtx c f).parts = s.parts := rfl
@[simp] theorem State.modCtx_blks (c : Nat) (f : Context → Context) : (s.modCtx c f).blks = s.blks := rfl
@[simp] theorem State.modCtx_dies (c : Nat) (f : Context → Context) : (s.modCtx c f).dies = s.dies := rfl
@[simp] theorem State.modCtx_cores (c : Nat) (f : Context → Context) : (s.modCtx c f).cores = s.cores := rfl
@[simp] theorem State.modCtx_sectors (c : Nat) (f : Context → Context) : (s.modCtx c f).sectors = s.sectors := rfl
@[simp] theorem State.modCtx_launches (c : Nat) (f : Context → Context) : (s.modCtx c f).launches = s.launches := rfl
@[simp] theorem State.modCtx_slices (c : Nat) (f : Context → Context) : (s.modCtx c f).slices = s.slices := rfl
@[simp] theorem State.modCtx_queues (c : Nat) (f : Context → Context) : (s.modCtx c f).queues = s.queues := rfl
@[simp] theorem State.modCtx_room (c : Nat) (f : Context → Context) : (s.modCtx c f).room = s.room := rfl
@[simp] theorem State.modCtx_fenced (c : Nat) (f : Context → Context) : (s.modCtx c f).fenced = s.fenced := rfl
@[simp] theorem State.modCtx_host (c : Nat) (f : Context → Context) : (s.modCtx c f).host = s.host := rfl
@[simp] theorem State.modCtx_clk (c : Nat) (f : Context → Context) : (s.modCtx c f).clk = s.clk := rfl
@[simp] theorem State.modCtx_bootErr (c : Nat) (f : Context → Context) : (s.modCtx c f).bootErr = s.bootErr := rfl
@[simp] theorem State.modCtx_lines (c : Nat) (f : Context → Context) : (s.modCtx c f).lines = s.lines := rfl
@[simp] theorem State.modCtx_logical (c : Nat) (f : Context → Context) : (s.modCtx c f).logical = s.logical := rfl
@[simp] theorem State.modCtx_signatures (c : Nat) (f : Context → Context) : (s.modCtx c f).signatures = s.signatures := rfl
@[simp] theorem State.modCtx_expected (c : Nat) (f : Context → Context) : (s.modCtx c f).expected = s.expected := rfl
@[simp] theorem State.modCtx_ends (c : Nat) (f : Context → Context) : (s.modCtx c f).ends = s.ends := rfl
@[simp] theorem State.modCtx_dramEnds (c : Nat) (f : Context → Context) : (s.modCtx c f).dramEnds = s.dramEnds := rfl
@[simp] theorem State.modCtx_oldCode (c : Nat) (f : Context → Context) : (s.modCtx c f).oldCode = s.oldCode := rfl
@[simp] theorem State.modCtx_epoch (c : Nat) (f : Context → Context) : (s.modCtx c f).epoch = s.epoch := rfl
@[simp] theorem State.modCtx_stores (c : Nat) (f : Context → Context) : (s.modCtx c f).stores = s.stores := rfl
@[simp] theorem State.modCtx_remotes (c : Nat) (f : Context → Context) : (s.modCtx c f).remotes = s.remotes := rfl
@[simp] theorem State.modCtx_cxlUp (c : Nat) (f : Context → Context) : (s.modCtx c f).cxlUp = s.cxlUp := rfl
@[simp] theorem State.modCtx_routes (c : Nat) (f : Context → Context) : (s.modCtx c f).routes = s.routes := rfl
@[simp] theorem State.modCtx_ports (c : Nat) (f : Context → Context) : (s.modCtx c f).ports = s.ports := rfl
@[simp] theorem State.modCtx_routePending (c : Nat) (f : Context → Context) : (s.modCtx c f).routePending = s.routePending := rfl
@[simp] theorem State.modCtx_dbg (c : Nat) (f : Context → Context) : (s.modCtx c f).dbg = s.dbg := rfl
@[simp] theorem State.modCtx_plat (c : Nat) (f : Context → Context) : (s.modCtx c f).plat = s.plat := rfl
@[simp] theorem State.modCtx_dieSkew (c : Nat) (f : Context → Context) : (s.modCtx c f).dieSkew = s.dieSkew := rfl
@[simp] theorem State.modCtx_portSkew (c : Nat) (f : Context → Context) : (s.modCtx c f).portSkew = s.portSkew := rfl
@[simp] theorem State.modCtx_turn (c : Nat) (f : Context → Context) : (s.modCtx c f).turn = s.turn := rfl
@[simp] theorem State.modCtx_convoys (c : Nat) (f : Context → Context) : (s.modCtx c f).convoys = s.convoys := rfl
@[simp] theorem State.modCtx_copies (c : Nat) (f : Context → Context) : (s.modCtx c f).copies = s.copies := rfl
@[simp] theorem State.modCtx_mxops (c : Nat) (f : Context → Context) : (s.modCtx c f).mxops = s.mxops := rfl
@[simp] theorem State.modCtx_replies (c : Nat) (f : Context → Context) : (s.modCtx c f).replies = s.replies := rfl
@[simp] theorem State.modCtx_phys (c : Nat) (f : Context → Context) : (s.modCtx c f).phys = s.phys := rfl
@[simp] theorem State.modCtx_zeroing (c : Nat) (f : Context → Context) : (s.modCtx c f).zeroing = s.zeroing := rfl
@[simp] theorem State.modCtx_windows (c : Nat) (f : Context → Context) : (s.modCtx c f).windows = s.windows := rfl
@[simp] theorem State.modCtx_nextId (c : Nat) (f : Context → Context) : (s.modCtx c f).nextId = s.nextId := rfl
@[simp] theorem State.modCtx_agenda (c : Nat) (f : Context → Context) : (s.modCtx c f).agenda = s.agenda := rfl
@[simp] theorem State.modCtx_late (c : Nat) (f : Context → Context) : (s.modCtx c f).late = s.late := rfl
@[simp] theorem State.modCtx_clocks (c : Nat) (f : Context → Context) : (s.modCtx c f).clocks = s.clocks := rfl
@[simp] theorem State.modCtx_agentStamps (c : Nat) (f : Context → Context) : (s.modCtx c f).agentStamps = s.agentStamps := rfl
@[simp] theorem State.modCtx_free (c : Nat) (f : Context → Context) : (s.modCtx c f).free = s.free := rfl

/-! `modSlice` -/
@[simp] theorem State.modSlice_issue (k : Nat) (f : Slice → Slice) : (s.modSlice k f).issue = s.issue := rfl
@[simp] theorem State.modSlice_unissued (k : Nat) (f : Slice → Slice) : (s.modSlice k f).unissued = s.unissued := rfl
@[simp] theorem State.modSlice_groups (k : Nat) (f : Slice → Slice) : (s.modSlice k f).groups = s.groups := rfl
@[simp] theorem State.modSlice_mem (k : Nat) (f : Slice → Slice) : (s.modSlice k f).mem = s.mem := rfl
@[simp] theorem State.modSlice_ctxs (k : Nat) (f : Slice → Slice) : (s.modSlice k f).ctxs = s.ctxs := rfl
@[simp] theorem State.modSlice_parts (k : Nat) (f : Slice → Slice) : (s.modSlice k f).parts = s.parts := rfl
@[simp] theorem State.modSlice_blks (k : Nat) (f : Slice → Slice) : (s.modSlice k f).blks = s.blks := rfl
@[simp] theorem State.modSlice_dies (k : Nat) (f : Slice → Slice) : (s.modSlice k f).dies = s.dies := rfl
@[simp] theorem State.modSlice_cores (k : Nat) (f : Slice → Slice) : (s.modSlice k f).cores = s.cores := rfl
@[simp] theorem State.modSlice_sectors (k : Nat) (f : Slice → Slice) : (s.modSlice k f).sectors = s.sectors := rfl
@[simp] theorem State.modSlice_launches (k : Nat) (f : Slice → Slice) : (s.modSlice k f).launches = s.launches := rfl
@[simp] theorem State.modSlice_queues (k : Nat) (f : Slice → Slice) : (s.modSlice k f).queues = s.queues := rfl
@[simp] theorem State.modSlice_room (k : Nat) (f : Slice → Slice) : (s.modSlice k f).room = s.room := rfl
@[simp] theorem State.modSlice_fenced (k : Nat) (f : Slice → Slice) : (s.modSlice k f).fenced = s.fenced := rfl
@[simp] theorem State.modSlice_host (k : Nat) (f : Slice → Slice) : (s.modSlice k f).host = s.host := rfl
@[simp] theorem State.modSlice_clk (k : Nat) (f : Slice → Slice) : (s.modSlice k f).clk = s.clk := rfl
@[simp] theorem State.modSlice_bootErr (k : Nat) (f : Slice → Slice) : (s.modSlice k f).bootErr = s.bootErr := rfl
@[simp] theorem State.modSlice_lines (k : Nat) (f : Slice → Slice) : (s.modSlice k f).lines = s.lines := rfl
@[simp] theorem State.modSlice_logical (k : Nat) (f : Slice → Slice) : (s.modSlice k f).logical = s.logical := rfl
@[simp] theorem State.modSlice_signatures (k : Nat) (f : Slice → Slice) : (s.modSlice k f).signatures = s.signatures := rfl
@[simp] theorem State.modSlice_expected (k : Nat) (f : Slice → Slice) : (s.modSlice k f).expected = s.expected := rfl
@[simp] theorem State.modSlice_ends (k : Nat) (f : Slice → Slice) : (s.modSlice k f).ends = s.ends := rfl
@[simp] theorem State.modSlice_dramEnds (k : Nat) (f : Slice → Slice) : (s.modSlice k f).dramEnds = s.dramEnds := rfl
@[simp] theorem State.modSlice_oldCode (k : Nat) (f : Slice → Slice) : (s.modSlice k f).oldCode = s.oldCode := rfl
@[simp] theorem State.modSlice_epoch (k : Nat) (f : Slice → Slice) : (s.modSlice k f).epoch = s.epoch := rfl
@[simp] theorem State.modSlice_stores (k : Nat) (f : Slice → Slice) : (s.modSlice k f).stores = s.stores := rfl
@[simp] theorem State.modSlice_remotes (k : Nat) (f : Slice → Slice) : (s.modSlice k f).remotes = s.remotes := rfl
@[simp] theorem State.modSlice_cxlUp (k : Nat) (f : Slice → Slice) : (s.modSlice k f).cxlUp = s.cxlUp := rfl
@[simp] theorem State.modSlice_routes (k : Nat) (f : Slice → Slice) : (s.modSlice k f).routes = s.routes := rfl
@[simp] theorem State.modSlice_ports (k : Nat) (f : Slice → Slice) : (s.modSlice k f).ports = s.ports := rfl
@[simp] theorem State.modSlice_routePending (k : Nat) (f : Slice → Slice) : (s.modSlice k f).routePending = s.routePending := rfl
@[simp] theorem State.modSlice_dbg (k : Nat) (f : Slice → Slice) : (s.modSlice k f).dbg = s.dbg := rfl
@[simp] theorem State.modSlice_plat (k : Nat) (f : Slice → Slice) : (s.modSlice k f).plat = s.plat := rfl
@[simp] theorem State.modSlice_dieSkew (k : Nat) (f : Slice → Slice) : (s.modSlice k f).dieSkew = s.dieSkew := rfl
@[simp] theorem State.modSlice_portSkew (k : Nat) (f : Slice → Slice) : (s.modSlice k f).portSkew = s.portSkew := rfl
@[simp] theorem State.modSlice_turn (k : Nat) (f : Slice → Slice) : (s.modSlice k f).turn = s.turn := rfl
@[simp] theorem State.modSlice_convoys (k : Nat) (f : Slice → Slice) : (s.modSlice k f).convoys = s.convoys := rfl
@[simp] theorem State.modSlice_copies (k : Nat) (f : Slice → Slice) : (s.modSlice k f).copies = s.copies := rfl
@[simp] theorem State.modSlice_mxops (k : Nat) (f : Slice → Slice) : (s.modSlice k f).mxops = s.mxops := rfl
@[simp] theorem State.modSlice_replies (k : Nat) (f : Slice → Slice) : (s.modSlice k f).replies = s.replies := rfl
@[simp] theorem State.modSlice_phys (k : Nat) (f : Slice → Slice) : (s.modSlice k f).phys = s.phys := rfl
@[simp] theorem State.modSlice_zeroing (k : Nat) (f : Slice → Slice) : (s.modSlice k f).zeroing = s.zeroing := rfl
@[simp] theorem State.modSlice_windows (k : Nat) (f : Slice → Slice) : (s.modSlice k f).windows = s.windows := rfl
@[simp] theorem State.modSlice_nextId (k : Nat) (f : Slice → Slice) : (s.modSlice k f).nextId = s.nextId := rfl
@[simp] theorem State.modSlice_agenda (k : Nat) (f : Slice → Slice) : (s.modSlice k f).agenda = s.agenda := rfl
@[simp] theorem State.modSlice_late (k : Nat) (f : Slice → Slice) : (s.modSlice k f).late = s.late := rfl
@[simp] theorem State.modSlice_clocks (k : Nat) (f : Slice → Slice) : (s.modSlice k f).clocks = s.clocks := rfl
@[simp] theorem State.modSlice_agentStamps (k : Nat) (f : Slice → Slice) : (s.modSlice k f).agentStamps = s.agentStamps := rfl
@[simp] theorem State.modSlice_free (k : Nat) (f : Slice → Slice) : (s.modSlice k f).free = s.free := rfl

/-! `holdHeq` -/
@[simp] theorem State.holdHeq_issue (e : HeqEntry) : (s.holdHeq e).issue = s.issue := rfl
@[simp] theorem State.holdHeq_unissued (e : HeqEntry) : (s.holdHeq e).unissued = s.unissued := rfl
@[simp] theorem State.holdHeq_groups (e : HeqEntry) : (s.holdHeq e).groups = s.groups := rfl
@[simp] theorem State.holdHeq_mem (e : HeqEntry) : (s.holdHeq e).mem = s.mem := rfl
@[simp] theorem State.holdHeq_ctxs (e : HeqEntry) : (s.holdHeq e).ctxs = s.ctxs := rfl
@[simp] theorem State.holdHeq_parts (e : HeqEntry) : (s.holdHeq e).parts = s.parts := rfl
@[simp] theorem State.holdHeq_blks (e : HeqEntry) : (s.holdHeq e).blks = s.blks := rfl
@[simp] theorem State.holdHeq_dies (e : HeqEntry) : (s.holdHeq e).dies = s.dies := rfl
@[simp] theorem State.holdHeq_cores (e : HeqEntry) : (s.holdHeq e).cores = s.cores := rfl
@[simp] theorem State.holdHeq_sectors (e : HeqEntry) : (s.holdHeq e).sectors = s.sectors := rfl
@[simp] theorem State.holdHeq_launches (e : HeqEntry) : (s.holdHeq e).launches = s.launches := rfl
@[simp] theorem State.holdHeq_slices (e : HeqEntry) : (s.holdHeq e).slices = s.slices := rfl
@[simp] theorem State.holdHeq_queues (e : HeqEntry) : (s.holdHeq e).queues = s.queues := rfl
@[simp] theorem State.holdHeq_room (e : HeqEntry) : (s.holdHeq e).room = s.room := rfl
@[simp] theorem State.holdHeq_fenced (e : HeqEntry) : (s.holdHeq e).fenced = s.fenced := rfl
@[simp] theorem State.holdHeq_clk (e : HeqEntry) : (s.holdHeq e).clk = s.clk := rfl
@[simp] theorem State.holdHeq_bootErr (e : HeqEntry) : (s.holdHeq e).bootErr = s.bootErr := rfl
@[simp] theorem State.holdHeq_lines (e : HeqEntry) : (s.holdHeq e).lines = s.lines := rfl
@[simp] theorem State.holdHeq_logical (e : HeqEntry) : (s.holdHeq e).logical = s.logical := rfl
@[simp] theorem State.holdHeq_signatures (e : HeqEntry) : (s.holdHeq e).signatures = s.signatures := rfl
@[simp] theorem State.holdHeq_expected (e : HeqEntry) : (s.holdHeq e).expected = s.expected := rfl
@[simp] theorem State.holdHeq_ends (e : HeqEntry) : (s.holdHeq e).ends = s.ends := rfl
@[simp] theorem State.holdHeq_dramEnds (e : HeqEntry) : (s.holdHeq e).dramEnds = s.dramEnds := rfl
@[simp] theorem State.holdHeq_oldCode (e : HeqEntry) : (s.holdHeq e).oldCode = s.oldCode := rfl
@[simp] theorem State.holdHeq_epoch (e : HeqEntry) : (s.holdHeq e).epoch = s.epoch := rfl
@[simp] theorem State.holdHeq_stores (e : HeqEntry) : (s.holdHeq e).stores = s.stores := rfl
@[simp] theorem State.holdHeq_remotes (e : HeqEntry) : (s.holdHeq e).remotes = s.remotes := rfl
@[simp] theorem State.holdHeq_cxlUp (e : HeqEntry) : (s.holdHeq e).cxlUp = s.cxlUp := rfl
@[simp] theorem State.holdHeq_routes (e : HeqEntry) : (s.holdHeq e).routes = s.routes := rfl
@[simp] theorem State.holdHeq_ports (e : HeqEntry) : (s.holdHeq e).ports = s.ports := rfl
@[simp] theorem State.holdHeq_routePending (e : HeqEntry) : (s.holdHeq e).routePending = s.routePending := rfl
@[simp] theorem State.holdHeq_dbg (e : HeqEntry) : (s.holdHeq e).dbg = s.dbg := rfl
@[simp] theorem State.holdHeq_plat (e : HeqEntry) : (s.holdHeq e).plat = s.plat := rfl
@[simp] theorem State.holdHeq_dieSkew (e : HeqEntry) : (s.holdHeq e).dieSkew = s.dieSkew := rfl
@[simp] theorem State.holdHeq_portSkew (e : HeqEntry) : (s.holdHeq e).portSkew = s.portSkew := rfl
@[simp] theorem State.holdHeq_turn (e : HeqEntry) : (s.holdHeq e).turn = s.turn := rfl
@[simp] theorem State.holdHeq_convoys (e : HeqEntry) : (s.holdHeq e).convoys = s.convoys := rfl
@[simp] theorem State.holdHeq_copies (e : HeqEntry) : (s.holdHeq e).copies = s.copies := rfl
@[simp] theorem State.holdHeq_mxops (e : HeqEntry) : (s.holdHeq e).mxops = s.mxops := rfl
@[simp] theorem State.holdHeq_replies (e : HeqEntry) : (s.holdHeq e).replies = s.replies := rfl
@[simp] theorem State.holdHeq_phys (e : HeqEntry) : (s.holdHeq e).phys = s.phys := rfl
@[simp] theorem State.holdHeq_zeroing (e : HeqEntry) : (s.holdHeq e).zeroing = s.zeroing := rfl
@[simp] theorem State.holdHeq_windows (e : HeqEntry) : (s.holdHeq e).windows = s.windows := rfl
@[simp] theorem State.holdHeq_nextId (e : HeqEntry) : (s.holdHeq e).nextId = s.nextId := rfl
@[simp] theorem State.holdHeq_late (e : HeqEntry) : (s.holdHeq e).late = s.late := rfl
@[simp] theorem State.holdHeq_clocks (e : HeqEntry) : (s.holdHeq e).clocks = s.clocks := rfl
@[simp] theorem State.holdHeq_agentStamps (e : HeqEntry) : (s.holdHeq e).agentStamps = s.agentStamps := rfl
@[simp] theorem State.holdHeq_free (e : HeqEntry) : (s.holdHeq e).free = s.free := rfl

/-! `modPart` -/
@[simp] theorem State.modPart_issue (k : Nat) (f : Partition → Partition) : (s.modPart k f).issue = s.issue := rfl
@[simp] theorem State.modPart_unissued (k : Nat) (f : Partition → Partition) : (s.modPart k f).unissued = s.unissued := rfl
@[simp] theorem State.modPart_groups (k : Nat) (f : Partition → Partition) : (s.modPart k f).groups = s.groups := rfl
@[simp] theorem State.modPart_mem (k : Nat) (f : Partition → Partition) : (s.modPart k f).mem = s.mem := rfl
@[simp] theorem State.modPart_ctxs (k : Nat) (f : Partition → Partition) : (s.modPart k f).ctxs = s.ctxs := rfl
@[simp] theorem State.modPart_blks (k : Nat) (f : Partition → Partition) : (s.modPart k f).blks = s.blks := rfl
@[simp] theorem State.modPart_dies (k : Nat) (f : Partition → Partition) : (s.modPart k f).dies = s.dies := rfl
@[simp] theorem State.modPart_cores (k : Nat) (f : Partition → Partition) : (s.modPart k f).cores = s.cores := rfl
@[simp] theorem State.modPart_sectors (k : Nat) (f : Partition → Partition) : (s.modPart k f).sectors = s.sectors := rfl
@[simp] theorem State.modPart_launches (k : Nat) (f : Partition → Partition) : (s.modPart k f).launches = s.launches := rfl
@[simp] theorem State.modPart_slices (k : Nat) (f : Partition → Partition) : (s.modPart k f).slices = s.slices := rfl
@[simp] theorem State.modPart_queues (k : Nat) (f : Partition → Partition) : (s.modPart k f).queues = s.queues := rfl
@[simp] theorem State.modPart_room (k : Nat) (f : Partition → Partition) : (s.modPart k f).room = s.room := rfl
@[simp] theorem State.modPart_fenced (k : Nat) (f : Partition → Partition) : (s.modPart k f).fenced = s.fenced := rfl
@[simp] theorem State.modPart_host (k : Nat) (f : Partition → Partition) : (s.modPart k f).host = s.host := rfl
@[simp] theorem State.modPart_clk (k : Nat) (f : Partition → Partition) : (s.modPart k f).clk = s.clk := rfl
@[simp] theorem State.modPart_bootErr (k : Nat) (f : Partition → Partition) : (s.modPart k f).bootErr = s.bootErr := rfl
@[simp] theorem State.modPart_lines (k : Nat) (f : Partition → Partition) : (s.modPart k f).lines = s.lines := rfl
@[simp] theorem State.modPart_logical (k : Nat) (f : Partition → Partition) : (s.modPart k f).logical = s.logical := rfl
@[simp] theorem State.modPart_signatures (k : Nat) (f : Partition → Partition) : (s.modPart k f).signatures = s.signatures := rfl
@[simp] theorem State.modPart_expected (k : Nat) (f : Partition → Partition) : (s.modPart k f).expected = s.expected := rfl
@[simp] theorem State.modPart_ends (k : Nat) (f : Partition → Partition) : (s.modPart k f).ends = s.ends := rfl
@[simp] theorem State.modPart_dramEnds (k : Nat) (f : Partition → Partition) : (s.modPart k f).dramEnds = s.dramEnds := rfl
@[simp] theorem State.modPart_oldCode (k : Nat) (f : Partition → Partition) : (s.modPart k f).oldCode = s.oldCode := rfl
@[simp] theorem State.modPart_epoch (k : Nat) (f : Partition → Partition) : (s.modPart k f).epoch = s.epoch := rfl
@[simp] theorem State.modPart_stores (k : Nat) (f : Partition → Partition) : (s.modPart k f).stores = s.stores := rfl
@[simp] theorem State.modPart_remotes (k : Nat) (f : Partition → Partition) : (s.modPart k f).remotes = s.remotes := rfl
@[simp] theorem State.modPart_cxlUp (k : Nat) (f : Partition → Partition) : (s.modPart k f).cxlUp = s.cxlUp := rfl
@[simp] theorem State.modPart_routes (k : Nat) (f : Partition → Partition) : (s.modPart k f).routes = s.routes := rfl
@[simp] theorem State.modPart_ports (k : Nat) (f : Partition → Partition) : (s.modPart k f).ports = s.ports := rfl
@[simp] theorem State.modPart_routePending (k : Nat) (f : Partition → Partition) : (s.modPart k f).routePending = s.routePending := rfl
@[simp] theorem State.modPart_dbg (k : Nat) (f : Partition → Partition) : (s.modPart k f).dbg = s.dbg := rfl
@[simp] theorem State.modPart_plat (k : Nat) (f : Partition → Partition) : (s.modPart k f).plat = s.plat := rfl
@[simp] theorem State.modPart_dieSkew (k : Nat) (f : Partition → Partition) : (s.modPart k f).dieSkew = s.dieSkew := rfl
@[simp] theorem State.modPart_portSkew (k : Nat) (f : Partition → Partition) : (s.modPart k f).portSkew = s.portSkew := rfl
@[simp] theorem State.modPart_turn (k : Nat) (f : Partition → Partition) : (s.modPart k f).turn = s.turn := rfl
@[simp] theorem State.modPart_convoys (k : Nat) (f : Partition → Partition) : (s.modPart k f).convoys = s.convoys := rfl
@[simp] theorem State.modPart_copies (k : Nat) (f : Partition → Partition) : (s.modPart k f).copies = s.copies := rfl
@[simp] theorem State.modPart_mxops (k : Nat) (f : Partition → Partition) : (s.modPart k f).mxops = s.mxops := rfl
@[simp] theorem State.modPart_replies (k : Nat) (f : Partition → Partition) : (s.modPart k f).replies = s.replies := rfl
@[simp] theorem State.modPart_phys (k : Nat) (f : Partition → Partition) : (s.modPart k f).phys = s.phys := rfl
@[simp] theorem State.modPart_zeroing (k : Nat) (f : Partition → Partition) : (s.modPart k f).zeroing = s.zeroing := rfl
@[simp] theorem State.modPart_windows (k : Nat) (f : Partition → Partition) : (s.modPart k f).windows = s.windows := rfl
@[simp] theorem State.modPart_nextId (k : Nat) (f : Partition → Partition) : (s.modPart k f).nextId = s.nextId := rfl
@[simp] theorem State.modPart_agenda (k : Nat) (f : Partition → Partition) : (s.modPart k f).agenda = s.agenda := rfl
@[simp] theorem State.modPart_late (k : Nat) (f : Partition → Partition) : (s.modPart k f).late = s.late := rfl
@[simp] theorem State.modPart_clocks (k : Nat) (f : Partition → Partition) : (s.modPart k f).clocks = s.clocks := rfl
@[simp] theorem State.modPart_agentStamps (k : Nat) (f : Partition → Partition) : (s.modPart k f).agentStamps = s.agentStamps := rfl
@[simp] theorem State.modPart_free (k : Nat) (f : Partition → Partition) : (s.modPart k f).free = s.free := rfl

/-! `modBlk` -/
@[simp] theorem State.modBlk_issue (b : Nat) (f : Block → Block) : (s.modBlk b f).issue = s.issue := rfl
@[simp] theorem State.modBlk_unissued (b : Nat) (f : Block → Block) : (s.modBlk b f).unissued = s.unissued := rfl
@[simp] theorem State.modBlk_groups (b : Nat) (f : Block → Block) : (s.modBlk b f).groups = s.groups := rfl
@[simp] theorem State.modBlk_mem (b : Nat) (f : Block → Block) : (s.modBlk b f).mem = s.mem := rfl
@[simp] theorem State.modBlk_ctxs (b : Nat) (f : Block → Block) : (s.modBlk b f).ctxs = s.ctxs := rfl
@[simp] theorem State.modBlk_parts (b : Nat) (f : Block → Block) : (s.modBlk b f).parts = s.parts := rfl
@[simp] theorem State.modBlk_dies (b : Nat) (f : Block → Block) : (s.modBlk b f).dies = s.dies := rfl
@[simp] theorem State.modBlk_cores (b : Nat) (f : Block → Block) : (s.modBlk b f).cores = s.cores := rfl
@[simp] theorem State.modBlk_sectors (b : Nat) (f : Block → Block) : (s.modBlk b f).sectors = s.sectors := rfl
@[simp] theorem State.modBlk_launches (b : Nat) (f : Block → Block) : (s.modBlk b f).launches = s.launches := rfl
@[simp] theorem State.modBlk_slices (b : Nat) (f : Block → Block) : (s.modBlk b f).slices = s.slices := rfl
@[simp] theorem State.modBlk_queues (b : Nat) (f : Block → Block) : (s.modBlk b f).queues = s.queues := rfl
@[simp] theorem State.modBlk_room (b : Nat) (f : Block → Block) : (s.modBlk b f).room = s.room := rfl
@[simp] theorem State.modBlk_fenced (b : Nat) (f : Block → Block) : (s.modBlk b f).fenced = s.fenced := rfl
@[simp] theorem State.modBlk_host (b : Nat) (f : Block → Block) : (s.modBlk b f).host = s.host := rfl
@[simp] theorem State.modBlk_clk (b : Nat) (f : Block → Block) : (s.modBlk b f).clk = s.clk := rfl
@[simp] theorem State.modBlk_bootErr (b : Nat) (f : Block → Block) : (s.modBlk b f).bootErr = s.bootErr := rfl
@[simp] theorem State.modBlk_lines (b : Nat) (f : Block → Block) : (s.modBlk b f).lines = s.lines := rfl
@[simp] theorem State.modBlk_logical (b : Nat) (f : Block → Block) : (s.modBlk b f).logical = s.logical := rfl
@[simp] theorem State.modBlk_signatures (b : Nat) (f : Block → Block) : (s.modBlk b f).signatures = s.signatures := rfl
@[simp] theorem State.modBlk_expected (b : Nat) (f : Block → Block) : (s.modBlk b f).expected = s.expected := rfl
@[simp] theorem State.modBlk_ends (b : Nat) (f : Block → Block) : (s.modBlk b f).ends = s.ends := rfl
@[simp] theorem State.modBlk_dramEnds (b : Nat) (f : Block → Block) : (s.modBlk b f).dramEnds = s.dramEnds := rfl
@[simp] theorem State.modBlk_oldCode (b : Nat) (f : Block → Block) : (s.modBlk b f).oldCode = s.oldCode := rfl
@[simp] theorem State.modBlk_epoch (b : Nat) (f : Block → Block) : (s.modBlk b f).epoch = s.epoch := rfl
@[simp] theorem State.modBlk_stores (b : Nat) (f : Block → Block) : (s.modBlk b f).stores = s.stores := rfl
@[simp] theorem State.modBlk_remotes (b : Nat) (f : Block → Block) : (s.modBlk b f).remotes = s.remotes := rfl
@[simp] theorem State.modBlk_cxlUp (b : Nat) (f : Block → Block) : (s.modBlk b f).cxlUp = s.cxlUp := rfl
@[simp] theorem State.modBlk_routes (b : Nat) (f : Block → Block) : (s.modBlk b f).routes = s.routes := rfl
@[simp] theorem State.modBlk_ports (b : Nat) (f : Block → Block) : (s.modBlk b f).ports = s.ports := rfl
@[simp] theorem State.modBlk_routePending (b : Nat) (f : Block → Block) : (s.modBlk b f).routePending = s.routePending := rfl
@[simp] theorem State.modBlk_dbg (b : Nat) (f : Block → Block) : (s.modBlk b f).dbg = s.dbg := rfl
@[simp] theorem State.modBlk_plat (b : Nat) (f : Block → Block) : (s.modBlk b f).plat = s.plat := rfl
@[simp] theorem State.modBlk_dieSkew (b : Nat) (f : Block → Block) : (s.modBlk b f).dieSkew = s.dieSkew := rfl
@[simp] theorem State.modBlk_portSkew (b : Nat) (f : Block → Block) : (s.modBlk b f).portSkew = s.portSkew := rfl
@[simp] theorem State.modBlk_turn (b : Nat) (f : Block → Block) : (s.modBlk b f).turn = s.turn := rfl
@[simp] theorem State.modBlk_convoys (b : Nat) (f : Block → Block) : (s.modBlk b f).convoys = s.convoys := rfl
@[simp] theorem State.modBlk_copies (b : Nat) (f : Block → Block) : (s.modBlk b f).copies = s.copies := rfl
@[simp] theorem State.modBlk_mxops (b : Nat) (f : Block → Block) : (s.modBlk b f).mxops = s.mxops := rfl
@[simp] theorem State.modBlk_replies (b : Nat) (f : Block → Block) : (s.modBlk b f).replies = s.replies := rfl
@[simp] theorem State.modBlk_phys (b : Nat) (f : Block → Block) : (s.modBlk b f).phys = s.phys := rfl
@[simp] theorem State.modBlk_zeroing (b : Nat) (f : Block → Block) : (s.modBlk b f).zeroing = s.zeroing := rfl
@[simp] theorem State.modBlk_windows (b : Nat) (f : Block → Block) : (s.modBlk b f).windows = s.windows := rfl
@[simp] theorem State.modBlk_nextId (b : Nat) (f : Block → Block) : (s.modBlk b f).nextId = s.nextId := rfl
@[simp] theorem State.modBlk_agenda (b : Nat) (f : Block → Block) : (s.modBlk b f).agenda = s.agenda := rfl
@[simp] theorem State.modBlk_late (b : Nat) (f : Block → Block) : (s.modBlk b f).late = s.late := rfl
@[simp] theorem State.modBlk_clocks (b : Nat) (f : Block → Block) : (s.modBlk b f).clocks = s.clocks := rfl
@[simp] theorem State.modBlk_agentStamps (b : Nat) (f : Block → Block) : (s.modBlk b f).agentStamps = s.agentStamps := rfl
@[simp] theorem State.modBlk_free (b : Nat) (f : Block → Block) : (s.modBlk b f).free = s.free := rfl

/-! `modDie` -/
@[simp] theorem State.modDie_issue (d : Nat) (f : Die → Die) : (s.modDie d f).issue = s.issue := rfl
@[simp] theorem State.modDie_unissued (d : Nat) (f : Die → Die) : (s.modDie d f).unissued = s.unissued := rfl
@[simp] theorem State.modDie_groups (d : Nat) (f : Die → Die) : (s.modDie d f).groups = s.groups := rfl
@[simp] theorem State.modDie_mem (d : Nat) (f : Die → Die) : (s.modDie d f).mem = s.mem := rfl
@[simp] theorem State.modDie_ctxs (d : Nat) (f : Die → Die) : (s.modDie d f).ctxs = s.ctxs := rfl
@[simp] theorem State.modDie_parts (d : Nat) (f : Die → Die) : (s.modDie d f).parts = s.parts := rfl
@[simp] theorem State.modDie_blks (d : Nat) (f : Die → Die) : (s.modDie d f).blks = s.blks := rfl
@[simp] theorem State.modDie_cores (d : Nat) (f : Die → Die) : (s.modDie d f).cores = s.cores := rfl
@[simp] theorem State.modDie_sectors (d : Nat) (f : Die → Die) : (s.modDie d f).sectors = s.sectors := rfl
@[simp] theorem State.modDie_launches (d : Nat) (f : Die → Die) : (s.modDie d f).launches = s.launches := rfl
@[simp] theorem State.modDie_slices (d : Nat) (f : Die → Die) : (s.modDie d f).slices = s.slices := rfl
@[simp] theorem State.modDie_queues (d : Nat) (f : Die → Die) : (s.modDie d f).queues = s.queues := rfl
@[simp] theorem State.modDie_room (d : Nat) (f : Die → Die) : (s.modDie d f).room = s.room := rfl
@[simp] theorem State.modDie_fenced (d : Nat) (f : Die → Die) : (s.modDie d f).fenced = s.fenced := rfl
@[simp] theorem State.modDie_host (d : Nat) (f : Die → Die) : (s.modDie d f).host = s.host := rfl
@[simp] theorem State.modDie_clk (d : Nat) (f : Die → Die) : (s.modDie d f).clk = s.clk := rfl
@[simp] theorem State.modDie_bootErr (d : Nat) (f : Die → Die) : (s.modDie d f).bootErr = s.bootErr := rfl
@[simp] theorem State.modDie_lines (d : Nat) (f : Die → Die) : (s.modDie d f).lines = s.lines := rfl
@[simp] theorem State.modDie_logical (d : Nat) (f : Die → Die) : (s.modDie d f).logical = s.logical := rfl
@[simp] theorem State.modDie_signatures (d : Nat) (f : Die → Die) : (s.modDie d f).signatures = s.signatures := rfl
@[simp] theorem State.modDie_expected (d : Nat) (f : Die → Die) : (s.modDie d f).expected = s.expected := rfl
@[simp] theorem State.modDie_ends (d : Nat) (f : Die → Die) : (s.modDie d f).ends = s.ends := rfl
@[simp] theorem State.modDie_dramEnds (d : Nat) (f : Die → Die) : (s.modDie d f).dramEnds = s.dramEnds := rfl
@[simp] theorem State.modDie_oldCode (d : Nat) (f : Die → Die) : (s.modDie d f).oldCode = s.oldCode := rfl
@[simp] theorem State.modDie_epoch (d : Nat) (f : Die → Die) : (s.modDie d f).epoch = s.epoch := rfl
@[simp] theorem State.modDie_stores (d : Nat) (f : Die → Die) : (s.modDie d f).stores = s.stores := rfl
@[simp] theorem State.modDie_remotes (d : Nat) (f : Die → Die) : (s.modDie d f).remotes = s.remotes := rfl
@[simp] theorem State.modDie_cxlUp (d : Nat) (f : Die → Die) : (s.modDie d f).cxlUp = s.cxlUp := rfl
@[simp] theorem State.modDie_routes (d : Nat) (f : Die → Die) : (s.modDie d f).routes = s.routes := rfl
@[simp] theorem State.modDie_ports (d : Nat) (f : Die → Die) : (s.modDie d f).ports = s.ports := rfl
@[simp] theorem State.modDie_routePending (d : Nat) (f : Die → Die) : (s.modDie d f).routePending = s.routePending := rfl
@[simp] theorem State.modDie_dbg (d : Nat) (f : Die → Die) : (s.modDie d f).dbg = s.dbg := rfl
@[simp] theorem State.modDie_plat (d : Nat) (f : Die → Die) : (s.modDie d f).plat = s.plat := rfl
@[simp] theorem State.modDie_dieSkew (d : Nat) (f : Die → Die) : (s.modDie d f).dieSkew = s.dieSkew := rfl
@[simp] theorem State.modDie_portSkew (d : Nat) (f : Die → Die) : (s.modDie d f).portSkew = s.portSkew := rfl
@[simp] theorem State.modDie_turn (d : Nat) (f : Die → Die) : (s.modDie d f).turn = s.turn := rfl
@[simp] theorem State.modDie_convoys (d : Nat) (f : Die → Die) : (s.modDie d f).convoys = s.convoys := rfl
@[simp] theorem State.modDie_copies (d : Nat) (f : Die → Die) : (s.modDie d f).copies = s.copies := rfl
@[simp] theorem State.modDie_mxops (d : Nat) (f : Die → Die) : (s.modDie d f).mxops = s.mxops := rfl
@[simp] theorem State.modDie_replies (d : Nat) (f : Die → Die) : (s.modDie d f).replies = s.replies := rfl
@[simp] theorem State.modDie_phys (d : Nat) (f : Die → Die) : (s.modDie d f).phys = s.phys := rfl
@[simp] theorem State.modDie_zeroing (d : Nat) (f : Die → Die) : (s.modDie d f).zeroing = s.zeroing := rfl
@[simp] theorem State.modDie_windows (d : Nat) (f : Die → Die) : (s.modDie d f).windows = s.windows := rfl
@[simp] theorem State.modDie_nextId (d : Nat) (f : Die → Die) : (s.modDie d f).nextId = s.nextId := rfl
@[simp] theorem State.modDie_agenda (d : Nat) (f : Die → Die) : (s.modDie d f).agenda = s.agenda := rfl
@[simp] theorem State.modDie_late (d : Nat) (f : Die → Die) : (s.modDie d f).late = s.late := rfl
@[simp] theorem State.modDie_clocks (d : Nat) (f : Die → Die) : (s.modDie d f).clocks = s.clocks := rfl
@[simp] theorem State.modDie_agentStamps (d : Nat) (f : Die → Die) : (s.modDie d f).agentStamps = s.agentStamps := rfl
@[simp] theorem State.modDie_free (d : Nat) (f : Die → Die) : (s.modDie d f).free = s.free := rfl

/-! `modCore` -/
@[simp] theorem State.modCore_issue (c : Nat) (f : Core → Core) : (s.modCore c f).issue = s.issue := rfl
@[simp] theorem State.modCore_unissued (c : Nat) (f : Core → Core) : (s.modCore c f).unissued = s.unissued := rfl
@[simp] theorem State.modCore_groups (c : Nat) (f : Core → Core) : (s.modCore c f).groups = s.groups := rfl
@[simp] theorem State.modCore_mem (c : Nat) (f : Core → Core) : (s.modCore c f).mem = s.mem := rfl
@[simp] theorem State.modCore_ctxs (c : Nat) (f : Core → Core) : (s.modCore c f).ctxs = s.ctxs := rfl
@[simp] theorem State.modCore_parts (c : Nat) (f : Core → Core) : (s.modCore c f).parts = s.parts := rfl
@[simp] theorem State.modCore_blks (c : Nat) (f : Core → Core) : (s.modCore c f).blks = s.blks := rfl
@[simp] theorem State.modCore_dies (c : Nat) (f : Core → Core) : (s.modCore c f).dies = s.dies := rfl
@[simp] theorem State.modCore_sectors (c : Nat) (f : Core → Core) : (s.modCore c f).sectors = s.sectors := rfl
@[simp] theorem State.modCore_launches (c : Nat) (f : Core → Core) : (s.modCore c f).launches = s.launches := rfl
@[simp] theorem State.modCore_slices (c : Nat) (f : Core → Core) : (s.modCore c f).slices = s.slices := rfl
@[simp] theorem State.modCore_queues (c : Nat) (f : Core → Core) : (s.modCore c f).queues = s.queues := rfl
@[simp] theorem State.modCore_room (c : Nat) (f : Core → Core) : (s.modCore c f).room = s.room := rfl
@[simp] theorem State.modCore_fenced (c : Nat) (f : Core → Core) : (s.modCore c f).fenced = s.fenced := rfl
@[simp] theorem State.modCore_host (c : Nat) (f : Core → Core) : (s.modCore c f).host = s.host := rfl
@[simp] theorem State.modCore_clk (c : Nat) (f : Core → Core) : (s.modCore c f).clk = s.clk := rfl
@[simp] theorem State.modCore_bootErr (c : Nat) (f : Core → Core) : (s.modCore c f).bootErr = s.bootErr := rfl
@[simp] theorem State.modCore_lines (c : Nat) (f : Core → Core) : (s.modCore c f).lines = s.lines := rfl
@[simp] theorem State.modCore_logical (c : Nat) (f : Core → Core) : (s.modCore c f).logical = s.logical := rfl
@[simp] theorem State.modCore_signatures (c : Nat) (f : Core → Core) : (s.modCore c f).signatures = s.signatures := rfl
@[simp] theorem State.modCore_expected (c : Nat) (f : Core → Core) : (s.modCore c f).expected = s.expected := rfl
@[simp] theorem State.modCore_ends (c : Nat) (f : Core → Core) : (s.modCore c f).ends = s.ends := rfl
@[simp] theorem State.modCore_dramEnds (c : Nat) (f : Core → Core) : (s.modCore c f).dramEnds = s.dramEnds := rfl
@[simp] theorem State.modCore_oldCode (c : Nat) (f : Core → Core) : (s.modCore c f).oldCode = s.oldCode := rfl
@[simp] theorem State.modCore_epoch (c : Nat) (f : Core → Core) : (s.modCore c f).epoch = s.epoch := rfl
@[simp] theorem State.modCore_stores (c : Nat) (f : Core → Core) : (s.modCore c f).stores = s.stores := rfl
@[simp] theorem State.modCore_remotes (c : Nat) (f : Core → Core) : (s.modCore c f).remotes = s.remotes := rfl
@[simp] theorem State.modCore_cxlUp (c : Nat) (f : Core → Core) : (s.modCore c f).cxlUp = s.cxlUp := rfl
@[simp] theorem State.modCore_routes (c : Nat) (f : Core → Core) : (s.modCore c f).routes = s.routes := rfl
@[simp] theorem State.modCore_ports (c : Nat) (f : Core → Core) : (s.modCore c f).ports = s.ports := rfl
@[simp] theorem State.modCore_routePending (c : Nat) (f : Core → Core) : (s.modCore c f).routePending = s.routePending := rfl
@[simp] theorem State.modCore_dbg (c : Nat) (f : Core → Core) : (s.modCore c f).dbg = s.dbg := rfl
@[simp] theorem State.modCore_plat (c : Nat) (f : Core → Core) : (s.modCore c f).plat = s.plat := rfl
@[simp] theorem State.modCore_dieSkew (c : Nat) (f : Core → Core) : (s.modCore c f).dieSkew = s.dieSkew := rfl
@[simp] theorem State.modCore_portSkew (c : Nat) (f : Core → Core) : (s.modCore c f).portSkew = s.portSkew := rfl
@[simp] theorem State.modCore_turn (c : Nat) (f : Core → Core) : (s.modCore c f).turn = s.turn := rfl
@[simp] theorem State.modCore_convoys (c : Nat) (f : Core → Core) : (s.modCore c f).convoys = s.convoys := rfl
@[simp] theorem State.modCore_copies (c : Nat) (f : Core → Core) : (s.modCore c f).copies = s.copies := rfl
@[simp] theorem State.modCore_mxops (c : Nat) (f : Core → Core) : (s.modCore c f).mxops = s.mxops := rfl
@[simp] theorem State.modCore_replies (c : Nat) (f : Core → Core) : (s.modCore c f).replies = s.replies := rfl
@[simp] theorem State.modCore_phys (c : Nat) (f : Core → Core) : (s.modCore c f).phys = s.phys := rfl
@[simp] theorem State.modCore_zeroing (c : Nat) (f : Core → Core) : (s.modCore c f).zeroing = s.zeroing := rfl
@[simp] theorem State.modCore_windows (c : Nat) (f : Core → Core) : (s.modCore c f).windows = s.windows := rfl
@[simp] theorem State.modCore_nextId (c : Nat) (f : Core → Core) : (s.modCore c f).nextId = s.nextId := rfl
@[simp] theorem State.modCore_agenda (c : Nat) (f : Core → Core) : (s.modCore c f).agenda = s.agenda := rfl
@[simp] theorem State.modCore_late (c : Nat) (f : Core → Core) : (s.modCore c f).late = s.late := rfl
@[simp] theorem State.modCore_clocks (c : Nat) (f : Core → Core) : (s.modCore c f).clocks = s.clocks := rfl
@[simp] theorem State.modCore_agentStamps (c : Nat) (f : Core → Core) : (s.modCore c f).agentStamps = s.agentStamps := rfl
@[simp] theorem State.modCore_free (c : Nat) (f : Core → Core) : (s.modCore c f).free = s.free := rfl

/-! `modLine` -/
@[simp] theorem State.modLine_issue (ln : Nat) (f : Line → Line) : (s.modLine ln f).issue = s.issue := rfl
@[simp] theorem State.modLine_unissued (ln : Nat) (f : Line → Line) : (s.modLine ln f).unissued = s.unissued := rfl
@[simp] theorem State.modLine_groups (ln : Nat) (f : Line → Line) : (s.modLine ln f).groups = s.groups := rfl
@[simp] theorem State.modLine_mem (ln : Nat) (f : Line → Line) : (s.modLine ln f).mem = s.mem := rfl
@[simp] theorem State.modLine_ctxs (ln : Nat) (f : Line → Line) : (s.modLine ln f).ctxs = s.ctxs := rfl
@[simp] theorem State.modLine_parts (ln : Nat) (f : Line → Line) : (s.modLine ln f).parts = s.parts := rfl
@[simp] theorem State.modLine_blks (ln : Nat) (f : Line → Line) : (s.modLine ln f).blks = s.blks := rfl
@[simp] theorem State.modLine_dies (ln : Nat) (f : Line → Line) : (s.modLine ln f).dies = s.dies := rfl
@[simp] theorem State.modLine_cores (ln : Nat) (f : Line → Line) : (s.modLine ln f).cores = s.cores := rfl
@[simp] theorem State.modLine_sectors (ln : Nat) (f : Line → Line) : (s.modLine ln f).sectors = s.sectors := rfl
@[simp] theorem State.modLine_launches (ln : Nat) (f : Line → Line) : (s.modLine ln f).launches = s.launches := rfl
@[simp] theorem State.modLine_slices (ln : Nat) (f : Line → Line) : (s.modLine ln f).slices = s.slices := rfl
@[simp] theorem State.modLine_queues (ln : Nat) (f : Line → Line) : (s.modLine ln f).queues = s.queues := rfl
@[simp] theorem State.modLine_room (ln : Nat) (f : Line → Line) : (s.modLine ln f).room = s.room := rfl
@[simp] theorem State.modLine_fenced (ln : Nat) (f : Line → Line) : (s.modLine ln f).fenced = s.fenced := rfl
@[simp] theorem State.modLine_host (ln : Nat) (f : Line → Line) : (s.modLine ln f).host = s.host := rfl
@[simp] theorem State.modLine_clk (ln : Nat) (f : Line → Line) : (s.modLine ln f).clk = s.clk := rfl
@[simp] theorem State.modLine_bootErr (ln : Nat) (f : Line → Line) : (s.modLine ln f).bootErr = s.bootErr := rfl
@[simp] theorem State.modLine_logical (ln : Nat) (f : Line → Line) : (s.modLine ln f).logical = s.logical := rfl
@[simp] theorem State.modLine_signatures (ln : Nat) (f : Line → Line) : (s.modLine ln f).signatures = s.signatures := rfl
@[simp] theorem State.modLine_expected (ln : Nat) (f : Line → Line) : (s.modLine ln f).expected = s.expected := rfl
@[simp] theorem State.modLine_ends (ln : Nat) (f : Line → Line) : (s.modLine ln f).ends = s.ends := rfl
@[simp] theorem State.modLine_dramEnds (ln : Nat) (f : Line → Line) : (s.modLine ln f).dramEnds = s.dramEnds := rfl
@[simp] theorem State.modLine_oldCode (ln : Nat) (f : Line → Line) : (s.modLine ln f).oldCode = s.oldCode := rfl
@[simp] theorem State.modLine_epoch (ln : Nat) (f : Line → Line) : (s.modLine ln f).epoch = s.epoch := rfl
@[simp] theorem State.modLine_stores (ln : Nat) (f : Line → Line) : (s.modLine ln f).stores = s.stores := rfl
@[simp] theorem State.modLine_remotes (ln : Nat) (f : Line → Line) : (s.modLine ln f).remotes = s.remotes := rfl
@[simp] theorem State.modLine_cxlUp (ln : Nat) (f : Line → Line) : (s.modLine ln f).cxlUp = s.cxlUp := rfl
@[simp] theorem State.modLine_routes (ln : Nat) (f : Line → Line) : (s.modLine ln f).routes = s.routes := rfl
@[simp] theorem State.modLine_ports (ln : Nat) (f : Line → Line) : (s.modLine ln f).ports = s.ports := rfl
@[simp] theorem State.modLine_routePending (ln : Nat) (f : Line → Line) : (s.modLine ln f).routePending = s.routePending := rfl
@[simp] theorem State.modLine_dbg (ln : Nat) (f : Line → Line) : (s.modLine ln f).dbg = s.dbg := rfl
@[simp] theorem State.modLine_plat (ln : Nat) (f : Line → Line) : (s.modLine ln f).plat = s.plat := rfl
@[simp] theorem State.modLine_dieSkew (ln : Nat) (f : Line → Line) : (s.modLine ln f).dieSkew = s.dieSkew := rfl
@[simp] theorem State.modLine_portSkew (ln : Nat) (f : Line → Line) : (s.modLine ln f).portSkew = s.portSkew := rfl
@[simp] theorem State.modLine_turn (ln : Nat) (f : Line → Line) : (s.modLine ln f).turn = s.turn := rfl
@[simp] theorem State.modLine_convoys (ln : Nat) (f : Line → Line) : (s.modLine ln f).convoys = s.convoys := rfl
@[simp] theorem State.modLine_copies (ln : Nat) (f : Line → Line) : (s.modLine ln f).copies = s.copies := rfl
@[simp] theorem State.modLine_mxops (ln : Nat) (f : Line → Line) : (s.modLine ln f).mxops = s.mxops := rfl
@[simp] theorem State.modLine_replies (ln : Nat) (f : Line → Line) : (s.modLine ln f).replies = s.replies := rfl
@[simp] theorem State.modLine_phys (ln : Nat) (f : Line → Line) : (s.modLine ln f).phys = s.phys := rfl
@[simp] theorem State.modLine_zeroing (ln : Nat) (f : Line → Line) : (s.modLine ln f).zeroing = s.zeroing := rfl
@[simp] theorem State.modLine_windows (ln : Nat) (f : Line → Line) : (s.modLine ln f).windows = s.windows := rfl
@[simp] theorem State.modLine_nextId (ln : Nat) (f : Line → Line) : (s.modLine ln f).nextId = s.nextId := rfl
@[simp] theorem State.modLine_agenda (ln : Nat) (f : Line → Line) : (s.modLine ln f).agenda = s.agenda := rfl
@[simp] theorem State.modLine_late (ln : Nat) (f : Line → Line) : (s.modLine ln f).late = s.late := rfl
@[simp] theorem State.modLine_clocks (ln : Nat) (f : Line → Line) : (s.modLine ln f).clocks = s.clocks := rfl
@[simp] theorem State.modLine_agentStamps (ln : Nat) (f : Line → Line) : (s.modLine ln f).agentStamps = s.agentStamps := rfl
@[simp] theorem State.modLine_free (ln : Nat) (f : Line → Line) : (s.modLine ln f).free = s.free := rfl

/-! `modSector` -/
@[simp] theorem State.modSector_issue (k : Nat) (f : Sector → Sector) : (s.modSector k f).issue = s.issue := rfl
@[simp] theorem State.modSector_unissued (k : Nat) (f : Sector → Sector) : (s.modSector k f).unissued = s.unissued := rfl
@[simp] theorem State.modSector_groups (k : Nat) (f : Sector → Sector) : (s.modSector k f).groups = s.groups := rfl
@[simp] theorem State.modSector_mem (k : Nat) (f : Sector → Sector) : (s.modSector k f).mem = s.mem := rfl
@[simp] theorem State.modSector_ctxs (k : Nat) (f : Sector → Sector) : (s.modSector k f).ctxs = s.ctxs := rfl
@[simp] theorem State.modSector_parts (k : Nat) (f : Sector → Sector) : (s.modSector k f).parts = s.parts := rfl
@[simp] theorem State.modSector_blks (k : Nat) (f : Sector → Sector) : (s.modSector k f).blks = s.blks := rfl
@[simp] theorem State.modSector_dies (k : Nat) (f : Sector → Sector) : (s.modSector k f).dies = s.dies := rfl
@[simp] theorem State.modSector_cores (k : Nat) (f : Sector → Sector) : (s.modSector k f).cores = s.cores := rfl
@[simp] theorem State.modSector_launches (k : Nat) (f : Sector → Sector) : (s.modSector k f).launches = s.launches := rfl
@[simp] theorem State.modSector_slices (k : Nat) (f : Sector → Sector) : (s.modSector k f).slices = s.slices := rfl
@[simp] theorem State.modSector_queues (k : Nat) (f : Sector → Sector) : (s.modSector k f).queues = s.queues := rfl
@[simp] theorem State.modSector_room (k : Nat) (f : Sector → Sector) : (s.modSector k f).room = s.room := rfl
@[simp] theorem State.modSector_fenced (k : Nat) (f : Sector → Sector) : (s.modSector k f).fenced = s.fenced := rfl
@[simp] theorem State.modSector_host (k : Nat) (f : Sector → Sector) : (s.modSector k f).host = s.host := rfl
@[simp] theorem State.modSector_clk (k : Nat) (f : Sector → Sector) : (s.modSector k f).clk = s.clk := rfl
@[simp] theorem State.modSector_bootErr (k : Nat) (f : Sector → Sector) : (s.modSector k f).bootErr = s.bootErr := rfl
@[simp] theorem State.modSector_lines (k : Nat) (f : Sector → Sector) : (s.modSector k f).lines = s.lines := rfl
@[simp] theorem State.modSector_logical (k : Nat) (f : Sector → Sector) : (s.modSector k f).logical = s.logical := rfl
@[simp] theorem State.modSector_signatures (k : Nat) (f : Sector → Sector) : (s.modSector k f).signatures = s.signatures := rfl
@[simp] theorem State.modSector_expected (k : Nat) (f : Sector → Sector) : (s.modSector k f).expected = s.expected := rfl
@[simp] theorem State.modSector_ends (k : Nat) (f : Sector → Sector) : (s.modSector k f).ends = s.ends := rfl
@[simp] theorem State.modSector_dramEnds (k : Nat) (f : Sector → Sector) : (s.modSector k f).dramEnds = s.dramEnds := rfl
@[simp] theorem State.modSector_oldCode (k : Nat) (f : Sector → Sector) : (s.modSector k f).oldCode = s.oldCode := rfl
@[simp] theorem State.modSector_epoch (k : Nat) (f : Sector → Sector) : (s.modSector k f).epoch = s.epoch := rfl
@[simp] theorem State.modSector_stores (k : Nat) (f : Sector → Sector) : (s.modSector k f).stores = s.stores := rfl
@[simp] theorem State.modSector_remotes (k : Nat) (f : Sector → Sector) : (s.modSector k f).remotes = s.remotes := rfl
@[simp] theorem State.modSector_cxlUp (k : Nat) (f : Sector → Sector) : (s.modSector k f).cxlUp = s.cxlUp := rfl
@[simp] theorem State.modSector_routes (k : Nat) (f : Sector → Sector) : (s.modSector k f).routes = s.routes := rfl
@[simp] theorem State.modSector_ports (k : Nat) (f : Sector → Sector) : (s.modSector k f).ports = s.ports := rfl
@[simp] theorem State.modSector_routePending (k : Nat) (f : Sector → Sector) : (s.modSector k f).routePending = s.routePending := rfl
@[simp] theorem State.modSector_dbg (k : Nat) (f : Sector → Sector) : (s.modSector k f).dbg = s.dbg := rfl
@[simp] theorem State.modSector_plat (k : Nat) (f : Sector → Sector) : (s.modSector k f).plat = s.plat := rfl
@[simp] theorem State.modSector_dieSkew (k : Nat) (f : Sector → Sector) : (s.modSector k f).dieSkew = s.dieSkew := rfl
@[simp] theorem State.modSector_portSkew (k : Nat) (f : Sector → Sector) : (s.modSector k f).portSkew = s.portSkew := rfl
@[simp] theorem State.modSector_turn (k : Nat) (f : Sector → Sector) : (s.modSector k f).turn = s.turn := rfl
@[simp] theorem State.modSector_convoys (k : Nat) (f : Sector → Sector) : (s.modSector k f).convoys = s.convoys := rfl
@[simp] theorem State.modSector_copies (k : Nat) (f : Sector → Sector) : (s.modSector k f).copies = s.copies := rfl
@[simp] theorem State.modSector_mxops (k : Nat) (f : Sector → Sector) : (s.modSector k f).mxops = s.mxops := rfl
@[simp] theorem State.modSector_replies (k : Nat) (f : Sector → Sector) : (s.modSector k f).replies = s.replies := rfl
@[simp] theorem State.modSector_phys (k : Nat) (f : Sector → Sector) : (s.modSector k f).phys = s.phys := rfl
@[simp] theorem State.modSector_zeroing (k : Nat) (f : Sector → Sector) : (s.modSector k f).zeroing = s.zeroing := rfl
@[simp] theorem State.modSector_windows (k : Nat) (f : Sector → Sector) : (s.modSector k f).windows = s.windows := rfl
@[simp] theorem State.modSector_nextId (k : Nat) (f : Sector → Sector) : (s.modSector k f).nextId = s.nextId := rfl
@[simp] theorem State.modSector_agenda (k : Nat) (f : Sector → Sector) : (s.modSector k f).agenda = s.agenda := rfl
@[simp] theorem State.modSector_late (k : Nat) (f : Sector → Sector) : (s.modSector k f).late = s.late := rfl
@[simp] theorem State.modSector_clocks (k : Nat) (f : Sector → Sector) : (s.modSector k f).clocks = s.clocks := rfl
@[simp] theorem State.modSector_agentStamps (k : Nat) (f : Sector → Sector) : (s.modSector k f).agentStamps = s.agentStamps := rfl
@[simp] theorem State.modSector_free (k : Nat) (f : Sector → Sector) : (s.modSector k f).free = s.free := rfl

/-! `writePhys` -/
@[simp] theorem State.writePhys_issue (pa n x : Nat) : (s.writePhys pa n x).issue = s.issue := rfl
@[simp] theorem State.writePhys_unissued (pa n x : Nat) : (s.writePhys pa n x).unissued = s.unissued := rfl
@[simp] theorem State.writePhys_groups (pa n x : Nat) : (s.writePhys pa n x).groups = s.groups := rfl
@[simp] theorem State.writePhys_ctxs (pa n x : Nat) : (s.writePhys pa n x).ctxs = s.ctxs := rfl
@[simp] theorem State.writePhys_parts (pa n x : Nat) : (s.writePhys pa n x).parts = s.parts := rfl
@[simp] theorem State.writePhys_blks (pa n x : Nat) : (s.writePhys pa n x).blks = s.blks := rfl
@[simp] theorem State.writePhys_dies (pa n x : Nat) : (s.writePhys pa n x).dies = s.dies := rfl
@[simp] theorem State.writePhys_cores (pa n x : Nat) : (s.writePhys pa n x).cores = s.cores := rfl
@[simp] theorem State.writePhys_sectors (pa n x : Nat) : (s.writePhys pa n x).sectors = s.sectors := rfl
@[simp] theorem State.writePhys_launches (pa n x : Nat) : (s.writePhys pa n x).launches = s.launches := rfl
@[simp] theorem State.writePhys_slices (pa n x : Nat) : (s.writePhys pa n x).slices = s.slices := rfl
@[simp] theorem State.writePhys_queues (pa n x : Nat) : (s.writePhys pa n x).queues = s.queues := rfl
@[simp] theorem State.writePhys_room (pa n x : Nat) : (s.writePhys pa n x).room = s.room := rfl
@[simp] theorem State.writePhys_fenced (pa n x : Nat) : (s.writePhys pa n x).fenced = s.fenced := rfl
@[simp] theorem State.writePhys_host (pa n x : Nat) : (s.writePhys pa n x).host = s.host := rfl
@[simp] theorem State.writePhys_clk (pa n x : Nat) : (s.writePhys pa n x).clk = s.clk := rfl
@[simp] theorem State.writePhys_bootErr (pa n x : Nat) : (s.writePhys pa n x).bootErr = s.bootErr := rfl
@[simp] theorem State.writePhys_lines (pa n x : Nat) : (s.writePhys pa n x).lines = s.lines := rfl
@[simp] theorem State.writePhys_logical (pa n x : Nat) : (s.writePhys pa n x).logical = s.logical := rfl
@[simp] theorem State.writePhys_signatures (pa n x : Nat) : (s.writePhys pa n x).signatures = s.signatures := rfl
@[simp] theorem State.writePhys_expected (pa n x : Nat) : (s.writePhys pa n x).expected = s.expected := rfl
@[simp] theorem State.writePhys_oldCode (pa n x : Nat) : (s.writePhys pa n x).oldCode = s.oldCode := rfl
@[simp] theorem State.writePhys_epoch (pa n x : Nat) : (s.writePhys pa n x).epoch = s.epoch := rfl
@[simp] theorem State.writePhys_stores (pa n x : Nat) : (s.writePhys pa n x).stores = s.stores := rfl
@[simp] theorem State.writePhys_remotes (pa n x : Nat) : (s.writePhys pa n x).remotes = s.remotes := rfl
@[simp] theorem State.writePhys_cxlUp (pa n x : Nat) : (s.writePhys pa n x).cxlUp = s.cxlUp := rfl
@[simp] theorem State.writePhys_routes (pa n x : Nat) : (s.writePhys pa n x).routes = s.routes := rfl
@[simp] theorem State.writePhys_ports (pa n x : Nat) : (s.writePhys pa n x).ports = s.ports := rfl
@[simp] theorem State.writePhys_routePending (pa n x : Nat) : (s.writePhys pa n x).routePending = s.routePending := rfl
@[simp] theorem State.writePhys_dbg (pa n x : Nat) : (s.writePhys pa n x).dbg = s.dbg := rfl
@[simp] theorem State.writePhys_plat (pa n x : Nat) : (s.writePhys pa n x).plat = s.plat := rfl
@[simp] theorem State.writePhys_dieSkew (pa n x : Nat) : (s.writePhys pa n x).dieSkew = s.dieSkew := rfl
@[simp] theorem State.writePhys_portSkew (pa n x : Nat) : (s.writePhys pa n x).portSkew = s.portSkew := rfl
@[simp] theorem State.writePhys_turn (pa n x : Nat) : (s.writePhys pa n x).turn = s.turn := rfl
@[simp] theorem State.writePhys_convoys (pa n x : Nat) : (s.writePhys pa n x).convoys = s.convoys := rfl
@[simp] theorem State.writePhys_copies (pa n x : Nat) : (s.writePhys pa n x).copies = s.copies := rfl
@[simp] theorem State.writePhys_mxops (pa n x : Nat) : (s.writePhys pa n x).mxops = s.mxops := rfl
@[simp] theorem State.writePhys_replies (pa n x : Nat) : (s.writePhys pa n x).replies = s.replies := rfl
@[simp] theorem State.writePhys_phys (pa n x : Nat) : (s.writePhys pa n x).phys = s.phys := rfl
@[simp] theorem State.writePhys_zeroing (pa n x : Nat) : (s.writePhys pa n x).zeroing = s.zeroing := rfl
@[simp] theorem State.writePhys_windows (pa n x : Nat) : (s.writePhys pa n x).windows = s.windows := rfl
@[simp] theorem State.writePhys_nextId (pa n x : Nat) : (s.writePhys pa n x).nextId = s.nextId := rfl
@[simp] theorem State.writePhys_agenda (pa n x : Nat) : (s.writePhys pa n x).agenda = s.agenda := rfl
@[simp] theorem State.writePhys_late (pa n x : Nat) : (s.writePhys pa n x).late = s.late := rfl
@[simp] theorem State.writePhys_clocks (pa n x : Nat) : (s.writePhys pa n x).clocks = s.clocks := rfl
@[simp] theorem State.writePhys_agentStamps (pa n x : Nat) : (s.writePhys pa n x).agentStamps = s.agentStamps := rfl
@[simp] theorem State.writePhys_free (pa n x : Nat) : (s.writePhys pa n x).free = s.free := rfl

/-! `clearPhys` -/
@[simp] theorem State.clearPhys_issue (pa n : Nat) : (s.clearPhys pa n).issue = s.issue := rfl
@[simp] theorem State.clearPhys_unissued (pa n : Nat) : (s.clearPhys pa n).unissued = s.unissued := rfl
@[simp] theorem State.clearPhys_groups (pa n : Nat) : (s.clearPhys pa n).groups = s.groups := rfl
@[simp] theorem State.clearPhys_ctxs (pa n : Nat) : (s.clearPhys pa n).ctxs = s.ctxs := rfl
@[simp] theorem State.clearPhys_parts (pa n : Nat) : (s.clearPhys pa n).parts = s.parts := rfl
@[simp] theorem State.clearPhys_blks (pa n : Nat) : (s.clearPhys pa n).blks = s.blks := rfl
@[simp] theorem State.clearPhys_dies (pa n : Nat) : (s.clearPhys pa n).dies = s.dies := rfl
@[simp] theorem State.clearPhys_cores (pa n : Nat) : (s.clearPhys pa n).cores = s.cores := rfl
@[simp] theorem State.clearPhys_sectors (pa n : Nat) : (s.clearPhys pa n).sectors = s.sectors := rfl
@[simp] theorem State.clearPhys_launches (pa n : Nat) : (s.clearPhys pa n).launches = s.launches := rfl
@[simp] theorem State.clearPhys_slices (pa n : Nat) : (s.clearPhys pa n).slices = s.slices := rfl
@[simp] theorem State.clearPhys_queues (pa n : Nat) : (s.clearPhys pa n).queues = s.queues := rfl
@[simp] theorem State.clearPhys_room (pa n : Nat) : (s.clearPhys pa n).room = s.room := rfl
@[simp] theorem State.clearPhys_fenced (pa n : Nat) : (s.clearPhys pa n).fenced = s.fenced := rfl
@[simp] theorem State.clearPhys_host (pa n : Nat) : (s.clearPhys pa n).host = s.host := rfl
@[simp] theorem State.clearPhys_clk (pa n : Nat) : (s.clearPhys pa n).clk = s.clk := rfl
@[simp] theorem State.clearPhys_bootErr (pa n : Nat) : (s.clearPhys pa n).bootErr = s.bootErr := rfl
@[simp] theorem State.clearPhys_lines (pa n : Nat) : (s.clearPhys pa n).lines = s.lines := rfl
@[simp] theorem State.clearPhys_logical (pa n : Nat) : (s.clearPhys pa n).logical = s.logical := rfl
@[simp] theorem State.clearPhys_signatures (pa n : Nat) : (s.clearPhys pa n).signatures = s.signatures := rfl
@[simp] theorem State.clearPhys_expected (pa n : Nat) : (s.clearPhys pa n).expected = s.expected := rfl
@[simp] theorem State.clearPhys_oldCode (pa n : Nat) : (s.clearPhys pa n).oldCode = s.oldCode := rfl
@[simp] theorem State.clearPhys_epoch (pa n : Nat) : (s.clearPhys pa n).epoch = s.epoch := rfl
@[simp] theorem State.clearPhys_stores (pa n : Nat) : (s.clearPhys pa n).stores = s.stores := rfl
@[simp] theorem State.clearPhys_remotes (pa n : Nat) : (s.clearPhys pa n).remotes = s.remotes := rfl
@[simp] theorem State.clearPhys_cxlUp (pa n : Nat) : (s.clearPhys pa n).cxlUp = s.cxlUp := rfl
@[simp] theorem State.clearPhys_routes (pa n : Nat) : (s.clearPhys pa n).routes = s.routes := rfl
@[simp] theorem State.clearPhys_ports (pa n : Nat) : (s.clearPhys pa n).ports = s.ports := rfl
@[simp] theorem State.clearPhys_routePending (pa n : Nat) : (s.clearPhys pa n).routePending = s.routePending := rfl
@[simp] theorem State.clearPhys_dbg (pa n : Nat) : (s.clearPhys pa n).dbg = s.dbg := rfl
@[simp] theorem State.clearPhys_plat (pa n : Nat) : (s.clearPhys pa n).plat = s.plat := rfl
@[simp] theorem State.clearPhys_dieSkew (pa n : Nat) : (s.clearPhys pa n).dieSkew = s.dieSkew := rfl
@[simp] theorem State.clearPhys_portSkew (pa n : Nat) : (s.clearPhys pa n).portSkew = s.portSkew := rfl
@[simp] theorem State.clearPhys_turn (pa n : Nat) : (s.clearPhys pa n).turn = s.turn := rfl
@[simp] theorem State.clearPhys_convoys (pa n : Nat) : (s.clearPhys pa n).convoys = s.convoys := rfl
@[simp] theorem State.clearPhys_copies (pa n : Nat) : (s.clearPhys pa n).copies = s.copies := rfl
@[simp] theorem State.clearPhys_mxops (pa n : Nat) : (s.clearPhys pa n).mxops = s.mxops := rfl
@[simp] theorem State.clearPhys_replies (pa n : Nat) : (s.clearPhys pa n).replies = s.replies := rfl
@[simp] theorem State.clearPhys_phys (pa n : Nat) : (s.clearPhys pa n).phys = s.phys := rfl
@[simp] theorem State.clearPhys_zeroing (pa n : Nat) : (s.clearPhys pa n).zeroing = s.zeroing := rfl
@[simp] theorem State.clearPhys_windows (pa n : Nat) : (s.clearPhys pa n).windows = s.windows := rfl
@[simp] theorem State.clearPhys_nextId (pa n : Nat) : (s.clearPhys pa n).nextId = s.nextId := rfl
@[simp] theorem State.clearPhys_agenda (pa n : Nat) : (s.clearPhys pa n).agenda = s.agenda := rfl
@[simp] theorem State.clearPhys_late (pa n : Nat) : (s.clearPhys pa n).late = s.late := rfl
@[simp] theorem State.clearPhys_clocks (pa n : Nat) : (s.clearPhys pa n).clocks = s.clocks := rfl
@[simp] theorem State.clearPhys_agentStamps (pa n : Nat) : (s.clearPhys pa n).agentStamps = s.agentStamps := rfl
@[simp] theorem State.clearPhys_free (pa n : Nat) : (s.clearPhys pa n).free = s.free := rfl

/-! `setTime` -/
@[simp] theorem State.setTime_issue (a : Nat) (t : BitVec 48) : (s.setTime a t).issue = s.issue := rfl
@[simp] theorem State.setTime_unissued (a : Nat) (t : BitVec 48) : (s.setTime a t).unissued = s.unissued := rfl
@[simp] theorem State.setTime_groups (a : Nat) (t : BitVec 48) : (s.setTime a t).groups = s.groups := rfl
@[simp] theorem State.setTime_mem (a : Nat) (t : BitVec 48) : (s.setTime a t).mem = s.mem := rfl
@[simp] theorem State.setTime_ctxs (a : Nat) (t : BitVec 48) : (s.setTime a t).ctxs = s.ctxs := rfl
@[simp] theorem State.setTime_parts (a : Nat) (t : BitVec 48) : (s.setTime a t).parts = s.parts := rfl
@[simp] theorem State.setTime_blks (a : Nat) (t : BitVec 48) : (s.setTime a t).blks = s.blks := rfl
@[simp] theorem State.setTime_dies (a : Nat) (t : BitVec 48) : (s.setTime a t).dies = s.dies := rfl
@[simp] theorem State.setTime_cores (a : Nat) (t : BitVec 48) : (s.setTime a t).cores = s.cores := rfl
@[simp] theorem State.setTime_sectors (a : Nat) (t : BitVec 48) : (s.setTime a t).sectors = s.sectors := rfl
@[simp] theorem State.setTime_launches (a : Nat) (t : BitVec 48) : (s.setTime a t).launches = s.launches := rfl
@[simp] theorem State.setTime_slices (a : Nat) (t : BitVec 48) : (s.setTime a t).slices = s.slices := rfl
@[simp] theorem State.setTime_queues (a : Nat) (t : BitVec 48) : (s.setTime a t).queues = s.queues := rfl
@[simp] theorem State.setTime_room (a : Nat) (t : BitVec 48) : (s.setTime a t).room = s.room := rfl
@[simp] theorem State.setTime_fenced (a : Nat) (t : BitVec 48) : (s.setTime a t).fenced = s.fenced := rfl
@[simp] theorem State.setTime_host (a : Nat) (t : BitVec 48) : (s.setTime a t).host = s.host := rfl
@[simp] theorem State.setTime_clk (a : Nat) (t : BitVec 48) : (s.setTime a t).clk = s.clk := rfl
@[simp] theorem State.setTime_bootErr (a : Nat) (t : BitVec 48) : (s.setTime a t).bootErr = s.bootErr := rfl
@[simp] theorem State.setTime_lines (a : Nat) (t : BitVec 48) : (s.setTime a t).lines = s.lines := rfl
@[simp] theorem State.setTime_signatures (a : Nat) (t : BitVec 48) : (s.setTime a t).signatures = s.signatures := rfl
@[simp] theorem State.setTime_expected (a : Nat) (t : BitVec 48) : (s.setTime a t).expected = s.expected := rfl
@[simp] theorem State.setTime_ends (a : Nat) (t : BitVec 48) : (s.setTime a t).ends = s.ends := rfl
@[simp] theorem State.setTime_dramEnds (a : Nat) (t : BitVec 48) : (s.setTime a t).dramEnds = s.dramEnds := rfl
@[simp] theorem State.setTime_oldCode (a : Nat) (t : BitVec 48) : (s.setTime a t).oldCode = s.oldCode := rfl
@[simp] theorem State.setTime_epoch (a : Nat) (t : BitVec 48) : (s.setTime a t).epoch = s.epoch := rfl
@[simp] theorem State.setTime_stores (a : Nat) (t : BitVec 48) : (s.setTime a t).stores = s.stores := rfl
@[simp] theorem State.setTime_remotes (a : Nat) (t : BitVec 48) : (s.setTime a t).remotes = s.remotes := rfl
@[simp] theorem State.setTime_cxlUp (a : Nat) (t : BitVec 48) : (s.setTime a t).cxlUp = s.cxlUp := rfl
@[simp] theorem State.setTime_routes (a : Nat) (t : BitVec 48) : (s.setTime a t).routes = s.routes := rfl
@[simp] theorem State.setTime_ports (a : Nat) (t : BitVec 48) : (s.setTime a t).ports = s.ports := rfl
@[simp] theorem State.setTime_routePending (a : Nat) (t : BitVec 48) : (s.setTime a t).routePending = s.routePending := rfl
@[simp] theorem State.setTime_dbg (a : Nat) (t : BitVec 48) : (s.setTime a t).dbg = s.dbg := rfl
@[simp] theorem State.setTime_plat (a : Nat) (t : BitVec 48) : (s.setTime a t).plat = s.plat := rfl
@[simp] theorem State.setTime_dieSkew (a : Nat) (t : BitVec 48) : (s.setTime a t).dieSkew = s.dieSkew := rfl
@[simp] theorem State.setTime_portSkew (a : Nat) (t : BitVec 48) : (s.setTime a t).portSkew = s.portSkew := rfl
@[simp] theorem State.setTime_turn (a : Nat) (t : BitVec 48) : (s.setTime a t).turn = s.turn := rfl
@[simp] theorem State.setTime_convoys (a : Nat) (t : BitVec 48) : (s.setTime a t).convoys = s.convoys := rfl
@[simp] theorem State.setTime_copies (a : Nat) (t : BitVec 48) : (s.setTime a t).copies = s.copies := rfl
@[simp] theorem State.setTime_mxops (a : Nat) (t : BitVec 48) : (s.setTime a t).mxops = s.mxops := rfl
@[simp] theorem State.setTime_replies (a : Nat) (t : BitVec 48) : (s.setTime a t).replies = s.replies := rfl
@[simp] theorem State.setTime_phys (a : Nat) (t : BitVec 48) : (s.setTime a t).phys = s.phys := rfl
@[simp] theorem State.setTime_zeroing (a : Nat) (t : BitVec 48) : (s.setTime a t).zeroing = s.zeroing := rfl
@[simp] theorem State.setTime_windows (a : Nat) (t : BitVec 48) : (s.setTime a t).windows = s.windows := rfl
@[simp] theorem State.setTime_nextId (a : Nat) (t : BitVec 48) : (s.setTime a t).nextId = s.nextId := rfl
@[simp] theorem State.setTime_agenda (a : Nat) (t : BitVec 48) : (s.setTime a t).agenda = s.agenda := rfl
@[simp] theorem State.setTime_late (a : Nat) (t : BitVec 48) : (s.setTime a t).late = s.late := rfl
@[simp] theorem State.setTime_clocks (a : Nat) (t : BitVec 48) : (s.setTime a t).clocks = s.clocks := rfl
@[simp] theorem State.setTime_agentStamps (a : Nat) (t : BitVec 48) : (s.setTime a t).agentStamps = s.agentStamps := rfl
@[simp] theorem State.setTime_free (a : Nat) (t : BitVec 48) : (s.setTime a t).free = s.free := rfl

/-! `bumpId` -/
@[simp] theorem State.bumpId_issue : s.bumpId.issue = s.issue := rfl
@[simp] theorem State.bumpId_unissued : s.bumpId.unissued = s.unissued := rfl
@[simp] theorem State.bumpId_groups : s.bumpId.groups = s.groups := rfl
@[simp] theorem State.bumpId_mem : s.bumpId.mem = s.mem := rfl
@[simp] theorem State.bumpId_ctxs : s.bumpId.ctxs = s.ctxs := rfl
@[simp] theorem State.bumpId_parts : s.bumpId.parts = s.parts := rfl
@[simp] theorem State.bumpId_blks : s.bumpId.blks = s.blks := rfl
@[simp] theorem State.bumpId_dies : s.bumpId.dies = s.dies := rfl
@[simp] theorem State.bumpId_cores : s.bumpId.cores = s.cores := rfl
@[simp] theorem State.bumpId_sectors : s.bumpId.sectors = s.sectors := rfl
@[simp] theorem State.bumpId_launches : s.bumpId.launches = s.launches := rfl
@[simp] theorem State.bumpId_slices : s.bumpId.slices = s.slices := rfl
@[simp] theorem State.bumpId_queues : s.bumpId.queues = s.queues := rfl
@[simp] theorem State.bumpId_room : s.bumpId.room = s.room := rfl
@[simp] theorem State.bumpId_fenced : s.bumpId.fenced = s.fenced := rfl
@[simp] theorem State.bumpId_host : s.bumpId.host = s.host := rfl
@[simp] theorem State.bumpId_clk : s.bumpId.clk = s.clk := rfl
@[simp] theorem State.bumpId_bootErr : s.bumpId.bootErr = s.bootErr := rfl
@[simp] theorem State.bumpId_lines : s.bumpId.lines = s.lines := rfl
@[simp] theorem State.bumpId_logical : s.bumpId.logical = s.logical := rfl
@[simp] theorem State.bumpId_signatures : s.bumpId.signatures = s.signatures := rfl
@[simp] theorem State.bumpId_expected : s.bumpId.expected = s.expected := rfl
@[simp] theorem State.bumpId_ends : s.bumpId.ends = s.ends := rfl
@[simp] theorem State.bumpId_dramEnds : s.bumpId.dramEnds = s.dramEnds := rfl
@[simp] theorem State.bumpId_oldCode : s.bumpId.oldCode = s.oldCode := rfl
@[simp] theorem State.bumpId_epoch : s.bumpId.epoch = s.epoch := rfl
@[simp] theorem State.bumpId_stores : s.bumpId.stores = s.stores := rfl
@[simp] theorem State.bumpId_remotes : s.bumpId.remotes = s.remotes := rfl
@[simp] theorem State.bumpId_cxlUp : s.bumpId.cxlUp = s.cxlUp := rfl
@[simp] theorem State.bumpId_routes : s.bumpId.routes = s.routes := rfl
@[simp] theorem State.bumpId_ports : s.bumpId.ports = s.ports := rfl
@[simp] theorem State.bumpId_routePending : s.bumpId.routePending = s.routePending := rfl
@[simp] theorem State.bumpId_dbg : s.bumpId.dbg = s.dbg := rfl
@[simp] theorem State.bumpId_plat : s.bumpId.plat = s.plat := rfl
@[simp] theorem State.bumpId_dieSkew : s.bumpId.dieSkew = s.dieSkew := rfl
@[simp] theorem State.bumpId_portSkew : s.bumpId.portSkew = s.portSkew := rfl
@[simp] theorem State.bumpId_turn : s.bumpId.turn = s.turn := rfl
@[simp] theorem State.bumpId_convoys : s.bumpId.convoys = s.convoys := rfl
@[simp] theorem State.bumpId_copies : s.bumpId.copies = s.copies := rfl
@[simp] theorem State.bumpId_mxops : s.bumpId.mxops = s.mxops := rfl
@[simp] theorem State.bumpId_replies : s.bumpId.replies = s.replies := rfl
@[simp] theorem State.bumpId_phys : s.bumpId.phys = s.phys := rfl
@[simp] theorem State.bumpId_zeroing : s.bumpId.zeroing = s.zeroing := rfl
@[simp] theorem State.bumpId_windows : s.bumpId.windows = s.windows := rfl
@[simp] theorem State.bumpId_agenda : s.bumpId.agenda = s.agenda := rfl
@[simp] theorem State.bumpId_late : s.bumpId.late = s.late := rfl
@[simp] theorem State.bumpId_clocks : s.bumpId.clocks = s.clocks := rfl
@[simp] theorem State.bumpId_agentStamps : s.bumpId.agentStamps = s.agentStamps := rfl
@[simp] theorem State.bumpId_free : s.bumpId.free = s.free := rfl

/-! `modConvoy` -/
@[simp] theorem State.modConvoy_issue (k : Nat) (f : Convoy → Convoy) : (s.modConvoy k f).issue = s.issue := rfl
@[simp] theorem State.modConvoy_unissued (k : Nat) (f : Convoy → Convoy) : (s.modConvoy k f).unissued = s.unissued := rfl
@[simp] theorem State.modConvoy_groups (k : Nat) (f : Convoy → Convoy) : (s.modConvoy k f).groups = s.groups := rfl
@[simp] theorem State.modConvoy_mem (k : Nat) (f : Convoy → Convoy) : (s.modConvoy k f).mem = s.mem := rfl
@[simp] theorem State.modConvoy_ctxs (k : Nat) (f : Convoy → Convoy) : (s.modConvoy k f).ctxs = s.ctxs := rfl
@[simp] theorem State.modConvoy_parts (k : Nat) (f : Convoy → Convoy) : (s.modConvoy k f).parts = s.parts := rfl
@[simp] theorem State.modConvoy_blks (k : Nat) (f : Convoy → Convoy) : (s.modConvoy k f).blks = s.blks := rfl
@[simp] theorem State.modConvoy_dies (k : Nat) (f : Convoy → Convoy) : (s.modConvoy k f).dies = s.dies := rfl
@[simp] theorem State.modConvoy_cores (k : Nat) (f : Convoy → Convoy) : (s.modConvoy k f).cores = s.cores := rfl
@[simp] theorem State.modConvoy_sectors (k : Nat) (f : Convoy → Convoy) : (s.modConvoy k f).sectors = s.sectors := rfl
@[simp] theorem State.modConvoy_launches (k : Nat) (f : Convoy → Convoy) : (s.modConvoy k f).launches = s.launches := rfl
@[simp] theorem State.modConvoy_slices (k : Nat) (f : Convoy → Convoy) : (s.modConvoy k f).slices = s.slices := rfl
@[simp] theorem State.modConvoy_queues (k : Nat) (f : Convoy → Convoy) : (s.modConvoy k f).queues = s.queues := rfl
@[simp] theorem State.modConvoy_room (k : Nat) (f : Convoy → Convoy) : (s.modConvoy k f).room = s.room := rfl
@[simp] theorem State.modConvoy_fenced (k : Nat) (f : Convoy → Convoy) : (s.modConvoy k f).fenced = s.fenced := rfl
@[simp] theorem State.modConvoy_host (k : Nat) (f : Convoy → Convoy) : (s.modConvoy k f).host = s.host := rfl
@[simp] theorem State.modConvoy_clk (k : Nat) (f : Convoy → Convoy) : (s.modConvoy k f).clk = s.clk := rfl
@[simp] theorem State.modConvoy_bootErr (k : Nat) (f : Convoy → Convoy) : (s.modConvoy k f).bootErr = s.bootErr := rfl
@[simp] theorem State.modConvoy_lines (k : Nat) (f : Convoy → Convoy) : (s.modConvoy k f).lines = s.lines := rfl
@[simp] theorem State.modConvoy_logical (k : Nat) (f : Convoy → Convoy) : (s.modConvoy k f).logical = s.logical := rfl
@[simp] theorem State.modConvoy_signatures (k : Nat) (f : Convoy → Convoy) : (s.modConvoy k f).signatures = s.signatures := rfl
@[simp] theorem State.modConvoy_expected (k : Nat) (f : Convoy → Convoy) : (s.modConvoy k f).expected = s.expected := rfl
@[simp] theorem State.modConvoy_ends (k : Nat) (f : Convoy → Convoy) : (s.modConvoy k f).ends = s.ends := rfl
@[simp] theorem State.modConvoy_dramEnds (k : Nat) (f : Convoy → Convoy) : (s.modConvoy k f).dramEnds = s.dramEnds := rfl
@[simp] theorem State.modConvoy_oldCode (k : Nat) (f : Convoy → Convoy) : (s.modConvoy k f).oldCode = s.oldCode := rfl
@[simp] theorem State.modConvoy_epoch (k : Nat) (f : Convoy → Convoy) : (s.modConvoy k f).epoch = s.epoch := rfl
@[simp] theorem State.modConvoy_stores (k : Nat) (f : Convoy → Convoy) : (s.modConvoy k f).stores = s.stores := rfl
@[simp] theorem State.modConvoy_remotes (k : Nat) (f : Convoy → Convoy) : (s.modConvoy k f).remotes = s.remotes := rfl
@[simp] theorem State.modConvoy_cxlUp (k : Nat) (f : Convoy → Convoy) : (s.modConvoy k f).cxlUp = s.cxlUp := rfl
@[simp] theorem State.modConvoy_routes (k : Nat) (f : Convoy → Convoy) : (s.modConvoy k f).routes = s.routes := rfl
@[simp] theorem State.modConvoy_ports (k : Nat) (f : Convoy → Convoy) : (s.modConvoy k f).ports = s.ports := rfl
@[simp] theorem State.modConvoy_routePending (k : Nat) (f : Convoy → Convoy) : (s.modConvoy k f).routePending = s.routePending := rfl
@[simp] theorem State.modConvoy_dbg (k : Nat) (f : Convoy → Convoy) : (s.modConvoy k f).dbg = s.dbg := rfl
@[simp] theorem State.modConvoy_plat (k : Nat) (f : Convoy → Convoy) : (s.modConvoy k f).plat = s.plat := rfl
@[simp] theorem State.modConvoy_dieSkew (k : Nat) (f : Convoy → Convoy) : (s.modConvoy k f).dieSkew = s.dieSkew := rfl
@[simp] theorem State.modConvoy_portSkew (k : Nat) (f : Convoy → Convoy) : (s.modConvoy k f).portSkew = s.portSkew := rfl
@[simp] theorem State.modConvoy_turn (k : Nat) (f : Convoy → Convoy) : (s.modConvoy k f).turn = s.turn := rfl
@[simp] theorem State.modConvoy_copies (k : Nat) (f : Convoy → Convoy) : (s.modConvoy k f).copies = s.copies := rfl
@[simp] theorem State.modConvoy_mxops (k : Nat) (f : Convoy → Convoy) : (s.modConvoy k f).mxops = s.mxops := rfl
@[simp] theorem State.modConvoy_replies (k : Nat) (f : Convoy → Convoy) : (s.modConvoy k f).replies = s.replies := rfl
@[simp] theorem State.modConvoy_phys (k : Nat) (f : Convoy → Convoy) : (s.modConvoy k f).phys = s.phys := rfl
@[simp] theorem State.modConvoy_zeroing (k : Nat) (f : Convoy → Convoy) : (s.modConvoy k f).zeroing = s.zeroing := rfl
@[simp] theorem State.modConvoy_windows (k : Nat) (f : Convoy → Convoy) : (s.modConvoy k f).windows = s.windows := rfl
@[simp] theorem State.modConvoy_nextId (k : Nat) (f : Convoy → Convoy) : (s.modConvoy k f).nextId = s.nextId := rfl
@[simp] theorem State.modConvoy_agenda (k : Nat) (f : Convoy → Convoy) : (s.modConvoy k f).agenda = s.agenda := rfl
@[simp] theorem State.modConvoy_late (k : Nat) (f : Convoy → Convoy) : (s.modConvoy k f).late = s.late := rfl
@[simp] theorem State.modConvoy_clocks (k : Nat) (f : Convoy → Convoy) : (s.modConvoy k f).clocks = s.clocks := rfl
@[simp] theorem State.modConvoy_agentStamps (k : Nat) (f : Convoy → Convoy) : (s.modConvoy k f).agentStamps = s.agentStamps := rfl
@[simp] theorem State.modConvoy_free (k : Nat) (f : Convoy → Convoy) : (s.modConvoy k f).free = s.free := rfl

/-! `modCopy` -/
@[simp] theorem State.modCopy_issue (k : Nat) (f : CopyRecord → CopyRecord) : (s.modCopy k f).issue = s.issue := rfl
@[simp] theorem State.modCopy_unissued (k : Nat) (f : CopyRecord → CopyRecord) : (s.modCopy k f).unissued = s.unissued := rfl
@[simp] theorem State.modCopy_groups (k : Nat) (f : CopyRecord → CopyRecord) : (s.modCopy k f).groups = s.groups := rfl
@[simp] theorem State.modCopy_mem (k : Nat) (f : CopyRecord → CopyRecord) : (s.modCopy k f).mem = s.mem := rfl
@[simp] theorem State.modCopy_ctxs (k : Nat) (f : CopyRecord → CopyRecord) : (s.modCopy k f).ctxs = s.ctxs := rfl
@[simp] theorem State.modCopy_parts (k : Nat) (f : CopyRecord → CopyRecord) : (s.modCopy k f).parts = s.parts := rfl
@[simp] theorem State.modCopy_blks (k : Nat) (f : CopyRecord → CopyRecord) : (s.modCopy k f).blks = s.blks := rfl
@[simp] theorem State.modCopy_dies (k : Nat) (f : CopyRecord → CopyRecord) : (s.modCopy k f).dies = s.dies := rfl
@[simp] theorem State.modCopy_cores (k : Nat) (f : CopyRecord → CopyRecord) : (s.modCopy k f).cores = s.cores := rfl
@[simp] theorem State.modCopy_sectors (k : Nat) (f : CopyRecord → CopyRecord) : (s.modCopy k f).sectors = s.sectors := rfl
@[simp] theorem State.modCopy_launches (k : Nat) (f : CopyRecord → CopyRecord) : (s.modCopy k f).launches = s.launches := rfl
@[simp] theorem State.modCopy_slices (k : Nat) (f : CopyRecord → CopyRecord) : (s.modCopy k f).slices = s.slices := rfl
@[simp] theorem State.modCopy_queues (k : Nat) (f : CopyRecord → CopyRecord) : (s.modCopy k f).queues = s.queues := rfl
@[simp] theorem State.modCopy_room (k : Nat) (f : CopyRecord → CopyRecord) : (s.modCopy k f).room = s.room := rfl
@[simp] theorem State.modCopy_fenced (k : Nat) (f : CopyRecord → CopyRecord) : (s.modCopy k f).fenced = s.fenced := rfl
@[simp] theorem State.modCopy_host (k : Nat) (f : CopyRecord → CopyRecord) : (s.modCopy k f).host = s.host := rfl
@[simp] theorem State.modCopy_clk (k : Nat) (f : CopyRecord → CopyRecord) : (s.modCopy k f).clk = s.clk := rfl
@[simp] theorem State.modCopy_bootErr (k : Nat) (f : CopyRecord → CopyRecord) : (s.modCopy k f).bootErr = s.bootErr := rfl
@[simp] theorem State.modCopy_lines (k : Nat) (f : CopyRecord → CopyRecord) : (s.modCopy k f).lines = s.lines := rfl
@[simp] theorem State.modCopy_logical (k : Nat) (f : CopyRecord → CopyRecord) : (s.modCopy k f).logical = s.logical := rfl
@[simp] theorem State.modCopy_signatures (k : Nat) (f : CopyRecord → CopyRecord) : (s.modCopy k f).signatures = s.signatures := rfl
@[simp] theorem State.modCopy_expected (k : Nat) (f : CopyRecord → CopyRecord) : (s.modCopy k f).expected = s.expected := rfl
@[simp] theorem State.modCopy_ends (k : Nat) (f : CopyRecord → CopyRecord) : (s.modCopy k f).ends = s.ends := rfl
@[simp] theorem State.modCopy_dramEnds (k : Nat) (f : CopyRecord → CopyRecord) : (s.modCopy k f).dramEnds = s.dramEnds := rfl
@[simp] theorem State.modCopy_oldCode (k : Nat) (f : CopyRecord → CopyRecord) : (s.modCopy k f).oldCode = s.oldCode := rfl
@[simp] theorem State.modCopy_epoch (k : Nat) (f : CopyRecord → CopyRecord) : (s.modCopy k f).epoch = s.epoch := rfl
@[simp] theorem State.modCopy_stores (k : Nat) (f : CopyRecord → CopyRecord) : (s.modCopy k f).stores = s.stores := rfl
@[simp] theorem State.modCopy_remotes (k : Nat) (f : CopyRecord → CopyRecord) : (s.modCopy k f).remotes = s.remotes := rfl
@[simp] theorem State.modCopy_cxlUp (k : Nat) (f : CopyRecord → CopyRecord) : (s.modCopy k f).cxlUp = s.cxlUp := rfl
@[simp] theorem State.modCopy_routes (k : Nat) (f : CopyRecord → CopyRecord) : (s.modCopy k f).routes = s.routes := rfl
@[simp] theorem State.modCopy_ports (k : Nat) (f : CopyRecord → CopyRecord) : (s.modCopy k f).ports = s.ports := rfl
@[simp] theorem State.modCopy_routePending (k : Nat) (f : CopyRecord → CopyRecord) : (s.modCopy k f).routePending = s.routePending := rfl
@[simp] theorem State.modCopy_dbg (k : Nat) (f : CopyRecord → CopyRecord) : (s.modCopy k f).dbg = s.dbg := rfl
@[simp] theorem State.modCopy_plat (k : Nat) (f : CopyRecord → CopyRecord) : (s.modCopy k f).plat = s.plat := rfl
@[simp] theorem State.modCopy_dieSkew (k : Nat) (f : CopyRecord → CopyRecord) : (s.modCopy k f).dieSkew = s.dieSkew := rfl
@[simp] theorem State.modCopy_portSkew (k : Nat) (f : CopyRecord → CopyRecord) : (s.modCopy k f).portSkew = s.portSkew := rfl
@[simp] theorem State.modCopy_turn (k : Nat) (f : CopyRecord → CopyRecord) : (s.modCopy k f).turn = s.turn := rfl
@[simp] theorem State.modCopy_convoys (k : Nat) (f : CopyRecord → CopyRecord) : (s.modCopy k f).convoys = s.convoys := rfl
@[simp] theorem State.modCopy_mxops (k : Nat) (f : CopyRecord → CopyRecord) : (s.modCopy k f).mxops = s.mxops := rfl
@[simp] theorem State.modCopy_replies (k : Nat) (f : CopyRecord → CopyRecord) : (s.modCopy k f).replies = s.replies := rfl
@[simp] theorem State.modCopy_phys (k : Nat) (f : CopyRecord → CopyRecord) : (s.modCopy k f).phys = s.phys := rfl
@[simp] theorem State.modCopy_zeroing (k : Nat) (f : CopyRecord → CopyRecord) : (s.modCopy k f).zeroing = s.zeroing := rfl
@[simp] theorem State.modCopy_windows (k : Nat) (f : CopyRecord → CopyRecord) : (s.modCopy k f).windows = s.windows := rfl
@[simp] theorem State.modCopy_nextId (k : Nat) (f : CopyRecord → CopyRecord) : (s.modCopy k f).nextId = s.nextId := rfl
@[simp] theorem State.modCopy_agenda (k : Nat) (f : CopyRecord → CopyRecord) : (s.modCopy k f).agenda = s.agenda := rfl
@[simp] theorem State.modCopy_late (k : Nat) (f : CopyRecord → CopyRecord) : (s.modCopy k f).late = s.late := rfl
@[simp] theorem State.modCopy_clocks (k : Nat) (f : CopyRecord → CopyRecord) : (s.modCopy k f).clocks = s.clocks := rfl
@[simp] theorem State.modCopy_agentStamps (k : Nat) (f : CopyRecord → CopyRecord) : (s.modCopy k f).agentStamps = s.agentStamps := rfl
@[simp] theorem State.modCopy_free (k : Nat) (f : CopyRecord → CopyRecord) : (s.modCopy k f).free = s.free := rfl

/-! `modMx` -/
@[simp] theorem State.modMx_issue (k : Nat) (f : MxOp → MxOp) : (s.modMx k f).issue = s.issue := rfl
@[simp] theorem State.modMx_unissued (k : Nat) (f : MxOp → MxOp) : (s.modMx k f).unissued = s.unissued := rfl
@[simp] theorem State.modMx_groups (k : Nat) (f : MxOp → MxOp) : (s.modMx k f).groups = s.groups := rfl
@[simp] theorem State.modMx_mem (k : Nat) (f : MxOp → MxOp) : (s.modMx k f).mem = s.mem := rfl
@[simp] theorem State.modMx_ctxs (k : Nat) (f : MxOp → MxOp) : (s.modMx k f).ctxs = s.ctxs := rfl
@[simp] theorem State.modMx_parts (k : Nat) (f : MxOp → MxOp) : (s.modMx k f).parts = s.parts := rfl
@[simp] theorem State.modMx_blks (k : Nat) (f : MxOp → MxOp) : (s.modMx k f).blks = s.blks := rfl
@[simp] theorem State.modMx_dies (k : Nat) (f : MxOp → MxOp) : (s.modMx k f).dies = s.dies := rfl
@[simp] theorem State.modMx_cores (k : Nat) (f : MxOp → MxOp) : (s.modMx k f).cores = s.cores := rfl
@[simp] theorem State.modMx_sectors (k : Nat) (f : MxOp → MxOp) : (s.modMx k f).sectors = s.sectors := rfl
@[simp] theorem State.modMx_launches (k : Nat) (f : MxOp → MxOp) : (s.modMx k f).launches = s.launches := rfl
@[simp] theorem State.modMx_slices (k : Nat) (f : MxOp → MxOp) : (s.modMx k f).slices = s.slices := rfl
@[simp] theorem State.modMx_queues (k : Nat) (f : MxOp → MxOp) : (s.modMx k f).queues = s.queues := rfl
@[simp] theorem State.modMx_room (k : Nat) (f : MxOp → MxOp) : (s.modMx k f).room = s.room := rfl
@[simp] theorem State.modMx_fenced (k : Nat) (f : MxOp → MxOp) : (s.modMx k f).fenced = s.fenced := rfl
@[simp] theorem State.modMx_host (k : Nat) (f : MxOp → MxOp) : (s.modMx k f).host = s.host := rfl
@[simp] theorem State.modMx_clk (k : Nat) (f : MxOp → MxOp) : (s.modMx k f).clk = s.clk := rfl
@[simp] theorem State.modMx_bootErr (k : Nat) (f : MxOp → MxOp) : (s.modMx k f).bootErr = s.bootErr := rfl
@[simp] theorem State.modMx_lines (k : Nat) (f : MxOp → MxOp) : (s.modMx k f).lines = s.lines := rfl
@[simp] theorem State.modMx_logical (k : Nat) (f : MxOp → MxOp) : (s.modMx k f).logical = s.logical := rfl
@[simp] theorem State.modMx_signatures (k : Nat) (f : MxOp → MxOp) : (s.modMx k f).signatures = s.signatures := rfl
@[simp] theorem State.modMx_expected (k : Nat) (f : MxOp → MxOp) : (s.modMx k f).expected = s.expected := rfl
@[simp] theorem State.modMx_ends (k : Nat) (f : MxOp → MxOp) : (s.modMx k f).ends = s.ends := rfl
@[simp] theorem State.modMx_dramEnds (k : Nat) (f : MxOp → MxOp) : (s.modMx k f).dramEnds = s.dramEnds := rfl
@[simp] theorem State.modMx_oldCode (k : Nat) (f : MxOp → MxOp) : (s.modMx k f).oldCode = s.oldCode := rfl
@[simp] theorem State.modMx_epoch (k : Nat) (f : MxOp → MxOp) : (s.modMx k f).epoch = s.epoch := rfl
@[simp] theorem State.modMx_stores (k : Nat) (f : MxOp → MxOp) : (s.modMx k f).stores = s.stores := rfl
@[simp] theorem State.modMx_remotes (k : Nat) (f : MxOp → MxOp) : (s.modMx k f).remotes = s.remotes := rfl
@[simp] theorem State.modMx_cxlUp (k : Nat) (f : MxOp → MxOp) : (s.modMx k f).cxlUp = s.cxlUp := rfl
@[simp] theorem State.modMx_routes (k : Nat) (f : MxOp → MxOp) : (s.modMx k f).routes = s.routes := rfl
@[simp] theorem State.modMx_ports (k : Nat) (f : MxOp → MxOp) : (s.modMx k f).ports = s.ports := rfl
@[simp] theorem State.modMx_routePending (k : Nat) (f : MxOp → MxOp) : (s.modMx k f).routePending = s.routePending := rfl
@[simp] theorem State.modMx_dbg (k : Nat) (f : MxOp → MxOp) : (s.modMx k f).dbg = s.dbg := rfl
@[simp] theorem State.modMx_plat (k : Nat) (f : MxOp → MxOp) : (s.modMx k f).plat = s.plat := rfl
@[simp] theorem State.modMx_dieSkew (k : Nat) (f : MxOp → MxOp) : (s.modMx k f).dieSkew = s.dieSkew := rfl
@[simp] theorem State.modMx_portSkew (k : Nat) (f : MxOp → MxOp) : (s.modMx k f).portSkew = s.portSkew := rfl
@[simp] theorem State.modMx_turn (k : Nat) (f : MxOp → MxOp) : (s.modMx k f).turn = s.turn := rfl
@[simp] theorem State.modMx_convoys (k : Nat) (f : MxOp → MxOp) : (s.modMx k f).convoys = s.convoys := rfl
@[simp] theorem State.modMx_copies (k : Nat) (f : MxOp → MxOp) : (s.modMx k f).copies = s.copies := rfl
@[simp] theorem State.modMx_replies (k : Nat) (f : MxOp → MxOp) : (s.modMx k f).replies = s.replies := rfl
@[simp] theorem State.modMx_phys (k : Nat) (f : MxOp → MxOp) : (s.modMx k f).phys = s.phys := rfl
@[simp] theorem State.modMx_zeroing (k : Nat) (f : MxOp → MxOp) : (s.modMx k f).zeroing = s.zeroing := rfl
@[simp] theorem State.modMx_windows (k : Nat) (f : MxOp → MxOp) : (s.modMx k f).windows = s.windows := rfl
@[simp] theorem State.modMx_nextId (k : Nat) (f : MxOp → MxOp) : (s.modMx k f).nextId = s.nextId := rfl
@[simp] theorem State.modMx_agenda (k : Nat) (f : MxOp → MxOp) : (s.modMx k f).agenda = s.agenda := rfl
@[simp] theorem State.modMx_late (k : Nat) (f : MxOp → MxOp) : (s.modMx k f).late = s.late := rfl
@[simp] theorem State.modMx_clocks (k : Nat) (f : MxOp → MxOp) : (s.modMx k f).clocks = s.clocks := rfl
@[simp] theorem State.modMx_agentStamps (k : Nat) (f : MxOp → MxOp) : (s.modMx k f).agentStamps = s.agentStamps := rfl
@[simp] theorem State.modMx_free (k : Nat) (f : MxOp → MxOp) : (s.modMx k f).free = s.free := rfl

/-! `modPlat` -/
@[simp] theorem State.modPlat_issue (f : Platform → Platform) : (s.modPlat f).issue = s.issue := rfl
@[simp] theorem State.modPlat_unissued (f : Platform → Platform) : (s.modPlat f).unissued = s.unissued := rfl
@[simp] theorem State.modPlat_groups (f : Platform → Platform) : (s.modPlat f).groups = s.groups := rfl
@[simp] theorem State.modPlat_mem (f : Platform → Platform) : (s.modPlat f).mem = s.mem := rfl
@[simp] theorem State.modPlat_ctxs (f : Platform → Platform) : (s.modPlat f).ctxs = s.ctxs := rfl
@[simp] theorem State.modPlat_parts (f : Platform → Platform) : (s.modPlat f).parts = s.parts := rfl
@[simp] theorem State.modPlat_blks (f : Platform → Platform) : (s.modPlat f).blks = s.blks := rfl
@[simp] theorem State.modPlat_dies (f : Platform → Platform) : (s.modPlat f).dies = s.dies := rfl
@[simp] theorem State.modPlat_cores (f : Platform → Platform) : (s.modPlat f).cores = s.cores := rfl
@[simp] theorem State.modPlat_sectors (f : Platform → Platform) : (s.modPlat f).sectors = s.sectors := rfl
@[simp] theorem State.modPlat_launches (f : Platform → Platform) : (s.modPlat f).launches = s.launches := rfl
@[simp] theorem State.modPlat_slices (f : Platform → Platform) : (s.modPlat f).slices = s.slices := rfl
@[simp] theorem State.modPlat_queues (f : Platform → Platform) : (s.modPlat f).queues = s.queues := rfl
@[simp] theorem State.modPlat_room (f : Platform → Platform) : (s.modPlat f).room = s.room := rfl
@[simp] theorem State.modPlat_fenced (f : Platform → Platform) : (s.modPlat f).fenced = s.fenced := rfl
@[simp] theorem State.modPlat_host (f : Platform → Platform) : (s.modPlat f).host = s.host := rfl
@[simp] theorem State.modPlat_clk (f : Platform → Platform) : (s.modPlat f).clk = s.clk := rfl
@[simp] theorem State.modPlat_bootErr (f : Platform → Platform) : (s.modPlat f).bootErr = s.bootErr := rfl
@[simp] theorem State.modPlat_lines (f : Platform → Platform) : (s.modPlat f).lines = s.lines := rfl
@[simp] theorem State.modPlat_logical (f : Platform → Platform) : (s.modPlat f).logical = s.logical := rfl
@[simp] theorem State.modPlat_signatures (f : Platform → Platform) : (s.modPlat f).signatures = s.signatures := rfl
@[simp] theorem State.modPlat_expected (f : Platform → Platform) : (s.modPlat f).expected = s.expected := rfl
@[simp] theorem State.modPlat_ends (f : Platform → Platform) : (s.modPlat f).ends = s.ends := rfl
@[simp] theorem State.modPlat_dramEnds (f : Platform → Platform) : (s.modPlat f).dramEnds = s.dramEnds := rfl
@[simp] theorem State.modPlat_oldCode (f : Platform → Platform) : (s.modPlat f).oldCode = s.oldCode := rfl
@[simp] theorem State.modPlat_epoch (f : Platform → Platform) : (s.modPlat f).epoch = s.epoch := rfl
@[simp] theorem State.modPlat_stores (f : Platform → Platform) : (s.modPlat f).stores = s.stores := rfl
@[simp] theorem State.modPlat_remotes (f : Platform → Platform) : (s.modPlat f).remotes = s.remotes := rfl
@[simp] theorem State.modPlat_cxlUp (f : Platform → Platform) : (s.modPlat f).cxlUp = s.cxlUp := rfl
@[simp] theorem State.modPlat_routes (f : Platform → Platform) : (s.modPlat f).routes = s.routes := rfl
@[simp] theorem State.modPlat_ports (f : Platform → Platform) : (s.modPlat f).ports = s.ports := rfl
@[simp] theorem State.modPlat_routePending (f : Platform → Platform) : (s.modPlat f).routePending = s.routePending := rfl
@[simp] theorem State.modPlat_dbg (f : Platform → Platform) : (s.modPlat f).dbg = s.dbg := rfl
@[simp] theorem State.modPlat_dieSkew (f : Platform → Platform) : (s.modPlat f).dieSkew = s.dieSkew := rfl
@[simp] theorem State.modPlat_portSkew (f : Platform → Platform) : (s.modPlat f).portSkew = s.portSkew := rfl
@[simp] theorem State.modPlat_turn (f : Platform → Platform) : (s.modPlat f).turn = s.turn := rfl
@[simp] theorem State.modPlat_convoys (f : Platform → Platform) : (s.modPlat f).convoys = s.convoys := rfl
@[simp] theorem State.modPlat_copies (f : Platform → Platform) : (s.modPlat f).copies = s.copies := rfl
@[simp] theorem State.modPlat_mxops (f : Platform → Platform) : (s.modPlat f).mxops = s.mxops := rfl
@[simp] theorem State.modPlat_replies (f : Platform → Platform) : (s.modPlat f).replies = s.replies := rfl
@[simp] theorem State.modPlat_phys (f : Platform → Platform) : (s.modPlat f).phys = s.phys := rfl
@[simp] theorem State.modPlat_zeroing (f : Platform → Platform) : (s.modPlat f).zeroing = s.zeroing := rfl
@[simp] theorem State.modPlat_windows (f : Platform → Platform) : (s.modPlat f).windows = s.windows := rfl
@[simp] theorem State.modPlat_nextId (f : Platform → Platform) : (s.modPlat f).nextId = s.nextId := rfl
@[simp] theorem State.modPlat_agenda (f : Platform → Platform) : (s.modPlat f).agenda = s.agenda := rfl
@[simp] theorem State.modPlat_late (f : Platform → Platform) : (s.modPlat f).late = s.late := rfl
@[simp] theorem State.modPlat_clocks (f : Platform → Platform) : (s.modPlat f).clocks = s.clocks := rfl
@[simp] theorem State.modPlat_agentStamps (f : Platform → Platform) : (s.modPlat f).agentStamps = s.agentStamps := rfl
@[simp] theorem State.modPlat_free (f : Platform → Platform) : (s.modPlat f).free = s.free := rfl

/-! `modDebug` -/
@[simp] theorem State.modDebug_issue (f : DebugRegs → DebugRegs) : (s.modDebug f).issue = s.issue := rfl
@[simp] theorem State.modDebug_unissued (f : DebugRegs → DebugRegs) : (s.modDebug f).unissued = s.unissued := rfl
@[simp] theorem State.modDebug_groups (f : DebugRegs → DebugRegs) : (s.modDebug f).groups = s.groups := rfl
@[simp] theorem State.modDebug_mem (f : DebugRegs → DebugRegs) : (s.modDebug f).mem = s.mem := rfl
@[simp] theorem State.modDebug_ctxs (f : DebugRegs → DebugRegs) : (s.modDebug f).ctxs = s.ctxs := rfl
@[simp] theorem State.modDebug_parts (f : DebugRegs → DebugRegs) : (s.modDebug f).parts = s.parts := rfl
@[simp] theorem State.modDebug_blks (f : DebugRegs → DebugRegs) : (s.modDebug f).blks = s.blks := rfl
@[simp] theorem State.modDebug_dies (f : DebugRegs → DebugRegs) : (s.modDebug f).dies = s.dies := rfl
@[simp] theorem State.modDebug_cores (f : DebugRegs → DebugRegs) : (s.modDebug f).cores = s.cores := rfl
@[simp] theorem State.modDebug_sectors (f : DebugRegs → DebugRegs) : (s.modDebug f).sectors = s.sectors := rfl
@[simp] theorem State.modDebug_launches (f : DebugRegs → DebugRegs) : (s.modDebug f).launches = s.launches := rfl
@[simp] theorem State.modDebug_slices (f : DebugRegs → DebugRegs) : (s.modDebug f).slices = s.slices := rfl
@[simp] theorem State.modDebug_queues (f : DebugRegs → DebugRegs) : (s.modDebug f).queues = s.queues := rfl
@[simp] theorem State.modDebug_room (f : DebugRegs → DebugRegs) : (s.modDebug f).room = s.room := rfl
@[simp] theorem State.modDebug_fenced (f : DebugRegs → DebugRegs) : (s.modDebug f).fenced = s.fenced := rfl
@[simp] theorem State.modDebug_host (f : DebugRegs → DebugRegs) : (s.modDebug f).host = s.host := rfl
@[simp] theorem State.modDebug_clk (f : DebugRegs → DebugRegs) : (s.modDebug f).clk = s.clk := rfl
@[simp] theorem State.modDebug_bootErr (f : DebugRegs → DebugRegs) : (s.modDebug f).bootErr = s.bootErr := rfl
@[simp] theorem State.modDebug_lines (f : DebugRegs → DebugRegs) : (s.modDebug f).lines = s.lines := rfl
@[simp] theorem State.modDebug_logical (f : DebugRegs → DebugRegs) : (s.modDebug f).logical = s.logical := rfl
@[simp] theorem State.modDebug_signatures (f : DebugRegs → DebugRegs) : (s.modDebug f).signatures = s.signatures := rfl
@[simp] theorem State.modDebug_expected (f : DebugRegs → DebugRegs) : (s.modDebug f).expected = s.expected := rfl
@[simp] theorem State.modDebug_ends (f : DebugRegs → DebugRegs) : (s.modDebug f).ends = s.ends := rfl
@[simp] theorem State.modDebug_dramEnds (f : DebugRegs → DebugRegs) : (s.modDebug f).dramEnds = s.dramEnds := rfl
@[simp] theorem State.modDebug_oldCode (f : DebugRegs → DebugRegs) : (s.modDebug f).oldCode = s.oldCode := rfl
@[simp] theorem State.modDebug_epoch (f : DebugRegs → DebugRegs) : (s.modDebug f).epoch = s.epoch := rfl
@[simp] theorem State.modDebug_stores (f : DebugRegs → DebugRegs) : (s.modDebug f).stores = s.stores := rfl
@[simp] theorem State.modDebug_remotes (f : DebugRegs → DebugRegs) : (s.modDebug f).remotes = s.remotes := rfl
@[simp] theorem State.modDebug_cxlUp (f : DebugRegs → DebugRegs) : (s.modDebug f).cxlUp = s.cxlUp := rfl
@[simp] theorem State.modDebug_routes (f : DebugRegs → DebugRegs) : (s.modDebug f).routes = s.routes := rfl
@[simp] theorem State.modDebug_ports (f : DebugRegs → DebugRegs) : (s.modDebug f).ports = s.ports := rfl
@[simp] theorem State.modDebug_routePending (f : DebugRegs → DebugRegs) : (s.modDebug f).routePending = s.routePending := rfl
@[simp] theorem State.modDebug_plat (f : DebugRegs → DebugRegs) : (s.modDebug f).plat = s.plat := rfl
@[simp] theorem State.modDebug_dieSkew (f : DebugRegs → DebugRegs) : (s.modDebug f).dieSkew = s.dieSkew := rfl
@[simp] theorem State.modDebug_portSkew (f : DebugRegs → DebugRegs) : (s.modDebug f).portSkew = s.portSkew := rfl
@[simp] theorem State.modDebug_turn (f : DebugRegs → DebugRegs) : (s.modDebug f).turn = s.turn := rfl
@[simp] theorem State.modDebug_convoys (f : DebugRegs → DebugRegs) : (s.modDebug f).convoys = s.convoys := rfl
@[simp] theorem State.modDebug_copies (f : DebugRegs → DebugRegs) : (s.modDebug f).copies = s.copies := rfl
@[simp] theorem State.modDebug_mxops (f : DebugRegs → DebugRegs) : (s.modDebug f).mxops = s.mxops := rfl
@[simp] theorem State.modDebug_replies (f : DebugRegs → DebugRegs) : (s.modDebug f).replies = s.replies := rfl
@[simp] theorem State.modDebug_phys (f : DebugRegs → DebugRegs) : (s.modDebug f).phys = s.phys := rfl
@[simp] theorem State.modDebug_zeroing (f : DebugRegs → DebugRegs) : (s.modDebug f).zeroing = s.zeroing := rfl
@[simp] theorem State.modDebug_windows (f : DebugRegs → DebugRegs) : (s.modDebug f).windows = s.windows := rfl
@[simp] theorem State.modDebug_nextId (f : DebugRegs → DebugRegs) : (s.modDebug f).nextId = s.nextId := rfl
@[simp] theorem State.modDebug_agenda (f : DebugRegs → DebugRegs) : (s.modDebug f).agenda = s.agenda := rfl
@[simp] theorem State.modDebug_late (f : DebugRegs → DebugRegs) : (s.modDebug f).late = s.late := rfl
@[simp] theorem State.modDebug_clocks (f : DebugRegs → DebugRegs) : (s.modDebug f).clocks = s.clocks := rfl
@[simp] theorem State.modDebug_agentStamps (f : DebugRegs → DebugRegs) : (s.modDebug f).agentStamps = s.agentStamps := rfl
@[simp] theorem State.modDebug_free (f : DebugRegs → DebugRegs) : (s.modDebug f).free = s.free := rfl

/-! `modHost` -/
@[simp] theorem State.modHost_issue (f : HostSide → HostSide) : (s.modHost f).issue = s.issue := rfl
@[simp] theorem State.modHost_unissued (f : HostSide → HostSide) : (s.modHost f).unissued = s.unissued := rfl
@[simp] theorem State.modHost_groups (f : HostSide → HostSide) : (s.modHost f).groups = s.groups := rfl
@[simp] theorem State.modHost_mem (f : HostSide → HostSide) : (s.modHost f).mem = s.mem := rfl
@[simp] theorem State.modHost_ctxs (f : HostSide → HostSide) : (s.modHost f).ctxs = s.ctxs := rfl
@[simp] theorem State.modHost_parts (f : HostSide → HostSide) : (s.modHost f).parts = s.parts := rfl
@[simp] theorem State.modHost_blks (f : HostSide → HostSide) : (s.modHost f).blks = s.blks := rfl
@[simp] theorem State.modHost_dies (f : HostSide → HostSide) : (s.modHost f).dies = s.dies := rfl
@[simp] theorem State.modHost_cores (f : HostSide → HostSide) : (s.modHost f).cores = s.cores := rfl
@[simp] theorem State.modHost_sectors (f : HostSide → HostSide) : (s.modHost f).sectors = s.sectors := rfl
@[simp] theorem State.modHost_launches (f : HostSide → HostSide) : (s.modHost f).launches = s.launches := rfl
@[simp] theorem State.modHost_slices (f : HostSide → HostSide) : (s.modHost f).slices = s.slices := rfl
@[simp] theorem State.modHost_queues (f : HostSide → HostSide) : (s.modHost f).queues = s.queues := rfl
@[simp] theorem State.modHost_room (f : HostSide → HostSide) : (s.modHost f).room = s.room := rfl
@[simp] theorem State.modHost_fenced (f : HostSide → HostSide) : (s.modHost f).fenced = s.fenced := rfl
@[simp] theorem State.modHost_clk (f : HostSide → HostSide) : (s.modHost f).clk = s.clk := rfl
@[simp] theorem State.modHost_bootErr (f : HostSide → HostSide) : (s.modHost f).bootErr = s.bootErr := rfl
@[simp] theorem State.modHost_lines (f : HostSide → HostSide) : (s.modHost f).lines = s.lines := rfl
@[simp] theorem State.modHost_logical (f : HostSide → HostSide) : (s.modHost f).logical = s.logical := rfl
@[simp] theorem State.modHost_signatures (f : HostSide → HostSide) : (s.modHost f).signatures = s.signatures := rfl
@[simp] theorem State.modHost_expected (f : HostSide → HostSide) : (s.modHost f).expected = s.expected := rfl
@[simp] theorem State.modHost_ends (f : HostSide → HostSide) : (s.modHost f).ends = s.ends := rfl
@[simp] theorem State.modHost_dramEnds (f : HostSide → HostSide) : (s.modHost f).dramEnds = s.dramEnds := rfl
@[simp] theorem State.modHost_oldCode (f : HostSide → HostSide) : (s.modHost f).oldCode = s.oldCode := rfl
@[simp] theorem State.modHost_epoch (f : HostSide → HostSide) : (s.modHost f).epoch = s.epoch := rfl
@[simp] theorem State.modHost_stores (f : HostSide → HostSide) : (s.modHost f).stores = s.stores := rfl
@[simp] theorem State.modHost_remotes (f : HostSide → HostSide) : (s.modHost f).remotes = s.remotes := rfl
@[simp] theorem State.modHost_cxlUp (f : HostSide → HostSide) : (s.modHost f).cxlUp = s.cxlUp := rfl
@[simp] theorem State.modHost_routes (f : HostSide → HostSide) : (s.modHost f).routes = s.routes := rfl
@[simp] theorem State.modHost_ports (f : HostSide → HostSide) : (s.modHost f).ports = s.ports := rfl
@[simp] theorem State.modHost_routePending (f : HostSide → HostSide) : (s.modHost f).routePending = s.routePending := rfl
@[simp] theorem State.modHost_dbg (f : HostSide → HostSide) : (s.modHost f).dbg = s.dbg := rfl
@[simp] theorem State.modHost_plat (f : HostSide → HostSide) : (s.modHost f).plat = s.plat := rfl
@[simp] theorem State.modHost_dieSkew (f : HostSide → HostSide) : (s.modHost f).dieSkew = s.dieSkew := rfl
@[simp] theorem State.modHost_portSkew (f : HostSide → HostSide) : (s.modHost f).portSkew = s.portSkew := rfl
@[simp] theorem State.modHost_turn (f : HostSide → HostSide) : (s.modHost f).turn = s.turn := rfl
@[simp] theorem State.modHost_convoys (f : HostSide → HostSide) : (s.modHost f).convoys = s.convoys := rfl
@[simp] theorem State.modHost_copies (f : HostSide → HostSide) : (s.modHost f).copies = s.copies := rfl
@[simp] theorem State.modHost_mxops (f : HostSide → HostSide) : (s.modHost f).mxops = s.mxops := rfl
@[simp] theorem State.modHost_replies (f : HostSide → HostSide) : (s.modHost f).replies = s.replies := rfl
@[simp] theorem State.modHost_phys (f : HostSide → HostSide) : (s.modHost f).phys = s.phys := rfl
@[simp] theorem State.modHost_zeroing (f : HostSide → HostSide) : (s.modHost f).zeroing = s.zeroing := rfl
@[simp] theorem State.modHost_windows (f : HostSide → HostSide) : (s.modHost f).windows = s.windows := rfl
@[simp] theorem State.modHost_nextId (f : HostSide → HostSide) : (s.modHost f).nextId = s.nextId := rfl
@[simp] theorem State.modHost_agenda (f : HostSide → HostSide) : (s.modHost f).agenda = s.agenda := rfl
@[simp] theorem State.modHost_late (f : HostSide → HostSide) : (s.modHost f).late = s.late := rfl
@[simp] theorem State.modHost_clocks (f : HostSide → HostSide) : (s.modHost f).clocks = s.clocks := rfl
@[simp] theorem State.modHost_agentStamps (f : HostSide → HostSide) : (s.modHost f).agentStamps = s.agentStamps := rfl
@[simp] theorem State.modHost_free (f : HostSide → HostSide) : (s.modHost f).free = s.free := rfl

/-! `later` -/
@[simp] theorem State.later_issue (n : Nat) (i : Instr) : (s.later n i).issue = s.issue := rfl
@[simp] theorem State.later_unissued (n : Nat) (i : Instr) : (s.later n i).unissued = s.unissued := rfl
@[simp] theorem State.later_groups (n : Nat) (i : Instr) : (s.later n i).groups = s.groups := rfl
@[simp] theorem State.later_mem (n : Nat) (i : Instr) : (s.later n i).mem = s.mem := rfl
@[simp] theorem State.later_ctxs (n : Nat) (i : Instr) : (s.later n i).ctxs = s.ctxs := rfl
@[simp] theorem State.later_parts (n : Nat) (i : Instr) : (s.later n i).parts = s.parts := rfl
@[simp] theorem State.later_blks (n : Nat) (i : Instr) : (s.later n i).blks = s.blks := rfl
@[simp] theorem State.later_dies (n : Nat) (i : Instr) : (s.later n i).dies = s.dies := rfl
@[simp] theorem State.later_cores (n : Nat) (i : Instr) : (s.later n i).cores = s.cores := rfl
@[simp] theorem State.later_sectors (n : Nat) (i : Instr) : (s.later n i).sectors = s.sectors := rfl
@[simp] theorem State.later_launches (n : Nat) (i : Instr) : (s.later n i).launches = s.launches := rfl
@[simp] theorem State.later_slices (n : Nat) (i : Instr) : (s.later n i).slices = s.slices := rfl
@[simp] theorem State.later_queues (n : Nat) (i : Instr) : (s.later n i).queues = s.queues := rfl
@[simp] theorem State.later_room (n : Nat) (i : Instr) : (s.later n i).room = s.room := rfl
@[simp] theorem State.later_fenced (n : Nat) (i : Instr) : (s.later n i).fenced = s.fenced := rfl
@[simp] theorem State.later_host (n : Nat) (i : Instr) : (s.later n i).host = s.host := rfl
@[simp] theorem State.later_clk (n : Nat) (i : Instr) : (s.later n i).clk = s.clk := rfl
@[simp] theorem State.later_bootErr (n : Nat) (i : Instr) : (s.later n i).bootErr = s.bootErr := rfl
@[simp] theorem State.later_lines (n : Nat) (i : Instr) : (s.later n i).lines = s.lines := rfl
@[simp] theorem State.later_logical (n : Nat) (i : Instr) : (s.later n i).logical = s.logical := rfl
@[simp] theorem State.later_signatures (n : Nat) (i : Instr) : (s.later n i).signatures = s.signatures := rfl
@[simp] theorem State.later_expected (n : Nat) (i : Instr) : (s.later n i).expected = s.expected := rfl
@[simp] theorem State.later_ends (n : Nat) (i : Instr) : (s.later n i).ends = s.ends := rfl
@[simp] theorem State.later_dramEnds (n : Nat) (i : Instr) : (s.later n i).dramEnds = s.dramEnds := rfl
@[simp] theorem State.later_oldCode (n : Nat) (i : Instr) : (s.later n i).oldCode = s.oldCode := rfl
@[simp] theorem State.later_epoch (n : Nat) (i : Instr) : (s.later n i).epoch = s.epoch := rfl
@[simp] theorem State.later_stores (n : Nat) (i : Instr) : (s.later n i).stores = s.stores := rfl
@[simp] theorem State.later_remotes (n : Nat) (i : Instr) : (s.later n i).remotes = s.remotes := rfl
@[simp] theorem State.later_cxlUp (n : Nat) (i : Instr) : (s.later n i).cxlUp = s.cxlUp := rfl
@[simp] theorem State.later_routes (n : Nat) (i : Instr) : (s.later n i).routes = s.routes := rfl
@[simp] theorem State.later_ports (n : Nat) (i : Instr) : (s.later n i).ports = s.ports := rfl
@[simp] theorem State.later_routePending (n : Nat) (i : Instr) : (s.later n i).routePending = s.routePending := rfl
@[simp] theorem State.later_dbg (n : Nat) (i : Instr) : (s.later n i).dbg = s.dbg := rfl
@[simp] theorem State.later_plat (n : Nat) (i : Instr) : (s.later n i).plat = s.plat := rfl
@[simp] theorem State.later_dieSkew (n : Nat) (i : Instr) : (s.later n i).dieSkew = s.dieSkew := rfl
@[simp] theorem State.later_portSkew (n : Nat) (i : Instr) : (s.later n i).portSkew = s.portSkew := rfl
@[simp] theorem State.later_turn (n : Nat) (i : Instr) : (s.later n i).turn = s.turn := rfl
@[simp] theorem State.later_convoys (n : Nat) (i : Instr) : (s.later n i).convoys = s.convoys := rfl
@[simp] theorem State.later_copies (n : Nat) (i : Instr) : (s.later n i).copies = s.copies := rfl
@[simp] theorem State.later_mxops (n : Nat) (i : Instr) : (s.later n i).mxops = s.mxops := rfl
@[simp] theorem State.later_replies (n : Nat) (i : Instr) : (s.later n i).replies = s.replies := rfl
@[simp] theorem State.later_phys (n : Nat) (i : Instr) : (s.later n i).phys = s.phys := rfl
@[simp] theorem State.later_zeroing (n : Nat) (i : Instr) : (s.later n i).zeroing = s.zeroing := rfl
@[simp] theorem State.later_windows (n : Nat) (i : Instr) : (s.later n i).windows = s.windows := rfl
@[simp] theorem State.later_nextId (n : Nat) (i : Instr) : (s.later n i).nextId = s.nextId := rfl
@[simp] theorem State.later_agenda (n : Nat) (i : Instr) : (s.later n i).agenda = s.agenda := rfl
@[simp] theorem State.later_clocks (n : Nat) (i : Instr) : (s.later n i).clocks = s.clocks := rfl
@[simp] theorem State.later_agentStamps (n : Nat) (i : Instr) : (s.later n i).agentStamps = s.agentStamps := rfl
@[simp] theorem State.later_free (n : Nat) (i : Instr) : (s.later n i).free = s.free := rfl

/-! `hideCode` -/
@[simp] theorem State.hideCode_issue (pa n : Nat) : (s.hideCode pa n).issue = s.issue := rfl
@[simp] theorem State.hideCode_unissued (pa n : Nat) : (s.hideCode pa n).unissued = s.unissued := rfl
@[simp] theorem State.hideCode_groups (pa n : Nat) : (s.hideCode pa n).groups = s.groups := rfl
@[simp] theorem State.hideCode_mem (pa n : Nat) : (s.hideCode pa n).mem = s.mem := rfl
@[simp] theorem State.hideCode_ctxs (pa n : Nat) : (s.hideCode pa n).ctxs = s.ctxs := rfl
@[simp] theorem State.hideCode_parts (pa n : Nat) : (s.hideCode pa n).parts = s.parts := rfl
@[simp] theorem State.hideCode_blks (pa n : Nat) : (s.hideCode pa n).blks = s.blks := rfl
@[simp] theorem State.hideCode_dies (pa n : Nat) : (s.hideCode pa n).dies = s.dies := rfl
@[simp] theorem State.hideCode_cores (pa n : Nat) : (s.hideCode pa n).cores = s.cores := rfl
@[simp] theorem State.hideCode_sectors (pa n : Nat) : (s.hideCode pa n).sectors = s.sectors := rfl
@[simp] theorem State.hideCode_launches (pa n : Nat) : (s.hideCode pa n).launches = s.launches := rfl
@[simp] theorem State.hideCode_slices (pa n : Nat) : (s.hideCode pa n).slices = s.slices := rfl
@[simp] theorem State.hideCode_queues (pa n : Nat) : (s.hideCode pa n).queues = s.queues := rfl
@[simp] theorem State.hideCode_room (pa n : Nat) : (s.hideCode pa n).room = s.room := rfl
@[simp] theorem State.hideCode_fenced (pa n : Nat) : (s.hideCode pa n).fenced = s.fenced := rfl
@[simp] theorem State.hideCode_host (pa n : Nat) : (s.hideCode pa n).host = s.host := rfl
@[simp] theorem State.hideCode_clk (pa n : Nat) : (s.hideCode pa n).clk = s.clk := rfl
@[simp] theorem State.hideCode_bootErr (pa n : Nat) : (s.hideCode pa n).bootErr = s.bootErr := rfl
@[simp] theorem State.hideCode_lines (pa n : Nat) : (s.hideCode pa n).lines = s.lines := rfl
@[simp] theorem State.hideCode_logical (pa n : Nat) : (s.hideCode pa n).logical = s.logical := rfl
@[simp] theorem State.hideCode_signatures (pa n : Nat) : (s.hideCode pa n).signatures = s.signatures := rfl
@[simp] theorem State.hideCode_expected (pa n : Nat) : (s.hideCode pa n).expected = s.expected := rfl
@[simp] theorem State.hideCode_ends (pa n : Nat) : (s.hideCode pa n).ends = s.ends := rfl
@[simp] theorem State.hideCode_dramEnds (pa n : Nat) : (s.hideCode pa n).dramEnds = s.dramEnds := rfl
@[simp] theorem State.hideCode_epoch (pa n : Nat) : (s.hideCode pa n).epoch = s.epoch := rfl
@[simp] theorem State.hideCode_stores (pa n : Nat) : (s.hideCode pa n).stores = s.stores := rfl
@[simp] theorem State.hideCode_remotes (pa n : Nat) : (s.hideCode pa n).remotes = s.remotes := rfl
@[simp] theorem State.hideCode_cxlUp (pa n : Nat) : (s.hideCode pa n).cxlUp = s.cxlUp := rfl
@[simp] theorem State.hideCode_routes (pa n : Nat) : (s.hideCode pa n).routes = s.routes := rfl
@[simp] theorem State.hideCode_ports (pa n : Nat) : (s.hideCode pa n).ports = s.ports := rfl
@[simp] theorem State.hideCode_routePending (pa n : Nat) : (s.hideCode pa n).routePending = s.routePending := rfl
@[simp] theorem State.hideCode_dbg (pa n : Nat) : (s.hideCode pa n).dbg = s.dbg := rfl
@[simp] theorem State.hideCode_plat (pa n : Nat) : (s.hideCode pa n).plat = s.plat := rfl
@[simp] theorem State.hideCode_dieSkew (pa n : Nat) : (s.hideCode pa n).dieSkew = s.dieSkew := rfl
@[simp] theorem State.hideCode_portSkew (pa n : Nat) : (s.hideCode pa n).portSkew = s.portSkew := rfl
@[simp] theorem State.hideCode_turn (pa n : Nat) : (s.hideCode pa n).turn = s.turn := rfl
@[simp] theorem State.hideCode_convoys (pa n : Nat) : (s.hideCode pa n).convoys = s.convoys := rfl
@[simp] theorem State.hideCode_copies (pa n : Nat) : (s.hideCode pa n).copies = s.copies := rfl
@[simp] theorem State.hideCode_mxops (pa n : Nat) : (s.hideCode pa n).mxops = s.mxops := rfl
@[simp] theorem State.hideCode_replies (pa n : Nat) : (s.hideCode pa n).replies = s.replies := rfl
@[simp] theorem State.hideCode_phys (pa n : Nat) : (s.hideCode pa n).phys = s.phys := rfl
@[simp] theorem State.hideCode_zeroing (pa n : Nat) : (s.hideCode pa n).zeroing = s.zeroing := rfl
@[simp] theorem State.hideCode_windows (pa n : Nat) : (s.hideCode pa n).windows = s.windows := rfl
@[simp] theorem State.hideCode_nextId (pa n : Nat) : (s.hideCode pa n).nextId = s.nextId := rfl
@[simp] theorem State.hideCode_agenda (pa n : Nat) : (s.hideCode pa n).agenda = s.agenda := rfl
@[simp] theorem State.hideCode_late (pa n : Nat) : (s.hideCode pa n).late = s.late := rfl
@[simp] theorem State.hideCode_clocks (pa n : Nat) : (s.hideCode pa n).clocks = s.clocks := rfl
@[simp] theorem State.hideCode_agentStamps (pa n : Nat) : (s.hideCode pa n).agentStamps = s.agentStamps := rfl
@[simp] theorem State.hideCode_free (pa n : Nat) : (s.hideCode pa n).free = s.free := rfl

/-! `showCode` -/
@[simp] theorem State.showCode_issue (pa n : Nat) : (s.showCode pa n).issue = s.issue := rfl
@[simp] theorem State.showCode_unissued (pa n : Nat) : (s.showCode pa n).unissued = s.unissued := rfl
@[simp] theorem State.showCode_groups (pa n : Nat) : (s.showCode pa n).groups = s.groups := rfl
@[simp] theorem State.showCode_mem (pa n : Nat) : (s.showCode pa n).mem = s.mem := rfl
@[simp] theorem State.showCode_ctxs (pa n : Nat) : (s.showCode pa n).ctxs = s.ctxs := rfl
@[simp] theorem State.showCode_parts (pa n : Nat) : (s.showCode pa n).parts = s.parts := rfl
@[simp] theorem State.showCode_blks (pa n : Nat) : (s.showCode pa n).blks = s.blks := rfl
@[simp] theorem State.showCode_dies (pa n : Nat) : (s.showCode pa n).dies = s.dies := rfl
@[simp] theorem State.showCode_cores (pa n : Nat) : (s.showCode pa n).cores = s.cores := rfl
@[simp] theorem State.showCode_sectors (pa n : Nat) : (s.showCode pa n).sectors = s.sectors := rfl
@[simp] theorem State.showCode_launches (pa n : Nat) : (s.showCode pa n).launches = s.launches := rfl
@[simp] theorem State.showCode_slices (pa n : Nat) : (s.showCode pa n).slices = s.slices := rfl
@[simp] theorem State.showCode_queues (pa n : Nat) : (s.showCode pa n).queues = s.queues := rfl
@[simp] theorem State.showCode_room (pa n : Nat) : (s.showCode pa n).room = s.room := rfl
@[simp] theorem State.showCode_fenced (pa n : Nat) : (s.showCode pa n).fenced = s.fenced := rfl
@[simp] theorem State.showCode_host (pa n : Nat) : (s.showCode pa n).host = s.host := rfl
@[simp] theorem State.showCode_clk (pa n : Nat) : (s.showCode pa n).clk = s.clk := rfl
@[simp] theorem State.showCode_bootErr (pa n : Nat) : (s.showCode pa n).bootErr = s.bootErr := rfl
@[simp] theorem State.showCode_lines (pa n : Nat) : (s.showCode pa n).lines = s.lines := rfl
@[simp] theorem State.showCode_logical (pa n : Nat) : (s.showCode pa n).logical = s.logical := rfl
@[simp] theorem State.showCode_signatures (pa n : Nat) : (s.showCode pa n).signatures = s.signatures := rfl
@[simp] theorem State.showCode_expected (pa n : Nat) : (s.showCode pa n).expected = s.expected := rfl
@[simp] theorem State.showCode_ends (pa n : Nat) : (s.showCode pa n).ends = s.ends := rfl
@[simp] theorem State.showCode_dramEnds (pa n : Nat) : (s.showCode pa n).dramEnds = s.dramEnds := rfl
@[simp] theorem State.showCode_epoch (pa n : Nat) : (s.showCode pa n).epoch = s.epoch := rfl
@[simp] theorem State.showCode_stores (pa n : Nat) : (s.showCode pa n).stores = s.stores := rfl
@[simp] theorem State.showCode_remotes (pa n : Nat) : (s.showCode pa n).remotes = s.remotes := rfl
@[simp] theorem State.showCode_cxlUp (pa n : Nat) : (s.showCode pa n).cxlUp = s.cxlUp := rfl
@[simp] theorem State.showCode_routes (pa n : Nat) : (s.showCode pa n).routes = s.routes := rfl
@[simp] theorem State.showCode_ports (pa n : Nat) : (s.showCode pa n).ports = s.ports := rfl
@[simp] theorem State.showCode_routePending (pa n : Nat) : (s.showCode pa n).routePending = s.routePending := rfl
@[simp] theorem State.showCode_dbg (pa n : Nat) : (s.showCode pa n).dbg = s.dbg := rfl
@[simp] theorem State.showCode_plat (pa n : Nat) : (s.showCode pa n).plat = s.plat := rfl
@[simp] theorem State.showCode_dieSkew (pa n : Nat) : (s.showCode pa n).dieSkew = s.dieSkew := rfl
@[simp] theorem State.showCode_portSkew (pa n : Nat) : (s.showCode pa n).portSkew = s.portSkew := rfl
@[simp] theorem State.showCode_turn (pa n : Nat) : (s.showCode pa n).turn = s.turn := rfl
@[simp] theorem State.showCode_convoys (pa n : Nat) : (s.showCode pa n).convoys = s.convoys := rfl
@[simp] theorem State.showCode_copies (pa n : Nat) : (s.showCode pa n).copies = s.copies := rfl
@[simp] theorem State.showCode_mxops (pa n : Nat) : (s.showCode pa n).mxops = s.mxops := rfl
@[simp] theorem State.showCode_replies (pa n : Nat) : (s.showCode pa n).replies = s.replies := rfl
@[simp] theorem State.showCode_phys (pa n : Nat) : (s.showCode pa n).phys = s.phys := rfl
@[simp] theorem State.showCode_zeroing (pa n : Nat) : (s.showCode pa n).zeroing = s.zeroing := rfl
@[simp] theorem State.showCode_windows (pa n : Nat) : (s.showCode pa n).windows = s.windows := rfl
@[simp] theorem State.showCode_nextId (pa n : Nat) : (s.showCode pa n).nextId = s.nextId := rfl
@[simp] theorem State.showCode_agenda (pa n : Nat) : (s.showCode pa n).agenda = s.agenda := rfl
@[simp] theorem State.showCode_late (pa n : Nat) : (s.showCode pa n).late = s.late := rfl
@[simp] theorem State.showCode_clocks (pa n : Nat) : (s.showCode pa n).clocks = s.clocks := rfl
@[simp] theorem State.showCode_agentStamps (pa n : Nat) : (s.showCode pa n).agentStamps = s.agentStamps := rfl
@[simp] theorem State.showCode_free (pa n : Nat) : (s.showCode pa n).free = s.free := rfl

/-! `dropRemote` -/
@[simp] theorem State.dropRemote_issue (k : Nat) : (s.dropRemote k).issue = s.issue := rfl
@[simp] theorem State.dropRemote_unissued (k : Nat) : (s.dropRemote k).unissued = s.unissued := rfl
@[simp] theorem State.dropRemote_groups (k : Nat) : (s.dropRemote k).groups = s.groups := rfl
@[simp] theorem State.dropRemote_mem (k : Nat) : (s.dropRemote k).mem = s.mem := rfl
@[simp] theorem State.dropRemote_ctxs (k : Nat) : (s.dropRemote k).ctxs = s.ctxs := rfl
@[simp] theorem State.dropRemote_parts (k : Nat) : (s.dropRemote k).parts = s.parts := rfl
@[simp] theorem State.dropRemote_blks (k : Nat) : (s.dropRemote k).blks = s.blks := rfl
@[simp] theorem State.dropRemote_dies (k : Nat) : (s.dropRemote k).dies = s.dies := rfl
@[simp] theorem State.dropRemote_cores (k : Nat) : (s.dropRemote k).cores = s.cores := rfl
@[simp] theorem State.dropRemote_sectors (k : Nat) : (s.dropRemote k).sectors = s.sectors := rfl
@[simp] theorem State.dropRemote_launches (k : Nat) : (s.dropRemote k).launches = s.launches := rfl
@[simp] theorem State.dropRemote_slices (k : Nat) : (s.dropRemote k).slices = s.slices := rfl
@[simp] theorem State.dropRemote_queues (k : Nat) : (s.dropRemote k).queues = s.queues := rfl
@[simp] theorem State.dropRemote_room (k : Nat) : (s.dropRemote k).room = s.room := rfl
@[simp] theorem State.dropRemote_fenced (k : Nat) : (s.dropRemote k).fenced = s.fenced := rfl
@[simp] theorem State.dropRemote_host (k : Nat) : (s.dropRemote k).host = s.host := rfl
@[simp] theorem State.dropRemote_clk (k : Nat) : (s.dropRemote k).clk = s.clk := rfl
@[simp] theorem State.dropRemote_bootErr (k : Nat) : (s.dropRemote k).bootErr = s.bootErr := rfl
@[simp] theorem State.dropRemote_lines (k : Nat) : (s.dropRemote k).lines = s.lines := rfl
@[simp] theorem State.dropRemote_logical (k : Nat) : (s.dropRemote k).logical = s.logical := rfl
@[simp] theorem State.dropRemote_signatures (k : Nat) : (s.dropRemote k).signatures = s.signatures := rfl
@[simp] theorem State.dropRemote_expected (k : Nat) : (s.dropRemote k).expected = s.expected := rfl
@[simp] theorem State.dropRemote_ends (k : Nat) : (s.dropRemote k).ends = s.ends := rfl
@[simp] theorem State.dropRemote_dramEnds (k : Nat) : (s.dropRemote k).dramEnds = s.dramEnds := rfl
@[simp] theorem State.dropRemote_oldCode (k : Nat) : (s.dropRemote k).oldCode = s.oldCode := rfl
@[simp] theorem State.dropRemote_epoch (k : Nat) : (s.dropRemote k).epoch = s.epoch := rfl
@[simp] theorem State.dropRemote_stores (k : Nat) : (s.dropRemote k).stores = s.stores := rfl
@[simp] theorem State.dropRemote_cxlUp (k : Nat) : (s.dropRemote k).cxlUp = s.cxlUp := rfl
@[simp] theorem State.dropRemote_routes (k : Nat) : (s.dropRemote k).routes = s.routes := rfl
@[simp] theorem State.dropRemote_ports (k : Nat) : (s.dropRemote k).ports = s.ports := rfl
@[simp] theorem State.dropRemote_routePending (k : Nat) : (s.dropRemote k).routePending = s.routePending := rfl
@[simp] theorem State.dropRemote_dbg (k : Nat) : (s.dropRemote k).dbg = s.dbg := rfl
@[simp] theorem State.dropRemote_plat (k : Nat) : (s.dropRemote k).plat = s.plat := rfl
@[simp] theorem State.dropRemote_dieSkew (k : Nat) : (s.dropRemote k).dieSkew = s.dieSkew := rfl
@[simp] theorem State.dropRemote_portSkew (k : Nat) : (s.dropRemote k).portSkew = s.portSkew := rfl
@[simp] theorem State.dropRemote_turn (k : Nat) : (s.dropRemote k).turn = s.turn := rfl
@[simp] theorem State.dropRemote_convoys (k : Nat) : (s.dropRemote k).convoys = s.convoys := rfl
@[simp] theorem State.dropRemote_copies (k : Nat) : (s.dropRemote k).copies = s.copies := rfl
@[simp] theorem State.dropRemote_mxops (k : Nat) : (s.dropRemote k).mxops = s.mxops := rfl
@[simp] theorem State.dropRemote_replies (k : Nat) : (s.dropRemote k).replies = s.replies := rfl
@[simp] theorem State.dropRemote_phys (k : Nat) : (s.dropRemote k).phys = s.phys := rfl
@[simp] theorem State.dropRemote_zeroing (k : Nat) : (s.dropRemote k).zeroing = s.zeroing := rfl
@[simp] theorem State.dropRemote_windows (k : Nat) : (s.dropRemote k).windows = s.windows := rfl
@[simp] theorem State.dropRemote_nextId (k : Nat) : (s.dropRemote k).nextId = s.nextId := rfl
@[simp] theorem State.dropRemote_agenda (k : Nat) : (s.dropRemote k).agenda = s.agenda := rfl
@[simp] theorem State.dropRemote_late (k : Nat) : (s.dropRemote k).late = s.late := rfl
@[simp] theorem State.dropRemote_clocks (k : Nat) : (s.dropRemote k).clocks = s.clocks := rfl
@[simp] theorem State.dropRemote_agentStamps (k : Nat) : (s.dropRemote k).agentStamps = s.agentStamps := rfl
@[simp] theorem State.dropRemote_free (k : Nat) : (s.dropRemote k).free = s.free := rfl

end Sys2Proof.Machine
end

