-- ==== Sys2Proof/Laws/Tab.lean ====
section
/-! SUPPORT. The laws of the sparse tables: read after write, writes leave other keys alone, and the canonical form is kept. -/
namespace Sys2Proof.Machine

namespace Tab
variable {α : Type}

theorem get?_del_same (k : Nat) (t : Tab α) : get? k (del k t) = none := by
  induction t with
  | nil => rfl
  | cons e t ih => obtain ⟨a, x⟩ := e; by_cases h : a = k <;> simp [del, get?, h, ih]

theorem get?_del_other {k j : Nat} (h : j ≠ k) (t : Tab α) : get? j (del k t) = get? j t := by
  induction t with
  | nil => rfl
  | cons e t ih =>
    obtain ⟨a, x⟩ := e
    by_cases hk : a = k
    · subst hk; simp [del, get?, ih, Ne.symm h]
    · simp [del, get?, hk, ih]

theorem get?_insert_same {k : Nat} {x : α} {t : Tab α} (h : get? k t = none) : get? k (insert k x t) = some x := by
  induction t with
  | nil => simp [insert, get?]
  | cons e t ih =>
    obtain ⟨a, y⟩ := e
    simp only [get?] at h
    by_cases ha : a = k
    · simp [ha] at h
    · rw [if_neg ha] at h
      by_cases hlt : k < a <;> simp [insert, get?, hlt, ha, ih h]

theorem get?_insert_other {k j : Nat} (h : j ≠ k) (x : α) (t : Tab α) : get? j (insert k x t) = get? j t := by
  induction t with
  | nil => simp [insert, get?, Ne.symm h]
  | cons e t ih =>
    obtain ⟨a, y⟩ := e
    by_cases hlt : k < a
    · simp [insert, get?, hlt, Ne.symm h]
    · simp [insert, get?, hlt, ih]

@[simp] theorem get?_put_same (k : Nat) (x : α) (t : Tab α) : get? k (put k x t) = some x :=
  get?_insert_same (get?_del_same k t)

theorem get?_put_other {k j : Nat} (h : j ≠ k) (x : α) (t : Tab α) : get? j (put k x t) = get? j t := by
  rw [put, get?_insert_other h, get?_del_other h]

theorem get?_modify_same {k : Nat} {f : α → α} {t : Tab α} {x : α} (h : get? k t = some x) :
    get? k (modify k f t) = some (f x) := by simp [modify, h]

theorem get?_modify_other {k j : Nat} (h : j ≠ k) (f : α → α) (t : Tab α) : get? j (modify k f t) = get? j t := by
  unfold modify
  split
  · exact get?_put_other h _ _
  · rfl

theorem risingFrom_mono {lo lo' : Nat} (h : lo' ≤ lo) {t : Tab α} (ht : risingFrom lo t = true) : risingFrom lo' t = true := by
  cases t with
  | nil => rfl
  | cons e t =>
    obtain ⟨a, x⟩ := e
    simp only [risingFrom, Bool.and_eq_true, decide_eq_true_eq] at ht ⊢
    exact ⟨Nat.le_trans h ht.1, ht.2⟩

theorem risingFrom_del {k lo : Nat} {t : Tab α} (ht : risingFrom lo t = true) : risingFrom lo (del k t) = true := by
  induction t generalizing lo with
  | nil => rfl
  | cons e t ih =>
    obtain ⟨a, x⟩ := e
    simp only [risingFrom, Bool.and_eq_true, decide_eq_true_eq] at ht
    by_cases h : a = k
    · simp only [del, h, if_true]
      exact ih (risingFrom_mono (by omega) ht.2)
    · simp only [del, h, if_false, risingFrom, Bool.and_eq_true, decide_eq_true_eq]
      exact ⟨ht.1, ih ht.2⟩

theorem risingFrom_insert {k lo : Nat} {x : α} {t : Tab α} (hk : lo ≤ k) (hn : get? k t = none)
    (ht : risingFrom lo t = true) : risingFrom lo (insert k x t) = true := by
  induction t generalizing lo with
  | nil => simp [insert, risingFrom, hk]
  | cons e t ih =>
    obtain ⟨a, y⟩ := e
    simp only [get?] at hn
    by_cases ha : a = k
    · simp [ha] at hn
    · rw [if_neg ha] at hn
      simp only [risingFrom, Bool.and_eq_true, decide_eq_true_eq] at ht
      by_cases h : k < a
      · simp only [insert, h, if_true, risingFrom, Bool.and_eq_true, decide_eq_true_eq]
        exact ⟨hk, by omega, ht.2⟩
      · simp only [insert, h, if_false, risingFrom, Bool.and_eq_true, decide_eq_true_eq]
        exact ⟨ht.1, ih (by omega) hn ht.2⟩

theorem wf_put {k : Nat} {x : α} {t : Tab α} (ht : wf t = true) : wf (put k x t) = true :=
  risingFrom_insert (Nat.zero_le _) (get?_del_same k t) (risingFrom_del ht)

theorem wf_del {k : Nat} {t : Tab α} (ht : wf t = true) : wf (del k t) = true := risingFrom_del ht

theorem wf_modify {k : Nat} {f : α → α} {t : Tab α} (ht : wf t = true) : wf (modify k f t) = true := by
  unfold modify
  split
  · exact wf_put ht
  · exact ht

theorem all_del {p : Nat × α → Bool} {k : Nat} {t : Tab α} (h : t.all p = true) : (del k t).all p = true := by
  induction t with
  | nil => rfl
  | cons e t ih =>
    obtain ⟨a, x⟩ := e
    simp only [List.all_cons, Bool.and_eq_true] at h
    by_cases ha : a = k
    · simpa [del, ha] using ih h.2
    · simp [del, ha, h.1, ih h.2]

theorem all_insert {p : Nat × α → Bool} {k : Nat} {x : α} {t : Tab α} (hx : p (k, x) = true) (h : t.all p = true) :
    (insert k x t).all p = true := by
  induction t with
  | nil => simp [insert, hx]
  | cons e t ih =>
    obtain ⟨a, y⟩ := e
    simp only [List.all_cons, Bool.and_eq_true] at h
    by_cases ha : k < a
    · simp [insert, ha, hx, h.1, h.2]
    · simp [insert, ha, h.1, ih h.2]

end Tab

namespace Assoc
variable {n : Nat}

@[simp] theorem get_set_same (k : Nat) (x : BitVec n) (t : Assoc n) : get k (set k x t) = x := by
  unfold get set
  split
  · next h => rw [Tab.get?_del_same, h]; rfl
  · rw [Tab.get?_put_same]; rfl

theorem get_set_other {k j : Nat} (h : j ≠ k) (x : BitVec n) (t : Assoc n) : get j (set k x t) = get j t := by
  unfold get set
  split
  · rw [Tab.get?_del_other h]
  · rw [Tab.get?_put_other h]

theorem wf_set {k : Nat} {x : BitVec n} {t : Assoc n} (ht : wf t = true) : wf (set k x t) = true := by
  simp only [wf, Bool.and_eq_true] at ht ⊢
  unfold set
  split
  · exact ⟨Tab.wf_del ht.1, Tab.all_del ht.2⟩
  · next h => exact ⟨Tab.wf_put ht.1, Tab.all_insert (by simpa using h) (Tab.all_del ht.2)⟩

@[simp] theorem get_nil (k : Nat) : get k ([] : Assoc n) = 0#n := rfl

end Assoc

end Sys2Proof.Machine
end

