-- ==== Sys2Proof/Laws/Group.lean ====
section
/-! SUPPORT. Groups and their threads: what a change of some threads does to each of them, and what changing one group does to the table. -/
namespace Sys2Proof.Machine

/-! ### The table of groups -/

namespace Tab
variable {α : Type}

theorem del_insert_same (k : Nat) (x : α) (t : Tab α) : del k (insert k x t) = del k t := by
  induction t with
  | nil => simp [insert, del]
  | cons e t ih =>
    obtain ⟨a, y⟩ := e
    by_cases h : k < a
    · simp [insert, h, del]
    · by_cases ha : a = k <;> simp [insert, h, del, ha, ih]

theorem del_del_same (k : Nat) (t : Tab α) : del k (del k t) = del k t := by
  induction t with
  | nil => rfl
  | cons e t ih => obtain ⟨a, y⟩ := e; by_cases ha : a = k <;> simp [del, ha, ih]

@[simp] theorem put_put_same (k : Nat) (x y : α) (t : Tab α) : put k y (put k x t) = put k y t := by
  simp [put, del_insert_same, del_del_same]

theorem modify_of_get {k : Nat} {x : α} {t : Tab α} (h : get? k t = some x) (f : α → α) : modify k f t = put k (f x) t := by
  simp [modify, h]

end Tab

@[simp] theorem State.push_nil (s : State) : s.push [] = s := by simp [State.push]

@[simp] theorem State.group_push (s : State) (l : List Instr) (k : Nat) : (s.push l).group k = s.group k := rfl

theorem State.group_modGroup {s : State} {k : Nat} {g : Group} (h : s.group k = some g) (f : Group → Group) : (s.modGroup k f).group k = some (f g) :=
  Tab.get?_modify_same h

theorem State.group_modGroup_other {s : State} {k j : Nat} (h : j ≠ k) (f : Group → Group) : (s.modGroup k f).group j = s.group j :=
  Tab.get?_modify_other h f s.groups

/-- Changes of one group compose. -/
theorem State.modGroup_modGroup {s : State} {k : Nat} {g : Group} (h : s.group k = some g) (f f' : Group → Group) :
    (s.modGroup k f).modGroup k f' = s.modGroup k (fun _ => f' (f g)) := by
  have h2 := State.group_modGroup h f
  unfold State.group at h h2
  simp only [State.modGroup] at h2 ⊢
  rw [Tab.modify_of_get h2, Tab.modify_of_get h, Tab.modify_of_get h, Tab.put_put_same]

theorem State.modGroup_const {s : State} {k : Nat} {g : Group} (h : s.group k = some g) (f : Group → Group) :
    s.modGroup k f = s.modGroup k (fun _ => f g) := by
  unfold State.group at h
  simp only [State.modGroup, Tab.modify_of_get h]

theorem State.modGroup_push (s : State) (l : List Instr) (k : Nat) (f : Group → Group) : (s.push l).modGroup k f = (s.modGroup k f).push l := rfl

/-! ### Threads of a mask -/

theorem modFrom_length (m : Mask) (f : Nat → Thread → Thread) (i : Nat) (l : List Thread) : (modFrom m f i l).length = l.length := by
  induction l generalizing i with
  | nil => rfl
  | cons t ts ih => simp [modFrom, ih]

theorem modFrom_get (m : Mask) (f : Nat → Thread → Thread) (i k : Nat) (l : List Thread) :
    (modFrom m f i l)[k]? = l[k]?.map (fun t => if m.getLsbD (i + k) then f (i + k) t else t) := by
  induction l generalizing i k with
  | nil => simp [modFrom]
  | cons t ts ih =>
    cases k with
    | zero => simp [modFrom]
    | succ k => simp [modFrom, ih, Nat.add_assoc, Nat.add_comm 1]

@[simp] theorem Group.modLanes_st (g : Group) (m : Mask) (f : Nat → Thread → Thread) : (g.modLanes m f).st = g.st := rfl
@[simp] theorem Group.modLanes_place (g : Group) (m : Mask) (f : Nat → Thread → Thread) : (g.modLanes m f).place = g.place := rfl
@[simp] theorem Group.modLanes_regs (g : Group) (m : Mask) (f : Nat → Thread → Thread) : (g.modLanes m f).regs = g.regs := rfl
@[simp] theorem Group.modLanes_trap (g : Group) (m : Mask) (f : Nat → Thread → Thread) : (g.modLanes m f).trap = g.trap := rfl
@[simp] theorem Group.modLanes_flow (g : Group) (m : Mask) (f : Nat → Thread → Thread) : (g.modLanes m f).flow = g.flow := rfl
@[simp] theorem Group.modLanes_sched (g : Group) (m : Mask) (f : Nat → Thread → Thread) : (g.modLanes m f).sched = g.sched := rfl
@[simp] theorem Group.modLanes_convoy (g : Group) (m : Mask) (f : Nat → Thread → Thread) : (g.modLanes m f).convoy = g.convoy := rfl

@[simp] theorem Group.modLanes_size (g : Group) (m : Mask) (f : Nat → Thread → Thread) : (g.modLanes m f).threads.length = g.threads.length :=
  modFrom_length m f 0 g.threads

/-- A change of the threads of a mask, at one thread of the group. -/
theorem Group.thread_modLanes {g : Group} {L : Nat} (h : L < g.threads.length) (m : Mask) (f : Nat → Thread → Thread) :
    (g.modLanes m f).thread L = if m.getLsbD L then f L (g.thread L) else g.thread L := by
  simp [Group.thread, Group.modLanes, modFrom_get, List.getElem?_eq_getElem h]

/-- A change that moves no thread moves none, whether the group has it or not. -/
theorem Group.pc_modLanes (g : Group) (m : Mask) (f : Nat → Thread → Thread) (hf : ∀ i t, (f i t).pc = t.pc) (L : Nat) :
    ((g.modLanes m f).thread L).pc = (g.thread L).pc := by
  simp only [Group.thread, Group.modLanes, modFrom_get]
  cases g.threads[L]? with
  | none => rfl
  | some t => simp only [Option.map_some, Option.getD_some]; split <;> simp [hf]

theorem maskFrom_modFrom (m : Mask) (f : Nat → Thread → Thread) (p : Thread → Bool) (hp : ∀ i t, p (f i t) = p t) (i : Nat) (l : List Thread) :
    maskFrom p i (modFrom m f i l) = maskFrom p i l := by
  induction l generalizing i with
  | nil => rfl
  | cons t ts ih =>
    simp only [modFrom, maskFrom, ih]
    split <;> simp [hp]

/-- A change that leaves a property of threads alone leaves the threads that have it alone. -/
theorem Group.which_modLanes (g : Group) (m : Mask) (f : Nat → Thread → Thread) (p : Thread → Bool) (hp : ∀ i t, p (f i t) = p t) :
    (g.modLanes m f).which p = g.which p := maskFrom_modFrom m f p hp 0 g.threads

end Sys2Proof.Machine
end

