-- ==== Sys2Proof/Laws/Issue.lean ====
section
/-! SUPPORT. What the issue of an instruction comes to when no condition stops it. -/
namespace Sys2Proof.Machine

theorem firstStop_nil : firstStop [] = none := rfl
@[simp] theorem firstStop_none (l : List (Option Stop)) : firstStop (none :: l) = firstStop l := rfl

/-- Operands that may be read and written pass the checks most families share. -/
theorem firstStop_std {u : Use} {is : Issue} {sel : Sel} {g : Group} (h : OperandsOk g sel u) (hr : is.replay = none) : firstStop (stdChecks u is sel g) = none := by
  simp [stdChecks, hr, h.operands, h.hazard, h.poison, firstStop]

/-- A bundle that issues alone, with nothing unfinished before it, performs the instruction when no condition stops it and there is room. -/
theorem issue_performs {s : State} {is : Issue} {sel : Sel} {g : Group} {op : Op} (h : Issues s is sel g) (hc : firstStop (op.checks s is sel g) = none)
    (ht : op.turnsAway s sel g = none) (hi : op.instead s is sel g = none) :
    issue op s = .next { s.perform op is sel (capture is sel g op.use is.next) with issue := none } := by
  simp [issue, h.issuing, h.alone, State.issueOn, State.mergeRunOns, h.group, h.lanes, h.bank, bankReads, Op.leavesRunOn, h.runOn, Op.stopOf, hc, ht, hi]

theorem awaitsPeer_false {s : State} {is : Issue} {sel : Sel} {g : Group} (op : Op) (h : Issues s is sel g) : op.awaitsPeer s sel g = false := by
  simp only [Op.awaitsPeer, List.any_eq_false]
  intro w hw
  simp [h.peers w hw]

theorem awaitsSources_false {s : State} {is : Issue} {sel : Sel} {g : Group} (op : Op) (h : Issues s is sel g) : op.awaitsSources s sel g = false := by
  simp [Op.awaitsSources, h.kept]

/-- An instruction that is neither a memory instruction nor compared has room, and one of the uniform pipeline while no division runs there. -/
theorem turnsAway_none {s : State} {is : Issue} {sel : Sel} {g : Group} {op : Op} (h : Issues s is sel g) (hm : op.mem = false) (hc : op.compared = false)
    (hu : op.uniform = true → s.dividing sel.g g.partIndex = false) : op.turnsAway s sel g = none := by
  have hd : (op.uniform && s.dividing sel.g g.partIndex) = false := by
    cases h' : op.uniform
    · rfl
    · simpa using hu h'
  simp [Op.turnsAway, awaitsPeer_false op h, awaitsSources_false op h, hm, hc, hd]

/-- The group as issue leaves it: the segment write set, the restore flag at a marker, and parking. -/
def Group.retired (g : Group) (u : Use) (sw : Bool) (B : Mask) : Group :=
  let g := (g.closeSegment u sw B).noteMarker sw
  if sw then g.parkAt B else g

/-- Threads that stand at the same places stand together. -/
theorem Group.beside_congr {a b : Group} (h : ∀ K, (a.thread K).pc = (b.thread K).pc) (B : Mask) (L : Nat) : a.beside B L = b.beside B L := by
  simp [Group.beside, h]

theorem Group.closeSegment_pc (g : Group) (u : Use) (sw : Bool) (B : Mask) (L : Nat) : ((g.closeSegment u sw B).thread L).pc = (g.thread L).pc := by
  unfold Group.closeSegment
  apply Group.pc_modLanes
  intros; rfl

@[simp] theorem Group.noteMarker_thread (g : Group) (sw : Bool) (L : Nat) : (g.noteMarker sw).thread L = g.thread L := by cases sw <;> rfl

theorem Group.parkAt_pc (g : Group) (B : Mask) (L : Nat) : ((g.parkAt B).thread L).pc = (g.thread L).pc := by
  unfold Group.parkAt
  apply Group.pc_modLanes
  intros; split <;> rfl

@[simp] theorem Group.parkAt_flow (g : Group) (B : Mask) : (g.parkAt B).flow = g.flow := rfl
@[simp] theorem Group.parkAt_regs (g : Group) (B : Mask) : (g.parkAt B).regs = g.regs := rfl
@[simp] theorem Group.parkAt_size (g : Group) (B : Mask) : (g.parkAt B).threads.length = g.threads.length := by simp [Group.parkAt]

theorem Group.noteYounger_watch {g : Group} {B : Mask} (h : ∀ w ∈ g.flow.watch, w.2.bundle &&& B = 0#64) (n : Nat) (e : ReplayEntry) : g.noteYounger B n e = g := by
  have hw : g.flow.watch.map (fun (w : Nat × RunOn) =>
      if w.1 < n && w.2.bundle &&& B != 0 then (w.1, { w.2 with queue := w.2.queue ++ [{ e with done := e.mask }], younger := w.2.younger + 1 }) else w) = g.flow.watch := by
    conv => rhs; rw [← List.map_id g.flow.watch]
    apply List.map_congr_left
    intro w hm
    simp [h w hm]
  unfold Group.noteYounger
  rw [hw]

@[simp] theorem Group.closeSegment_flow (g : Group) (u : Use) (sw : Bool) (B : Mask) : (g.closeSegment u sw B).flow = g.flow := rfl
@[simp] theorem Group.closeSegment_regs (g : Group) (u : Use) (sw : Bool) (B : Mask) : (g.closeSegment u sw B).regs = g.regs := rfl
@[simp] theorem Group.noteMarker_flow (g : Group) (sw : Bool) : (g.noteMarker sw).flow = g.flow := by cases sw <;> rfl
@[simp] theorem Group.noteMarker_regs (g : Group) (sw : Bool) : (g.noteMarker sw).regs = g.regs := by cases sw <;> rfl
@[simp] theorem Group.noteMarker_threads (g : Group) (sw : Bool) : (g.noteMarker sw).threads = g.threads := by cases sw <;> rfl
@[simp] theorem Group.retired_flow (g : Group) (u : Use) (sw : Bool) (B : Mask) : (g.retired u sw B).flow = g.flow := by
  unfold Group.retired; dsimp only; split <;> simp
@[simp] theorem Group.retired_regs (g : Group) (u : Use) (sw : Bool) (B : Mask) : (g.retired u sw B).regs = g.regs := by
  unfold Group.retired; dsimp only; split <;> simp
@[simp] theorem Group.advance_flow {g : Group} (is : Issue) (sel : Sel) : (g.advance is sel).flow = g.flow := by unfold Group.advance; split <;> simp
@[simp] theorem Group.advance_regs {g : Group} (is : Issue) (sel : Sel) : (g.advance is sel).regs = g.regs := by unfold Group.advance; split <;> simp

@[simp] theorem Group.retired_beside (g : Group) (u : Use) (sw : Bool) (B M : Mask) (L : Nat) : (g.retired u sw B).beside M L = g.beside M L := by
  apply Group.beside_congr
  intro K
  unfold Group.retired
  dsimp only
  split <;> simp [Group.parkAt_pc, Group.closeSegment_pc]

/-- What is left of the effect when an instruction without a lane condition closes: the group retires, and its bundle parks at a marker. -/
theorem closeIssue_none {s : State} {op : Op} {is : Issue} {sel : Sel} {e : ReplayEntry} {g : Group} (hg : s.group sel.g = some g)
    (hr : g.runOn sel.bundle = none) :
    s.closeIssue op is sel e none = s.modGroup sel.g (fun _ => g.retired op.use op.sw sel.bundle) := by
  have hstep : ∀ (u : State) (x : Group) (e : ReplayEntry) (b : Bool), u.group sel.g = some x → x.flow = g.flow → u.stepRunOn sel.g sel.bundle e b = u := by
    intro u x e b hu hx
    have : x.runOn sel.bundle = none := by simpa [Group.runOn, hx] using hr
    simp [State.stepRunOn, hu, this]
  have key : (if op.sw then (s.modGroup sel.g (fun g => (g.closeSegment op.use op.sw sel.bundle).noteMarker op.sw)).park sel.g sel.bundle
      else s.modGroup sel.g (fun g => (g.closeSegment op.use op.sw sel.bundle).noteMarker op.sw)) = s.modGroup sel.g (fun _ => g.retired op.use op.sw sel.bundle) := by
    unfold Group.retired
    split
    · simp only [State.park, State.modGroup_modGroup hg]
    · exact State.modGroup_const hg _
  simp only [State.closeIssue, key]
  rw [hstep _ _ _ _ (State.group_modGroup hg _) (by simp), ite_self]

/-- Completions that are due `n` clocks after this one. -/
def State.laters (s : State) (n : Nat) (evs : List Instr) : State := { s with late := s.late ++ evs.map (fun i => (s.clocks + n + 1, i)) }

theorem State.laters_one (s : State) (n : Nat) (i : Instr) : s.later n i = s.laters n [i] := rfl
theorem State.laters_nil (s : State) (n : Nat) : s.laters n [] = s := by simp [State.laters]
theorem State.modGroup_laters (s : State) (n : Nat) (evs : List Instr) (gi : Nat) (f : Group → Group) :
    (s.laters n evs).modGroup gi f = (s.modGroup gi f).laters n evs := rfl
@[simp] theorem State.group_laters (s : State) (n : Nat) (evs : List Instr) (gi : Nat) : (s.laters n evs).group gi = s.group gi := rfl

/-- The effect `f` on the group after the bundle has moved on, as issue leaves it. -/
theorem perform_onGroup {s : State} {is : Issue} {sel : Sel} {g : Group} {op : Op} {e : ReplayEntry} (h : Issues s is sel g) (f : Group → Group)
    (n : Nat) (evs : List Instr)
    (he : ∀ s : State, s.group sel.g = some (g.advance is sel) → op.effect is sel e s = ((s.modGroup sel.g f).laters n evs, none))
    (hw : (f (g.advance is sel)).flow.watch = g.flow.watch) (hr : (f (g.advance is sel)).flow.runOns = g.flow.runOns) :
    s.perform op is sel e = (s.modGroup sel.g (fun _ => (f (g.advance is sel)).retired op.use op.sw sel.bundle)).laters n evs := by
  have ha := State.group_modGroup h.group (fun g => g.advance is sel)
  have hE := he _ ha
  have hmm := State.modGroup_modGroup h.group (fun g => g.advance is sel) f
  have hny : ∀ (n : Nat) (e : ReplayEntry), (f (g.advance is sel)).noteYounger sel.bundle n e = f (g.advance is sel) := by
    intro n e
    apply Group.noteYounger_watch
    rw [hw]; exact h.peers
  simp only [State.perform, hE, h.fresh, Option.isSome_none, Bool.false_eq_true, if_false]
  rw [State.modGroup_laters, hmm, State.modGroup_modGroup h.group]
  simp only [hny]
  have hg2 := State.group_modGroup h.group (fun _ => f (g.advance is sel))
  rw [closeIssue_none (g := f (g.advance is sel)) (by simpa using hg2) (by have := h.runOn; simp only [Group.runOn] at this ⊢; rw [hr]; exact this)]
  rw [State.modGroup_laters, State.modGroup_modGroup h.group]

/-! ### In the terms of the statements -/

@[simp] theorem Group.retired_size (g : Group) (u : Use) (sw : Bool) (B : Mask) : (g.retired u sw B).threads.length = g.threads.length := by
  unfold Group.retired; dsimp only; split <;> simp [Group.closeSegment, Group.parkAt]

@[simp] theorem Group.advance_size (g : Group) (is : Issue) (sel : Sel) : (g.advance is sel).threads.length = g.threads.length := by
  unfold Group.advance; split <;> simp

/-- One thread after issue has left the group: its registers and its PC are those the effect left. -/
theorem Group.thread_retired {g : Group} {L : Nat} (h : L < g.threads.length) (u : Use) (sw : Bool) (B : Mask) :
    (g.retired u sw B).thread L = { g.thread L with
      parked := (g.thread L).parked || (sw && g.pendingOn (g.beside B L) && B.getLsbD L)
      parkedWith := ((g.retired u sw B).thread L).parkedWith
      seg := ((g.retired u sw B).thread L).seg } := by
  obtain ⟨sg, hc⟩ : ∃ sg, ((g.closeSegment u sw B).noteMarker sw).thread L = { g.thread L with seg := sg } := by
    have : ((g.closeSegment u sw B).noteMarker sw).thread L = (g.closeSegment u sw B).thread L := by simp [Group.thread]
    rw [this]
    unfold Group.closeSegment
    dsimp only
    rw [Group.thread_modLanes h]
    split
    · exact ⟨_, rfl⟩
    · exact ⟨(g.thread L).seg, rfl⟩
  have hp : ∀ M, ((g.closeSegment u sw B).noteMarker sw).pendingOn M = g.pendingOn M := by intro M; simp [Group.pendingOn]
  have hb : ((g.closeSegment u sw B).noteMarker sw).beside B L = g.beside B L := by
    apply Group.beside_congr
    intro K
    simp [Group.closeSegment_pc]
  have hl : L < ((g.closeSegment u sw B).noteMarker sw).threads.length := by simpa [Group.closeSegment] using h
  unfold Group.retired
  dsimp only
  split
  · next hs =>
    unfold Group.parkAt
    rw [Group.thread_modLanes hl, hp, hb, hc]
    by_cases hB : B.getLsbD L = true
    · by_cases hq : g.pendingOn (g.beside B L) = true <;> simp [hB, hq, hs]
    · simp [hB, hs]
  · next hs =>
    simp only [Bool.not_eq_true] at hs
    rw [hc]
    simp [hs]

/-- A thread of the bundle after it has moved on. -/
theorem Group.thread_advance {g : Group} {is : Issue} {sel : Sel} {L : Nat} (h : L < g.threads.length) (hr : is.replay = none) :
    (g.advance is sel).thread L = { g.thread L with pc := if sel.bundle.getLsbD L then is.next else (g.thread L).pc } := by
  unfold Group.advance
  rw [hr]
  simp only [Option.isSome_none, Bool.false_eq_true, if_false]
  rw [Group.thread_modLanes h]
  split <;> rfl

/-- The issue of an instruction whose effect is `f` on the issuing group, and `evs` on a later clock. -/
theorem issue_onGroup {s : State} {is : Issue} {sel : Sel} {g : Group} {op : Op} (h : Issues s is sel g) (hc : firstStop (op.checks s is sel g) = none)
    (ht : op.turnsAway s sel g = none) (hi : op.instead s is sel g = none) (f : Group → Group) (n : Nat) (evs : List Instr)
    (he : ∀ s : State, s.group sel.g = some (g.advance is sel) →
      op.effect is sel (capture is sel g op.use is.next) s = ((s.modGroup sel.g f).laters n evs, none))
    (hk : f (g.advance is sel) = { g with threads := (f (g.advance is sel)).threads, regs := (f (g.advance is sel)).regs, flow := (f (g.advance is sel)).flow })
    (hw : (f (g.advance is sel)).flow.watch = g.flow.watch) (hr : (f (g.advance is sel)).flow.runOns = g.flow.runOns)
    (hl : (f (g.advance is sel)).threads.length = g.threads.length)
    (hp : ∀ L, L < g.threads.length → ((f (g.advance is sel)).thread L).parked = (g.thread L).parked) :
    ∃ t, issue op s = .next t ∧ Performed s t sel g ((f (g.advance is sel)).retired op.use op.sw sel.bundle) op.sw evs := by
  refine ⟨_, issue_performs h hc ht hi, ?_⟩
  rw [perform_onGroup h f n evs he hw hr]
  have hgp : ∀ (x : Group) (M : Mask), (x.retired op.use op.sw sel.bundle).pendingOn M = x.pendingOn M := by intro x M; simp [Group.pendingOn]
  constructor
  · simp [State.laters, State.modGroup]
  · exact State.group_modGroup h.group _
  · intro k hk'
    exact State.group_modGroup_other hk' _
  · have hst : ∀ (x : Group), x.retired op.use op.sw sel.bundle = { x with threads := (x.retired op.use op.sw sel.bundle).threads, sched := { x.sched with restore := !op.sw && x.sched.restore } } := by
      intro x
      unfold Group.retired Group.noteMarker
      dsimp only
      cases op.sw <;> simp [Group.closeSegment, Group.modLanes, Group.parkAt]
    rw [hst]
    simp only
    have hsc : (f (g.advance is sel)).sched = g.sched := by rw [hk]
    rw [hk]
  · simpa using hl
  · exact ⟨s.clocks + n + 1, by omega, by simp [State.laters]⟩
  · intro L hL
    rw [Group.thread_retired (by rw [hl]; exact hL), hgp, Group.retired_beside]
    simp [hp L hL]

end Sys2Proof.Machine
end

