-- ==== Sys2Proof/Laws/Memory.lean ====
section
/-! SUPPORT. The memory operations keep the canonical form of memory, and reset has it. -/
namespace Sys2Proof.Machine

/-- Keeping some entries of a table keeps its keys rising. -/
theorem Tab.risingFrom_filter {α : Type} (p : Nat × α → Bool) {lo : Nat} {t : Tab α} (h : Tab.risingFrom lo t = true) : Tab.risingFrom lo (t.filter p) = true := by
  induction t generalizing lo with
  | nil => rfl
  | cons e t ih =>
    obtain ⟨a, x⟩ := e
    simp only [Tab.risingFrom, Bool.and_eq_true, decide_eq_true_eq] at h
    by_cases hp : p (a, x) = true
    · rw [List.filter_cons_of_pos hp]
      simp only [Tab.risingFrom, Bool.and_eq_true, decide_eq_true_eq]
      exact ⟨h.1, ih h.2⟩
    · rw [List.filter_cons_of_neg hp]
      exact ih (Tab.risingFrom_mono (by omega) h.2)

/-- Keeping some entries of sparse words keeps their canonical form. -/
theorem Assoc.wf_filter {n : Nat} (p : Nat × BitVec n → Bool) {t : Assoc n} (h : Assoc.wf t = true) : Assoc.wf (t.filter p) = true := by
  simp only [Assoc.wf, Bool.and_eq_true, List.all_eq_true] at h ⊢
  exact ⟨Tab.risingFrom_filter p h.1, fun e he => h.2 e (List.mem_filter.mp he).1⟩

/-- Storing bytes keeps the canonical form. -/
theorem storeBytes_wf {m : Assoc 8} (h : Memory.wf m = true) (pa n x : Nat) : Memory.wf (storeBytes m pa n x) = true := by
  induction n generalizing m pa x with
  | zero => exact h
  | succ n ih => exact ih (Assoc.wf_set h) _ _

/-- A write to physical memory keeps the canonical form. -/
theorem State.writePhys_wf {s : State} (h : Memory.wf s.mem = true) (pa n x : Nat) : Memory.wf (s.writePhys pa n x).mem = true := storeBytes_wf h pa n x

/-- Clearing a range keeps the canonical form. -/
theorem State.clearPhys_wf {s : State} (h : Memory.wf s.mem = true) (pa n : Nat) : Memory.wf (s.clearPhys pa n).mem = true := Assoc.wf_filter _ h

/-- Cleaning sectors leaves memory alone. -/
@[simp] theorem State.cleanSectors_mem (s : State) (pa n : Nat) : (s.cleanSectors pa n).mem = s.mem := by
  unfold State.cleanSectors
  split <;> rfl

/-- Writing fields keeps the canonical form. -/
theorem State.writeFields_wf {s : State} (h : Memory.wf s.mem = true) (pa : Nat) (l : List Field) : Memory.wf (s.writeFields pa l).mem = true := by
  unfold State.writeFields
  induction l generalizing s with
  | nil => exact h
  | cons f l ih =>
    simp only [List.foldl_cons]
    split
    · exact ih (by rw [State.cleanSectors_mem]; exact State.clearPhys_wf h _ _)
    · exact ih (by rw [State.cleanSectors_mem]; exact State.writePhys_wf h _ _ _)

/-- A write through the caches keeps the canonical form. -/
theorem State.writeMem_wf {s : State} (h : Memory.wf s.mem = true) (pa n x : Nat) : Memory.wf (s.writeMem pa n x).mem = true := by
  unfold State.writeMem
  simp only []
  split
  · exact State.writePhys_wf h pa n x
  · exact State.writePhys_wf h pa n x

/-- Stores of lanes keep the canonical form. -/
theorem State.putStores_wf {s : State} (h : Memory.wf s.mem = true) (l : List LaneStore) : Memory.wf (s.putStores l).mem = true := by
  unfold State.putStores
  induction l generalizing s with
  | nil => exact h
  | cons w l ih => exact ih (State.writeMem_wf (s := s.hideCode w.pa w.size) h _ _ _)

/-- A module reset keeps the canonical form. -/
theorem State.moduleReset_wf {s : State} (h : Memory.wf s.mem = true) (rails : List Nat) (m : Bool) : Memory.wf (s.moduleReset rails m).mem = true := Assoc.wf_filter _ h

/-- A byte after stores of `n` bytes elsewhere reads as before. -/
theorem storeBytes_get_outside {m : Assoc 8} {pa n x a : Nat} (h : a < pa ∨ pa + n ≤ a) : Assoc.get a (storeBytes m pa n x) = Assoc.get a m := by
  induction n generalizing m pa x with
  | zero => rfl
  | succ n ih =>
    rw [storeBytes, ih (by omega), Assoc.get_set_other (by omega)]

/-- Memory at reset lists nothing. -/
theorem State.reset_mem : State.reset.mem = [] := rfl

end Sys2Proof.Machine
end

