-- ==== Sys2Proof/Laws/PerInstr.lean ====
section
/-! SUPPORT. Per-instruction laws. Shape: bit 0 of an encoding tells a halfword from a word (07 R206, R207). -/
namespace Sys2Proof.Laws

/-- Bit 0 under a last field of one bit. -/
theorem low_append {n : Nat} (x : BitVec n) (b : BitVec 1) : (x ++ b).getLsbD 0 = b.getLsbD 0 := by rw [BitVec.getLsbD_append]; rfl

/-- Bit 0 of a word. -/
theorem low_word (x : BitVec 31) : (x ++ 1#1 : BitVec 32).getLsbD 0 = true := low_append x 1#1

/-- Bit 0 of a halfword. -/
theorem low_half (x : BitVec 15) : (x ++ 0#1 : BitVec 16).getLsbD 0 = false := low_append x 0#1

namespace Shape

/-- A 16-bit encoding has bit 0 clear, a 32-bit one has it set; an event of the device has no encoding. -/
def Statement (i : Instr) : Prop :=
  match encode i with
  | .half h => h.getLsbD 0 = false
  | .word w => w.getLsbD 0 = true
  | .event => True

theorem trapqRead (g : Nat) (d : BitVec 8) : Statement (.trapqRead g d) := trivial
theorem slottotalRead (g : Nat) (d : BitVec 8) : Statement (.slottotalRead g d) := trivial
theorem trapqlenWrite (g : Nat) (x : BitVec 64) : Statement (.trapqlenWrite g x) := trivial
theorem ustatUsplitClear (g : Nat) : Statement (.ustatUsplitClear g) := trivial
theorem uimaskWrite (g : Nat) (x : BitVec 64) : Statement (.uimaskWrite g x) := trivial
theorem einjWrite (g : Nat) (x : BitVec 64) : Statement (.einjWrite g x) := trivial
theorem bundleUnpark (g : Nat) (m : BitVec 64) : Statement (.bundleUnpark g m) := trivial
theorem vectorWriteback (g : Nat) (id : Nat) (bad : BitVec 64) : Statement (.vectorWriteback g id bad) := trivial
theorem loadDataReturn (g : Nat) (id : Nat) : Statement (.loadDataReturn g id) := trivial
theorem ownershipArrival (id : Nat) : Statement (.ownershipArrival id) := trivial
theorem groupAgeingExpiry (g : Nat) : Statement (.groupAgeingExpiry g) := trivial
theorem bundleAgeingExpiry (g : Nat) (m : BitVec 64) : Statement (.bundleAgeingExpiry g m) := trivial
theorem fetchFault : Statement (.fetchFault) := trivial
theorem registerDeadlock (part : Nat) : Statement (.registerDeadlock part) := trivial
theorem counterSignal (ctx : Nat) (ctr : BitVec 12) : Statement (.counterSignal ctx ctr) := trivial
theorem blockDistribute (die : Nat) : Statement (.blockDistribute die) := trivial
theorem blockPlace (cluster : Nat) : Statement (.blockPlace cluster) := trivial
theorem blockResident (blk : Nat) : Statement (.blockResident blk) := trivial
theorem eviction (cluster : Nat) : Statement (.eviction cluster) := trivial
theorem mxEvictionStop (id : Nat) : Statement (.mxEvictionStop id) := trivial
theorem groupSaveComplete (g : Nat) : Statement (.groupSaveComplete g) := trivial
theorem blockSaveComplete (blk : Nat) : Statement (.blockSaveComplete blk) := trivial
theorem groupRestore (core : Nat) : Statement (.groupRestore core) := trivial
theorem restoreComplete (g : Nat) : Statement (.restoreComplete g) := trivial
theorem groupEnd (g : Nat) : Statement (.groupEnd g) := trivial
theorem blockEnd (blk : Nat) : Statement (.blockEnd blk) := trivial
theorem releasePerform (id : Nat) : Statement (.releasePerform id) := trivial
theorem closeConfirmation (core : Nat) (line : Nat) : Statement (.closeConfirmation core line) := trivial
theorem sequenceNumberArrival (id : Nat) : Statement (.sequenceNumberArrival id) := trivial
theorem stampArrival (core : Nat) (id : Nat) (stamp : BitVec 96) : Statement (.stampArrival core id stamp) := trivial
theorem reorderCheckerTimeout (core : Nat) (id : Nat) : Statement (.reorderCheckerTimeout core id) := trivial
theorem intervalRecordArrival (line : Nat) : Statement (.intervalRecordArrival line) := trivial
theorem coherenceCheckerTimeout (line : Nat) : Statement (.coherenceCheckerTimeout line) := trivial
theorem directoryRecall (line : Nat) : Statement (.directoryRecall line) := trivial
theorem l2LineEviction (line : Nat) : Statement (.l2LineEviction line) := trivial
theorem pageWalkComplete (die : Nat) (ctx : Nat) (page : Nat) : Statement (.pageWalkComplete die ctx page) := trivial
theorem tlbInvalidationComplete (ctx : Nat) (page : Nat) : Statement (.tlbInvalidationComplete ctx page) := trivial
theorem zeroEngineClear (page : Nat) : Statement (.zeroEngineClear page) := trivial
theorem generationAdvance (ctx : Nat) : Statement (.generationAdvance ctx) := trivial
theorem scaleFill (core : Nat) (tensor : BitVec 8) (line : Nat) : Statement (.scaleFill core tensor line) := trivial
theorem copyRecordStart (core : Nat) (ch : Nat) : Statement (.copyRecordStart core ch) := trivial
theorem copySegmentCredit (core : Nat) (ch : Nat) : Statement (.copySegmentCredit core ch) := trivial
theorem mxRendezvous (id : Nat) : Statement (.mxRendezvous id) := trivial
theorem gangTimeout (id : Nat) : Statement (.gangTimeout id) := trivial
theorem mxCompletion (id : Nat) (bad : List Nat) : Statement (.mxCompletion id bad) := trivial
theorem iterationDivergedTrap (g : Nat) : Statement (.iterationDivergedTrap g) := trivial
theorem interruptArrival (ctx : Nat) (v : BitVec 6) (x : BitVec 64) (kind : BitVec 2) (sender : BitVec 16) (dev : BitVec 16) : Statement (.interruptArrival ctx v x kind sender dev) := trivial
theorem svcRingAppend (g : Nat) : Statement (.svcRingAppend g) := trivial
theorem svcCallNull (g : Nat) : Statement (.svcCallNull g) := trivial
theorem svcCallAllocate (g : Nat) : Statement (.svcCallAllocate g) := trivial
theorem svcCallLog (g : Nat) : Statement (.svcCallLog g) := trivial
theorem svcCallExchangeBuffer (g : Nat) : Statement (.svcCallExchangeBuffer g) := trivial
theorem svcCallHost (g : Nat) : Statement (.svcCallHost g) := trivial
theorem svcCallReserved (g : Nat) : Statement (.svcCallReserved g) := trivial
theorem eventDisposition (seq : Nat) (disp : BitVec 8) : Statement (.eventDisposition seq disp) := trivial
theorem hostEventEntryWrite : Statement (.hostEventEntryWrite) := trivial
theorem convoyCompare (id : Nat) : Statement (.convoyCompare id) := trivial
theorem convoyTimeout (id : Nat) : Statement (.convoyTimeout id) := trivial
theorem convoyRetry (id : Nat) : Statement (.convoyRetry id) := trivial
theorem traceSample (core : Nat) : Statement (.traceSample core) := trivial
theorem tracePageRetry (core : Nat) : Statement (.tracePageRetry core) := trivial
theorem traceHoldTimeout (core : Nat) : Statement (.traceHoldTimeout core) := trivial
theorem patrolScrub (sector : Nat) : Statement (.patrolScrub sector) := trivial
theorem railOn (rail : Nat) : Statement (.railOn rail) := trivial
theorem perstDeassert : Statement (.perstDeassert) := trivial
theorem functionLevelReset : Statement (.functionLevelReset) := trivial
theorem powerSample (watts : Nat) (temp : Nat) : Statement (.powerSample watts temp) := trivial
theorem marginPlan (slacks : List (Nat × Int)) (hot : List Nat) : Statement (.marginPlan slacks hot) := trivial
theorem voltageStep (core : Nat) : Statement (.voltageStep core) := trivial
theorem skewMeasurement (offs : List (BitVec 64)) : Statement (.skewMeasurement offs) := trivial
theorem powerlimWrite (x : BitVec 64) : Statement (.powerlimWrite x) := trivial
theorem attestationGo (x : BitVec 64) : Statement (.attestationGo x) := trivial
theorem certificateChainRequest (x : BitVec 64) : Statement (.certificateChainRequest x) := trivial
theorem attestationReportDone : Statement (.attestationReportDone) := trivial
theorem firmwareRestore (x : BitVec 64) : Statement (.firmwareRestore x) := trivial
theorem firmwareRestoreDone : Statement (.firmwareRestoreDone) := trivial
theorem debugStop (x : BitVec 64) : Statement (.debugStop x) := trivial
theorem debugResume (x : BitVec 64) : Statement (.debugResume x) := trivial
theorem debugRefusedClear : Statement (.debugRefusedClear) := trivial
theorem bar0RegisterWrite (off : Nat) (x : BitVec 64) : Statement (.bar0RegisterWrite off x) := trivial
theorem mqtailWrite (q : Nat) (x : BitVec 64) : Statement (.mqtailWrite q x) := trivial
theorem mqctlEnable (q : Nat) (x : BitVec 64) : Statement (.mqctlEnable q x) := trivial
theorem mqHaltedClear (q : Nat) : Statement (.mqHaltedClear q) := trivial
theorem heqctlEnable (x : BitVec 64) : Statement (.heqctlEnable x) := trivial
theorem heqheadWrite (x : BitVec 64) : Statement (.heqheadWrite x) := trivial
theorem mailboxNop (q : Nat) : Statement (.mailboxNop q) := trivial
theorem mailboxWriteInline (q : Nat) : Statement (.mailboxWriteInline q) := trivial
theorem mailboxWriteBulk (q : Nat) : Statement (.mailboxWriteBulk q) := trivial
theorem mailboxRead (q : Nat) : Statement (.mailboxRead q) := trivial
theorem mailboxInterrupt (q : Nat) : Statement (.mailboxInterrupt q) := trivial
theorem mailboxTaskPost (q : Nat) : Statement (.mailboxTaskPost q) := trivial
theorem callReply (q : Nat) : Statement (.callReply q) := trivial
theorem mapPages (q : Nat) : Statement (.mapPages q) := trivial
theorem revoke (q : Nat) : Statement (.revoke q) := trivial
theorem revokeDrainComplete (id : Nat) : Statement (.revokeDrainComplete id) := trivial
theorem dispose (q : Nat) : Statement (.dispose q) := trivial
theorem exportEntry (q : Nat) : Statement (.exportEntry q) := trivial
theorem createContext (q : Nat) : Statement (.createContext q) := trivial
theorem destroyContext (q : Nat) : Statement (.destroyContext q) := trivial
theorem destroyDrainComplete (id : Nat) : Statement (.destroyDrainComplete id) := trivial
theorem traceControl (q : Nat) : Statement (.traceControl q) := trivial
theorem interruptConfiguration (q : Nat) : Statement (.interruptConfiguration q) := trivial
theorem hostSnoop (line : Nat) : Statement (.hostSnoop line) := trivial
theorem cxlPortFailure : Statement (.cxlPortFailure) := trivial
theorem cxlPortRecovery : Statement (.cxlPortRecovery) := trivial
theorem waylineRemoteAccess (dev : BitVec 16) (ctx : BitVec 16) (entry : BitVec 8) (off : BitVec 32) (op : BitVec 6) (size : Nat) (data : List (BitVec 32)) : Statement (.waylineRemoteAccess dev ctx entry off op size data) := trivial
theorem waylineAck (id : Nat) : Statement (.waylineAck id) := trivial
theorem remoteRefusal (id : Nat) : Statement (.remoteRefusal id) := trivial
theorem waylinePortDown (port : Nat) : Statement (.waylinePortDown port) := trivial
theorem waylinePortRetrained (port : Nat) : Statement (.waylinePortRetrained port) := trivial
theorem waylineRequestTimeout (id : Nat) : Statement (.waylineRequestTimeout id) := trivial
theorem routeTableChange (dev : Nat) (ports : BitVec 16) : Statement (.routeTableChange dev ports) := trivial
theorem reservedEncoding (w : BitVec 32) (reason : BitVec 4) : Statement (.reservedEncoding w reason) := trivial
theorem formatWindowWrite (n : Nat) (x : List (BitVec 64)) : Statement (.formatWindowWrite n x) := trivial
theorem cxlWriteAcknowledgement (id : Nat) : Statement (.cxlWriteAcknowledgement id) := trivial
theorem perstAssert : Statement (.perstAssert) := trivial
theorem railOff (rail : Nat) : Statement (.railOff rail) := trivial
theorem slotClassification (part : Nat) : Statement (.slotClassification part) := trivial
theorem mov16 (d : BitVec 5) (b : BitVec 5) (sw : Bool) : Statement (.mov16 d b sw) := low_half _
theorem iadd16 (d : BitVec 5) (b : BitVec 5) (sw : Bool) : Statement (.iadd16 d b sw) := low_half _
theorem isub16 (d : BitVec 5) (b : BitVec 5) (sw : Bool) : Statement (.isub16 d b sw) := low_half _
theorem imul16 (d : BitVec 5) (b : BitVec 5) (sw : Bool) : Statement (.imul16 d b sw) := low_half _
theorem and16 (d : BitVec 5) (b : BitVec 5) (sw : Bool) : Statement (.and16 d b sw) := low_half _
theorem or16 (d : BitVec 5) (b : BitVec 5) (sw : Bool) : Statement (.or16 d b sw) := low_half _
theorem xor16 (d : BitVec 5) (b : BitVec 5) (sw : Bool) : Statement (.xor16 d b sw) := low_half _
theorem shl16 (d : BitVec 5) (b : BitVec 5) (sw : Bool) : Statement (.shl16 d b sw) := low_half _
theorem shr16 (d : BitVec 5) (b : BitVec 5) (sw : Bool) : Statement (.shr16 d b sw) := low_half _
theorem sar16 (d : BitVec 5) (b : BitVec 5) (sw : Bool) : Statement (.sar16 d b sw) := low_half _
theorem imin16 (d : BitVec 5) (b : BitVec 5) (sw : Bool) : Statement (.imin16 d b sw) := low_half _
theorem imax16 (d : BitVec 5) (b : BitVec 5) (sw : Bool) : Statement (.imax16 d b sw) := low_half _
theorem fadd16 (d : BitVec 5) (b : BitVec 5) (sw : Bool) : Statement (.fadd16 d b sw) := low_half _
theorem fmul16 (d : BitVec 5) (b : BitVec 5) (sw : Bool) : Statement (.fmul16 d b sw) := low_half _
theorem fmin16 (d : BitVec 5) (b : BitVec 5) (sw : Bool) : Statement (.fmin16 d b sw) := low_half _
theorem fmax16 (d : BitVec 5) (b : BitVec 5) (sw : Bool) : Statement (.fmax16 d b sw) := low_half _
theorem iadd (d : BitVec 6) (a : BitVec 6) (p : BitVec 2) (b : BitVec 6) (q : BitVec 2) (sw : Bool) : Statement (.iadd d a p b q sw) := low_word _
theorem isub (d : BitVec 6) (a : BitVec 6) (p : BitVec 2) (b : BitVec 6) (q : BitVec 2) (sw : Bool) : Statement (.isub d a p b q sw) := low_word _
theorem imul (d : BitVec 6) (a : BitVec 6) (p : BitVec 2) (b : BitVec 6) (q : BitVec 2) (sw : Bool) : Statement (.imul d a p b q sw) := low_word _
theorem imulh (d : BitVec 6) (a : BitVec 6) (p : BitVec 2) (b : BitVec 6) (q : BitVec 2) (sw : Bool) : Statement (.imulh d a p b q sw) := low_word _
theorem imulhn (d : BitVec 6) (a : BitVec 6) (p : BitVec 2) (b : BitVec 6) (q : BitVec 2) (sw : Bool) : Statement (.imulhn d a p b q sw) := low_word _
theorem iaddsat (d : BitVec 6) (a : BitVec 6) (p : BitVec 2) (b : BitVec 6) (q : BitVec 2) (sw : Bool) : Statement (.iaddsat d a p b q sw) := low_word _
theorem isubsat (d : BitVec 6) (a : BitVec 6) (p : BitVec 2) (b : BitVec 6) (q : BitVec 2) (sw : Bool) : Statement (.isubsat d a p b q sw) := low_word _
theorem iaddmin (d : BitVec 6) (a : BitVec 6) (p : BitVec 2) (b : BitVec 6) (q : BitVec 2) (sw : Bool) : Statement (.iaddmin d a p b q sw) := low_word _
theorem vAnd (d : BitVec 6) (a : BitVec 6) (p : BitVec 2) (b : BitVec 6) (q : BitVec 2) (sw : Bool) : Statement (.vAnd d a p b q sw) := low_word _
theorem vOr (d : BitVec 6) (a : BitVec 6) (p : BitVec 2) (b : BitVec 6) (q : BitVec 2) (sw : Bool) : Statement (.vOr d a p b q sw) := low_word _
theorem vXor (d : BitVec 6) (a : BitVec 6) (p : BitVec 2) (b : BitVec 6) (q : BitVec 2) (sw : Bool) : Statement (.vXor d a p b q sw) := low_word _
theorem andn (d : BitVec 6) (a : BitVec 6) (p : BitVec 2) (b : BitVec 6) (q : BitVec 2) (sw : Bool) : Statement (.andn d a p b q sw) := low_word _
theorem shl (d : BitVec 6) (a : BitVec 6) (p : BitVec 2) (b : BitVec 6) (q : BitVec 2) (sw : Bool) : Statement (.shl d a p b q sw) := low_word _
theorem shr (d : BitVec 6) (a : BitVec 6) (p : BitVec 2) (b : BitVec 6) (q : BitVec 2) (sw : Bool) : Statement (.shr d a p b q sw) := low_word _
theorem sar (d : BitVec 6) (a : BitVec 6) (p : BitVec 2) (b : BitVec 6) (q : BitVec 2) (sw : Bool) : Statement (.sar d a p b q sw) := low_word _
theorem rotl (d : BitVec 6) (a : BitVec 6) (p : BitVec 2) (b : BitVec 6) (q : BitVec 2) (sw : Bool) : Statement (.rotl d a p b q sw) := low_word _
theorem imin (d : BitVec 6) (a : BitVec 6) (p : BitVec 2) (b : BitVec 6) (q : BitVec 2) (sw : Bool) : Statement (.imin d a p b q sw) := low_word _
theorem imax (d : BitVec 6) (a : BitVec 6) (p : BitVec 2) (b : BitVec 6) (q : BitVec 2) (sw : Bool) : Statement (.imax d a p b q sw) := low_word _
theorem nmin (d : BitVec 6) (a : BitVec 6) (p : BitVec 2) (b : BitVec 6) (q : BitVec 2) (sw : Bool) : Statement (.nmin d a p b q sw) := low_word _
theorem nmax (d : BitVec 6) (a : BitVec 6) (p : BitVec 2) (b : BitVec 6) (q : BitVec 2) (sw : Bool) : Statement (.nmax d a p b q sw) := low_word _
theorem fadd (d : BitVec 6) (a : BitVec 6) (p : BitVec 2) (b : BitVec 6) (q : BitVec 2) (sw : Bool) : Statement (.fadd d a p b q sw) := low_word _
theorem fsub (d : BitVec 6) (a : BitVec 6) (p : BitVec 2) (b : BitVec 6) (q : BitVec 2) (sw : Bool) : Statement (.fsub d a p b q sw) := low_word _
theorem fmul (d : BitVec 6) (a : BitVec 6) (p : BitVec 2) (b : BitVec 6) (q : BitVec 2) (sw : Bool) : Statement (.fmul d a p b q sw) := low_word _
theorem fmad (d : BitVec 6) (a : BitVec 6) (p : BitVec 2) (b : BitVec 6) (q : BitVec 2) (sw : Bool) : Statement (.fmad d a p b q sw) := low_word _
theorem fmin (d : BitVec 6) (a : BitVec 6) (p : BitVec 2) (b : BitVec 6) (q : BitVec 2) (sw : Bool) : Statement (.fmin d a p b q sw) := low_word _
theorem fmax (d : BitVec 6) (a : BitVec 6) (p : BitVec 2) (b : BitVec 6) (q : BitVec 2) (sw : Bool) : Statement (.fmax d a p b q sw) := low_word _
theorem faddmin (d : BitVec 6) (a : BitVec 6) (p : BitVec 2) (b : BitVec 6) (q : BitVec 2) (sw : Bool) : Statement (.faddmin d a p b q sw) := low_word _
theorem fscale (d : BitVec 6) (a : BitVec 6) (p : BitVec 2) (b : BitVec 6) (q : BitVec 2) (sw : Bool) : Statement (.fscale d a p b q sw) := low_word _
theorem dadd (d : BitVec 6) (a : BitVec 6) (p : BitVec 2) (b : BitVec 6) (q : BitVec 2) (sw : Bool) : Statement (.dadd d a p b q sw) := low_word _
theorem dmul (d : BitVec 6) (a : BitVec 6) (p : BitVec 2) (b : BitVec 6) (q : BitVec 2) (sw : Bool) : Statement (.dmul d a p b q sw) := low_word _
theorem dmad (d : BitVec 6) (a : BitVec 6) (p : BitVec 2) (b : BitVec 6) (q : BitVec 2) (sw : Bool) : Statement (.dmad d a p b q sw) := low_word _
theorem dmin (d : BitVec 6) (a : BitVec 6) (p : BitVec 2) (b : BitVec 6) (q : BitVec 2) (sw : Bool) : Statement (.dmin d a p b q sw) := low_word _
theorem bfadd2 (d : BitVec 6) (a : BitVec 6) (p : BitVec 2) (b : BitVec 6) (q : BitVec 2) (sw : Bool) : Statement (.bfadd2 d a p b q sw) := low_word _
theorem bfmul2 (d : BitVec 6) (a : BitVec 6) (p : BitVec 2) (b : BitVec 6) (q : BitVec 2) (sw : Bool) : Statement (.bfmul2 d a p b q sw) := low_word _
theorem bfmad2 (d : BitVec 6) (a : BitVec 6) (p : BitVec 2) (b : BitVec 6) (q : BitVec 2) (sw : Bool) : Statement (.bfmad2 d a p b q sw) := low_word _
theorem bfmax2 (d : BitVec 6) (a : BitVec 6) (p : BitVec 2) (b : BitVec 6) (q : BitVec 2) (sw : Bool) : Statement (.bfmax2 d a p b q sw) := low_word _
theorem hadd2 (d : BitVec 6) (a : BitVec 6) (p : BitVec 2) (b : BitVec 6) (q : BitVec 2) (sw : Bool) : Statement (.hadd2 d a p b q sw) := low_word _
theorem hmul2 (d : BitVec 6) (a : BitVec 6) (p : BitVec 2) (b : BitVec 6) (q : BitVec 2) (sw : Bool) : Statement (.hmul2 d a p b q sw) := low_word _
theorem hmad2 (d : BitVec 6) (a : BitVec 6) (p : BitVec 2) (b : BitVec 6) (q : BitVec 2) (sw : Bool) : Statement (.hmad2 d a p b q sw) := low_word _
theorem hmax2 (d : BitVec 6) (a : BitVec 6) (p : BitVec 2) (b : BitVec 6) (q : BitVec 2) (sw : Bool) : Statement (.hmax2 d a p b q sw) := low_word _
theorem iaddVs (d : BitVec 6) (a : BitVec 6) (p : BitVec 2) (u : BitVec 8) (sw : Bool) : Statement (.iaddVs d a p u sw) := low_word _
theorem isubVs (d : BitVec 6) (a : BitVec 6) (p : BitVec 2) (u : BitVec 8) (sw : Bool) : Statement (.isubVs d a p u sw) := low_word _
theorem imulVs (d : BitVec 6) (a : BitVec 6) (p : BitVec 2) (u : BitVec 8) (sw : Bool) : Statement (.imulVs d a p u sw) := low_word _
theorem iaddminVs (d : BitVec 6) (a : BitVec 6) (p : BitVec 2) (u : BitVec 8) (sw : Bool) : Statement (.iaddminVs d a p u sw) := low_word _
theorem andVs (d : BitVec 6) (a : BitVec 6) (p : BitVec 2) (u : BitVec 8) (sw : Bool) : Statement (.andVs d a p u sw) := low_word _
theorem orVs (d : BitVec 6) (a : BitVec 6) (p : BitVec 2) (u : BitVec 8) (sw : Bool) : Statement (.orVs d a p u sw) := low_word _
theorem xorVs (d : BitVec 6) (a : BitVec 6) (p : BitVec 2) (u : BitVec 8) (sw : Bool) : Statement (.xorVs d a p u sw) := low_word _
theorem shlVs (d : BitVec 6) (a : BitVec 6) (p : BitVec 2) (u : BitVec 8) (sw : Bool) : Statement (.shlVs d a p u sw) := low_word _
theorem shrVs (d : BitVec 6) (a : BitVec 6) (p : BitVec 2) (u : BitVec 8) (sw : Bool) : Statement (.shrVs d a p u sw) := low_word _
theorem sarVs (d : BitVec 6) (a : BitVec 6) (p : BitVec 2) (u : BitVec 8) (sw : Bool) : Statement (.sarVs d a p u sw) := low_word _
theorem iminVs (d : BitVec 6) (a : BitVec 6) (p : BitVec 2) (u : BitVec 8) (sw : Bool) : Statement (.iminVs d a p u sw) := low_word _
theorem imaxVs (d : BitVec 6) (a : BitVec 6) (p : BitVec 2) (u : BitVec 8) (sw : Bool) : Statement (.imaxVs d a p u sw) := low_word _
theorem faddVs (d : BitVec 6) (a : BitVec 6) (p : BitVec 2) (u : BitVec 8) (sw : Bool) : Statement (.faddVs d a p u sw) := low_word _
theorem fmulVs (d : BitVec 6) (a : BitVec 6) (p : BitVec 2) (u : BitVec 8) (sw : Bool) : Statement (.fmulVs d a p u sw) := low_word _
theorem fmadVs (d : BitVec 6) (a : BitVec 6) (p : BitVec 2) (u : BitVec 8) (sw : Bool) : Statement (.fmadVs d a p u sw) := low_word _
theorem faddminVs (d : BitVec 6) (a : BitVec 6) (p : BitVec 2) (u : BitVec 8) (sw : Bool) : Statement (.faddminVs d a p u sw) := low_word _
theorem iaddi (d : BitVec 6) (a : BitVec 6) (p : BitVec 2) (i : BitVec 10) (sw : Bool) : Statement (.iaddi d a p i sw) := low_word _
theorem andi (d : BitVec 6) (a : BitVec 6) (p : BitVec 2) (i : BitVec 10) (sw : Bool) : Statement (.andi d a p i sw) := low_word _
theorem ori (d : BitVec 6) (a : BitVec 6) (p : BitVec 2) (i : BitVec 10) (sw : Bool) : Statement (.ori d a p i sw) := low_word _
theorem xori (d : BitVec 6) (a : BitVec 6) (p : BitVec 2) (i : BitVec 10) (sw : Bool) : Statement (.xori d a p i sw) := low_word _
theorem shli (d : BitVec 6) (a : BitVec 6) (p : BitVec 2) (i : BitVec 5) (sw : Bool) : Statement (.shli d a p i sw) := low_word _
theorem shri (d : BitVec 6) (a : BitVec 6) (p : BitVec 2) (i : BitVec 5) (sw : Bool) : Statement (.shri d a p i sw) := low_word _
theorem sari (d : BitVec 6) (a : BitVec 6) (p : BitVec 2) (i : BitVec 5) (sw : Bool) : Statement (.sari d a p i sw) := low_word _
theorem pack2h (d : BitVec 6) (a : BitVec 6) (p : BitVec 2) (b : BitVec 6) (q : BitVec 2) (sw : Bool) : Statement (.pack2h d a p b q sw) := low_word _
theorem bperm (d : BitVec 6) (a : BitVec 6) (p : BitVec 2) (b : BitVec 6) (q : BitVec 2) (sw : Bool) : Statement (.bperm d a p b q sw) := low_word _
theorem fcopysign (d : BitVec 6) (a : BitVec 6) (p : BitVec 2) (b : BitVec 6) (q : BitVec 2) (sw : Bool) : Statement (.fcopysign d a p b q sw) := low_word _
theorem nabsdiff (d : BitVec 6) (a : BitVec 6) (p : BitVec 2) (b : BitVec 6) (q : BitVec 2) (sw : Bool) : Statement (.nabsdiff d a p b q sw) := low_word _
theorem ffma (d : BitVec 6) (a : BitVec 6) (b : BitVec 6) (c : BitVec 6) (sw : Bool) : Statement (.ffma d a b c sw) := low_word _
theorem imad (d : BitVec 6) (a : BitVec 6) (b : BitVec 6) (c : BitVec 6) (sw : Bool) : Statement (.imad d a b c sw) := low_word _
theorem sel (d : BitVec 6) (a : BitVec 6) (b : BitVec 6) (c : BitVec 3) (sw : Bool) : Statement (.sel d a b c sw) := low_word _
theorem bfe (d : BitVec 6) (a : BitVec 6) (b : BitVec 6) (c : BitVec 6) (sw : Bool) : Statement (.bfe d a b c sw) := low_word _
theorem bfi (d : BitVec 6) (a : BitVec 6) (b : BitVec 6) (c : BitVec 6) (sw : Bool) : Statement (.bfi d a b c sw) := low_word _
theorem mov (d : BitVec 6) (a : BitVec 6) (p : BitVec 2) (sw : Bool) : Statement (.mov d a p sw) := low_word _
theorem vNot (d : BitVec 6) (a : BitVec 6) (p : BitVec 2) (sw : Bool) : Statement (.vNot d a p sw) := low_word _
theorem ineg (d : BitVec 6) (a : BitVec 6) (p : BitVec 2) (sw : Bool) : Statement (.ineg d a p sw) := low_word _
theorem iabs (d : BitVec 6) (a : BitVec 6) (p : BitVec 2) (sw : Bool) : Statement (.iabs d a p sw) := low_word _
theorem clz (d : BitVec 6) (a : BitVec 6) (p : BitVec 2) (sw : Bool) : Statement (.clz d a p sw) := low_word _
theorem ctz (d : BitVec 6) (a : BitVec 6) (p : BitVec 2) (sw : Bool) : Statement (.ctz d a p sw) := low_word _
theorem popc (d : BitVec 6) (a : BitVec 6) (p : BitVec 2) (sw : Bool) : Statement (.popc d a p sw) := low_word _
theorem brev (d : BitVec 6) (a : BitVec 6) (p : BitVec 2) (sw : Bool) : Statement (.brev d a p sw) := low_word _
theorem fabs (d : BitVec 6) (a : BitVec 6) (p : BitVec 2) (sw : Bool) : Statement (.fabs d a p sw) := low_word _
theorem fneg (d : BitVec 6) (a : BitVec 6) (p : BitVec 2) (sw : Bool) : Statement (.fneg d a p sw) := low_word _
theorem frcp (d : BitVec 6) (a : BitVec 6) (p : BitVec 2) (sw : Bool) : Statement (.frcp d a p sw) := low_word _
theorem frsq (d : BitVec 6) (a : BitVec 6) (p : BitVec 2) (sw : Bool) : Statement (.frsq d a p sw) := low_word _
theorem fsqrt (d : BitVec 6) (a : BitVec 6) (p : BitVec 2) (sw : Bool) : Statement (.fsqrt d a p sw) := low_word _
theorem fexp2 (d : BitVec 6) (a : BitVec 6) (p : BitVec 2) (sw : Bool) : Statement (.fexp2 d a p sw) := low_word _
theorem flog2 (d : BitVec 6) (a : BitVec 6) (p : BitVec 2) (sw : Bool) : Statement (.flog2 d a p sw) := low_word _
theorem fsin (d : BitVec 6) (a : BitVec 6) (p : BitVec 2) (sw : Bool) : Statement (.fsin d a p sw) := low_word _
theorem fcos (d : BitVec 6) (a : BitVec 6) (p : BitVec 2) (sw : Bool) : Statement (.fcos d a p sw) := low_word _
theorem fround (d : BitVec 6) (a : BitVec 6) (p : BitVec 2) (r : BitVec 2) (sw : Bool) : Statement (.fround d a p r sw) := low_word _
theorem ffract (d : BitVec 6) (a : BitVec 6) (p : BitVec 2) (sw : Bool) : Statement (.ffract d a p sw) := low_word _
theorem fclass (d : BitVec 6) (a : BitVec 6) (p : BitVec 2) (sw : Bool) : Statement (.fclass d a p sw) := low_word _
theorem cvt (d : BitVec 6) (a : BitVec 6) (p : BitVec 2) (f : BitVec 4) (e : BitVec 4) (r : BitVec 2) (sw : Bool) : Statement (.cvt d a p f e r sw) := low_word _
theorem movi (d : BitVec 6) (i : BitVec 16) (sw : Bool) : Statement (.movi d i sw) := low_word _
theorem movhi (d : BitVec 6) (i : BitVec 16) (sw : Bool) : Statement (.movhi d i sw) := low_word _
theorem movf (d : BitVec 6) (i : BitVec 16) (sw : Bool) : Statement (.movf d i sw) := low_word _
theorem vredAddS32 (v : BitVec 6) (u : BitVec 8) (p : BitVec 2) (sw : Bool) : Statement (.vredAddS32 v u p sw) := low_word _
theorem vredAddF32 (v : BitVec 6) (u : BitVec 8) (p : BitVec 2) (sw : Bool) : Statement (.vredAddF32 v u p sw) := low_word _
theorem vredMinS32 (v : BitVec 6) (u : BitVec 8) (p : BitVec 2) (sw : Bool) : Statement (.vredMinS32 v u p sw) := low_word _
theorem vredMaxS32 (v : BitVec 6) (u : BitVec 8) (p : BitVec 2) (sw : Bool) : Statement (.vredMaxS32 v u p sw) := low_word _
theorem vredMinB32 (v : BitVec 6) (u : BitVec 8) (p : BitVec 2) (sw : Bool) : Statement (.vredMinB32 v u p sw) := low_word _
theorem vredMaxB32 (v : BitVec 6) (u : BitVec 8) (p : BitVec 2) (sw : Bool) : Statement (.vredMaxB32 v u p sw) := low_word _
theorem vredMinF32 (v : BitVec 6) (u : BitVec 8) (p : BitVec 2) (sw : Bool) : Statement (.vredMinF32 v u p sw) := low_word _
theorem vredMaxF32 (v : BitVec 6) (u : BitVec 8) (p : BitVec 2) (sw : Bool) : Statement (.vredMaxF32 v u p sw) := low_word _
theorem vredAnd (v : BitVec 6) (u : BitVec 8) (p : BitVec 2) (sw : Bool) : Statement (.vredAnd v u p sw) := low_word _
theorem vredOr (v : BitVec 6) (u : BitVec 8) (p : BitVec 2) (sw : Bool) : Statement (.vredOr v u p sw) := low_word _
theorem vredXor (v : BitVec 6) (u : BitVec 8) (p : BitVec 2) (sw : Bool) : Statement (.vredXor v u p sw) := low_word _
theorem rdlane (v : BitVec 6) (u : BitVec 8) (sw : Bool) : Statement (.rdlane v u sw) := low_word _
theorem bcast (v : BitVec 6) (u : BitVec 8) (sw : Bool) : Statement (.bcast v u sw) := low_word _
theorem bcastd (v : BitVec 6) (u : BitVec 8) (sw : Bool) : Statement (.bcastd v u sw) := low_word _
theorem permSet (v : BitVec 6) (u : BitVec 8) (sw : Bool) : Statement (.permSet v u sw) := low_word _
theorem bxEnc8 (v : BitVec 6) (u : BitVec 8) (p : BitVec 2) (sw : Bool) : Statement (.bxEnc8 v u p sw) := low_word _
theorem bxEnc4 (v : BitVec 6) (u : BitVec 8) (p : BitVec 2) (sw : Bool) : Statement (.bxEnc4 v u p sw) := low_word _
theorem bxDec8 (v : BitVec 6) (p : BitVec 2) (sw : Bool) : Statement (.bxDec8 v p sw) := low_word _
theorem bxDec4 (v : BitVec 6) (p : BitVec 2) (sw : Bool) : Statement (.bxDec4 v p sw) := low_word _
theorem vscanAddS32 (d : BitVec 6) (a : BitVec 6) (p : BitVec 2) (e : BitVec 1) (sw : Bool) : Statement (.vscanAddS32 d a p e sw) := low_word _
theorem vscanAddF32 (d : BitVec 6) (a : BitVec 6) (p : BitVec 2) (e : BitVec 1) (sw : Bool) : Statement (.vscanAddF32 d a p e sw) := low_word _
theorem vscanMinS32 (d : BitVec 6) (a : BitVec 6) (p : BitVec 2) (e : BitVec 1) (sw : Bool) : Statement (.vscanMinS32 d a p e sw) := low_word _
theorem vscanMaxS32 (d : BitVec 6) (a : BitVec 6) (p : BitVec 2) (e : BitVec 1) (sw : Bool) : Statement (.vscanMaxS32 d a p e sw) := low_word _
theorem vscanMinF32 (d : BitVec 6) (a : BitVec 6) (p : BitVec 2) (e : BitVec 1) (sw : Bool) : Statement (.vscanMinF32 d a p e sw) := low_word _
theorem vscanMaxF32 (d : BitVec 6) (a : BitVec 6) (p : BitVec 2) (e : BitVec 1) (sw : Bool) : Statement (.vscanMaxF32 d a p e sw) := low_word _
theorem icmp (d : BitVec 3) (c : BitVec 3) (a : BitVec 6) (p : BitVec 2) (b : BitVec 6) (q : BitVec 2) (t : BitVec 1) (sw : Bool) : Statement (.icmp d c a p b q t sw) := low_word _
theorem fcmp (d : BitVec 3) (c : BitVec 3) (a : BitVec 6) (p : BitVec 2) (b : BitVec 6) (q : BitVec 2) (sw : Bool) : Statement (.fcmp d c a p b q sw) := low_word _
theorem pand (d : BitVec 3) (p : BitVec 3) (q : BitVec 3) (sw : Bool) : Statement (.pand d p q sw) := low_word _
theorem por (d : BitVec 3) (p : BitVec 3) (q : BitVec 3) (sw : Bool) : Statement (.por d p q sw) := low_word _
theorem pxor (d : BitVec 3) (p : BitVec 3) (q : BitVec 3) (sw : Bool) : Statement (.pxor d p q sw) := low_word _
theorem pandn (d : BitVec 3) (p : BitVec 3) (q : BitVec 3) (sw : Bool) : Statement (.pandn d p q sw) := low_word _
theorem pnot (d : BitVec 3) (p : BitVec 3) (sw : Bool) : Statement (.pnot d p sw) := low_word _
theorem pmov (d : BitVec 3) (p : BitVec 3) (sw : Bool) : Statement (.pmov d p sw) := low_word _
theorem voteAny (d : BitVec 3) (p : BitVec 3) (sw : Bool) : Statement (.voteAny d p sw) := low_word _
theorem voteAll (d : BitVec 3) (p : BitVec 3) (sw : Bool) : Statement (.voteAll d p sw) := low_word _
theorem ballot (p : BitVec 3) (u : BitVec 8) (sw : Bool) : Statement (.ballot p u sw) := low_word _
theorem bra (o : BitVec 18) (sw : Bool) : Statement (.bra o sw) := low_word _
theorem brp (p : BitVec 3) (n : BitVec 1) (o : BitVec 18) (sw : Bool) : Statement (.brp p n o sw) := low_word _
theorem call (o : BitVec 18) (sw : Bool) : Statement (.call o sw) := low_word _
theorem sBra (o : BitVec 14) (sw : Bool) : Statement (.sBra o sw) := low_word _
theorem sBrz (u : BitVec 8) (o : BitVec 14) (sw : Bool) : Statement (.sBrz u o sw) := low_word _
theorem sBrnz (u : BitVec 8) (o : BitVec 14) (sw : Bool) : Statement (.sBrnz u o sw) := low_word _
theorem sBrlt (u : BitVec 8) (o : BitVec 14) (sw : Bool) : Statement (.sBrlt u o sw) := low_word _
theorem nop (sw : Bool) : Statement (.nop sw) := low_word _
theorem ret (sw : Bool) : Statement (.ret sw) := low_word _
theorem jmp (a : BitVec 6) (sw : Bool) : Statement (.jmp a sw) := low_word _
theorem exit (sw : Bool) : Statement (.exit sw) := low_word _
theorem yield (sw : Bool) : Statement (.yield sw) := low_word _
theorem gbar (sw : Bool) : Statement (.gbar sw) := low_word _
theorem brk (c : BitVec 8) (sw : Bool) : Statement (.brk c sw) := low_word _
theorem rdlnk (a : BitVec 6) (sw : Bool) : Statement (.rdlnk a sw) := low_word _
theorem wrlnk (a : BitVec 6) (sw : Bool) : Statement (.wrlnk a sw) := low_word _
theorem sMov (d : BitVec 8) (b : BitVec 8) (sw : Bool) : Statement (.sMov d b sw) := low_word _
theorem sAdd (d : BitVec 8) (b : BitVec 8) (sw : Bool) : Statement (.sAdd d b sw) := low_word _
theorem sSub (d : BitVec 8) (b : BitVec 8) (sw : Bool) : Statement (.sSub d b sw) := low_word _
theorem sMul (d : BitVec 8) (b : BitVec 8) (sw : Bool) : Statement (.sMul d b sw) := low_word _
theorem sMulh (d : BitVec 8) (b : BitVec 8) (sw : Bool) : Statement (.sMulh d b sw) := low_word _
theorem sMulhn (d : BitVec 8) (b : BitVec 8) (sw : Bool) : Statement (.sMulhn d b sw) := low_word _
theorem sAnd (d : BitVec 8) (b : BitVec 8) (sw : Bool) : Statement (.sAnd d b sw) := low_word _
theorem sOr (d : BitVec 8) (b : BitVec 8) (sw : Bool) : Statement (.sOr d b sw) := low_word _
theorem sXor (d : BitVec 8) (b : BitVec 8) (sw : Bool) : Statement (.sXor d b sw) := low_word _
theorem sShl (d : BitVec 8) (b : BitVec 8) (sw : Bool) : Statement (.sShl d b sw) := low_word _
theorem sShr (d : BitVec 8) (b : BitVec 8) (sw : Bool) : Statement (.sShr d b sw) := low_word _
theorem sSar (d : BitVec 8) (b : BitVec 8) (sw : Bool) : Statement (.sSar d b sw) := low_word _
theorem sMin (d : BitVec 8) (b : BitVec 8) (sw : Bool) : Statement (.sMin d b sw) := low_word _
theorem sMax (d : BitVec 8) (b : BitVec 8) (sw : Bool) : Statement (.sMax d b sw) := low_word _
theorem sNmin (d : BitVec 8) (b : BitVec 8) (sw : Bool) : Statement (.sNmin d b sw) := low_word _
theorem sNmax (d : BitVec 8) (b : BitVec 8) (sw : Bool) : Statement (.sNmax d b sw) := low_word _
theorem sSlt (d : BitVec 8) (b : BitVec 8) (sw : Bool) : Statement (.sSlt d b sw) := low_word _
theorem sSltn (d : BitVec 8) (b : BitVec 8) (sw : Bool) : Statement (.sSltn d b sw) := low_word _
theorem sSeq (d : BitVec 8) (b : BitVec 8) (sw : Bool) : Statement (.sSeq d b sw) := low_word _
theorem sNot (d : BitVec 8) (b : BitVec 8) (sw : Bool) : Statement (.sNot d b sw) := low_word _
theorem sNeg (d : BitVec 8) (b : BitVec 8) (sw : Bool) : Statement (.sNeg d b sw) := low_word _
theorem sClz (d : BitVec 8) (b : BitVec 8) (sw : Bool) : Statement (.sClz d b sw) := low_word _
theorem sPopc (d : BitVec 8) (b : BitVec 8) (sw : Bool) : Statement (.sPopc d b sw) := low_word _
theorem sDivn (d : BitVec 8) (b : BitVec 8) (sw : Bool) : Statement (.sDivn d b sw) := low_word _
theorem sRemn (d : BitVec 8) (b : BitVec 8) (sw : Bool) : Statement (.sRemn d b sw) := low_word _
theorem sFadd (d : BitVec 8) (b : BitVec 8) (sw : Bool) : Statement (.sFadd d b sw) := low_word _
theorem sFmul (d : BitVec 8) (b : BitVec 8) (sw : Bool) : Statement (.sFmul d b sw) := low_word _
theorem sAddi (d : BitVec 8) (i : BitVec 12) (sw : Bool) : Statement (.sAddi d i sw) := low_word _
theorem sAndi (d : BitVec 8) (i : BitVec 12) (sw : Bool) : Statement (.sAndi d i sw) := low_word _
theorem sOri (d : BitVec 8) (i : BitVec 12) (sw : Bool) : Statement (.sOri d i sw) := low_word _
theorem sXori (d : BitVec 8) (i : BitVec 12) (sw : Bool) : Statement (.sXori d i sw) := low_word _
theorem sShli (d : BitVec 8) (i : BitVec 6) (sw : Bool) : Statement (.sShli d i sw) := low_word _
theorem sShri (d : BitVec 8) (i : BitVec 6) (sw : Bool) : Statement (.sShri d i sw) := low_word _
theorem sSari (d : BitVec 8) (i : BitVec 6) (sw : Bool) : Statement (.sSari d i sw) := low_word _
theorem sSlti (d : BitVec 8) (i : BitVec 12) (sw : Bool) : Statement (.sSlti d i sw) := low_word _
theorem sMuli (d : BitVec 8) (i : BitVec 12) (sw : Bool) : Statement (.sMuli d i sw) := low_word _
theorem sLi (d : BitVec 8) (i : BitVec 16) (sw : Bool) : Statement (.sLi d i sw) := low_word _
theorem sLih (d : BitVec 8) (i : BitVec 16) (sw : Bool) : Statement (.sLih d i sw) := low_word _
theorem cpyKick (d : BitVec 8) (a : BitVec 8) (sw : Bool) : Statement (.cpyKick d a sw) := low_word _
theorem cpyStage (sw : Bool) : Statement (.cpyStage sw) := low_word _
theorem cpyWp (d : BitVec 8) (c : BitVec 3) (sw : Bool) : Statement (.cpyWp d c sw) := low_word _
theorem cpyCancel (d : BitVec 8) (sw : Bool) : Statement (.cpyCancel d sw) := low_word _
theorem taskPost (a : BitVec 8) (sw : Bool) : Statement (.taskPost a sw) := low_word _
theorem taskSig (a : BitVec 8) (sw : Bool) : Statement (.taskSig a sw) := low_word _
theorem gangSet (a : BitVec 8) (sw : Bool) : Statement (.gangSet a sw) := low_word _
theorem gangGet (d : BitVec 8) (sw : Bool) : Statement (.gangGet d sw) := low_word _
theorem xregAcq (x : BitVec 3) (sw : Bool) : Statement (.xregAcq x sw) := low_word _
theorem xregRel (sw : Bool) : Statement (.xregRel sw) := low_word _
theorem xregTry (d : BitVec 8) (x : BitVec 3) (sw : Bool) : Statement (.xregTry d x sw) := low_word _
theorem genPass (sw : Bool) : Statement (.genPass sw) := low_word _
theorem genCur (d : BitVec 8) (sw : Bool) : Statement (.genCur d sw) := low_word _
theorem kset (k : BitVec 4) (a : BitVec 8) (sw : Bool) : Statement (.kset k a sw) := low_word _
theorem kget (d : BitVec 8) (k : BitVec 4) (sw : Bool) : Statement (.kget d k sw) := low_word _
theorem scopeSet (i : BitVec 5) (q : BitVec 2) (sw : Bool) : Statement (.scopeSet i q sw) := low_word _
theorem uirqSend (d : BitVec 8) (a : BitVec 8) (sw : Bool) : Statement (.uirqSend d a sw) := low_word _
theorem uirqWait (sw : Bool) : Statement (.uirqWait sw) := low_word _
theorem uirqTake (d : BitVec 8) (sw : Bool) : Statement (.uirqTake d sw) := low_word _
theorem uirqMask (d : BitVec 8) (a : BitVec 8) (sw : Bool) : Statement (.uirqMask d a sw) := low_word _
theorem uirqPend (d : BitVec 8) (sw : Bool) : Statement (.uirqPend d sw) := low_word _
theorem uirqDone (a : BitVec 8) (sw : Bool) : Statement (.uirqDone a sw) := low_word _
theorem svc (n : BitVec 8) (sw : Bool) : Statement (.svc n sw) := low_word _
theorem trap (c : BitVec 8) (sw : Bool) : Statement (.trap c sw) := low_word _
theorem rett (sw : Bool) : Statement (.rett sw) := low_word _
theorem tmask (sw : Bool) : Statement (.tmask sw) := low_word _
theorem tunmask (sw : Bool) : Statement (.tunmask sw) := low_word _
theorem rdsr (r : BitVec 11) (d : BitVec 8) (sw : Bool) : Statement (.rdsr r d sw) := low_word _
theorem wrsr (r : BitVec 11) (d : BitVec 8) (sw : Bool) : Statement (.wrsr r d sw) := low_word _
theorem ckpt (sw : Bool) : Statement (.ckpt sw) := low_word _
theorem profMark (a : BitVec 8) (sw : Bool) : Statement (.profMark a sw) := low_word _
theorem ld (d : BitVec 6) (a : BitVec 6) (w : BitVec 3) (o : BitVec 9) (sw : Bool) : Statement (.ld d a w o sw) := low_word _
theorem st (b : BitVec 6) (a : BitVec 6) (w : BitVec 3) (o : BitVec 9) (sw : Bool) : Statement (.st b a w o sw) := low_word _
theorem lds (d : BitVec 6) (a : BitVec 6) (w : BitVec 3) (o : BitVec 9) (sw : Bool) : Statement (.lds d a w o sw) := low_word _
theorem sts (b : BitVec 6) (a : BitVec 6) (w : BitVec 3) (o : BitVec 9) (sw : Bool) : Statement (.sts b a w o sw) := low_word _
theorem ldAcq (d : BitVec 6) (a : BitVec 6) (w : BitVec 3) (q : BitVec 2) (o : BitVec 6) (sw : Bool) : Statement (.ldAcq d a w q o sw) := low_word _
theorem ldCon (d : BitVec 6) (a : BitVec 6) (w : BitVec 3) (q : BitVec 2) (o : BitVec 6) (sw : Bool) : Statement (.ldCon d a w q o sw) := low_word _
theorem stRel (b : BitVec 6) (a : BitVec 6) (w : BitVec 3) (q : BitVec 2) (o : BitVec 6) (sw : Bool) : Statement (.stRel b a w q o sw) := low_word _
theorem sLd (d : BitVec 8) (a : BitVec 8) (o : BitVec 8) (sw : Bool) : Statement (.sLd d a o sw) := low_word _
theorem sSt (d : BitVec 8) (a : BitVec 8) (o : BitVec 8) (sw : Bool) : Statement (.sSt d a o sw) := low_word _
theorem atom (d : BitVec 6) (a : BitVec 6) (b : BitVec 6) (o : BitVec 4) (sw : Bool) : Statement (.atom d a b o sw) := low_word _
theorem atomAcq (d : BitVec 6) (a : BitVec 6) (b : BitVec 6) (o : BitVec 4) (q : BitVec 2) (sw : Bool) : Statement (.atomAcq d a b o q sw) := low_word _
theorem atomRel (d : BitVec 6) (a : BitVec 6) (b : BitVec 6) (o : BitVec 4) (q : BitVec 2) (sw : Bool) : Statement (.atomRel d a b o q sw) := low_word _
theorem atomAr (d : BitVec 6) (a : BitVec 6) (b : BitVec 6) (o : BitVec 4) (q : BitVec 2) (sw : Bool) : Statement (.atomAr d a b o q sw) := low_word _
theorem red (r : BitVec 1) (a : BitVec 6) (b : BitVec 6) (o : BitVec 4) (q : BitVec 2) (sw : Bool) : Statement (.red r a b o q sw) := low_word _
theorem fence (e : BitVec 5) (k : BitVec 2) (sw : Bool) : Statement (.fence e k sw) := low_word _
theorem barInit (a : BitVec 8) (b : BitVec 8) (sw : Bool) : Statement (.barInit a b sw) := low_word _
theorem barArrive (a : BitVec 8) (b : BitVec 8) (sw : Bool) : Statement (.barArrive a b sw) := low_word _
theorem barExpect (a : BitVec 8) (b : BitVec 8) (sw : Bool) : Statement (.barExpect a b sw) := low_word _
theorem barWait (a : BitVec 8) (b : BitVec 8) (sw : Bool) : Statement (.barWait a b sw) := low_word _
theorem barTest (a : BitVec 8) (b : BitVec 8) (p : BitVec 3) (sw : Bool) : Statement (.barTest a b p sw) := low_word _
theorem barStat (a : BitVec 8) (b : BitVec 8) (sw : Bool) : Statement (.barStat a b sw) := low_word _
theorem bsync (sw : Bool) : Statement (.bsync sw) := low_word _
theorem cacheWb (a : BitVec 8) (b : BitVec 8) (x : BitVec 3) (sw : Bool) : Statement (.cacheWb a b x sw) := low_word _
theorem cacheInv (a : BitVec 8) (b : BitVec 8) (x : BitVec 3) (sw : Bool) : Statement (.cacheInv a b x sw) := low_word _
theorem cachePf (a : BitVec 8) (b : BitVec 8) (sw : Bool) : Statement (.cachePf a b sw) := low_word _
theorem cachePf2 (a : BitVec 8) (b : BitVec 8) (sw : Bool) : Statement (.cachePf2 a b sw) := low_word _
theorem mma (d : BitVec 8) (a : BitVec 6) (b : BitVec 6) (sw : Bool) : Statement (.mma d a b sw) := low_word _
theorem mmaZ (d : BitVec 8) (a : BitVec 6) (b : BitVec 6) (sw : Bool) : Statement (.mmaZ d a b sw) := low_word _
theorem mmaS (d : BitVec 8) (b : BitVec 6) (sw : Bool) : Statement (.mmaS d b sw) := low_word _
theorem mmaF (d : BitVec 8) (b : BitVec 6) (sw : Bool) : Statement (.mmaF d b sw) := low_word _
theorem mpoly (d : BitVec 8) (sw : Bool) : Statement (.mpoly d sw) := low_word _
theorem miter (d : BitVec 8) (sw : Bool) : Statement (.miter d sw) := low_word _
theorem accZero (d : BitVec 8) (sw : Bool) : Statement (.accZero d sw) := low_word _
theorem accScale (d : BitVec 8) (sw : Bool) : Statement (.accScale d sw) := low_word _
theorem accAdd (d : BitVec 8) (sw : Bool) : Statement (.accAdd d sw) := low_word _
theorem accTr (d : BitVec 8) (sw : Bool) : Statement (.accTr d sw) := low_word _
theorem accNorm (d : BitVec 8) (sw : Bool) : Statement (.accNorm d sw) := low_word _
theorem accOut (d : BitVec 8) (sw : Bool) : Statement (.accOut d sw) := low_word _
theorem accIn (d : BitVec 8) (sw : Bool) : Statement (.accIn d sw) := low_word _
theorem accLd (v : BitVec 6) (s : BitVec 9) (q : BitVec 2) (f : BitVec 3) (sw : Bool) : Statement (.accLd v s q f sw) := low_word _
theorem accSt (v : BitVec 6) (s : BitVec 9) (q : BitVec 2) (f : BitVec 3) (sw : Bool) : Statement (.accSt v s q f sw) := low_word _

end Shape

end Sys2Proof.Laws
end

