-- ==== Sys2Proof/Laws/Vector.lean ====
section
/-! SUPPORT. What the issue of a vector instruction comes to: its results become outstanding. -/
namespace Sys2Proof.Machine

theorem Group.thread_advance_regs (g : Group) (is : Issue) (sel : Sel) (L : Nat) :
    ((g.advance is sel).thread L).v = (g.thread L).v ∧ ((g.advance is sel).thread L).taint = (g.thread L).taint
      ∧ ((g.advance is sel).thread L).pred = (g.thread L).pred ∧ ((g.advance is sel).thread L).lnk = (g.thread L).lnk := by
  unfold Group.advance
  split
  · simp
  · by_cases h : L < g.threads.length
    · rw [Group.thread_modLanes h]; split <;> simp
    · have h1 : g.threads[L]? = none := by simpa using h
      simp [Group.thread, Group.modLanes, modFrom_get, h1]

/-- What an instruction reads does not depend on where the bundle stands. -/
theorem Group.gather_advance (g : Group) (is : Issue) (sel : Sel) (u : Use) (rep : Option ReplayEntry) (L : Nat) :
    (g.advance is sel).gather u rep L = g.gather u rep L := by
  have hs : ∀ n, (g.advance is sel).sget n = g.sget n := by intro n; simp [Group.sget]
  have hsl : ∀ n, (g.advance is sel).slot n = g.slot n := by intro n; simp [Group.slot]
  have hpl : (g.advance is sel).place = g.place := by unfold Group.advance; split <;> simp
  have hw : (g.advance is sel).width = g.width := by simp [Group.width, hpl]
  have hst : ∀ n L, (g.advance is sel).sourceThread n L = g.sourceThread n L := by intro n L; simp only [Group.sourceThread, hs, hsl, hw]
  have hd : ∀ L w, (g.advance is sel).deliver L w = g.deliver L w := by
    intro L w
    simp only [Group.deliver, hst, Group.fill, hsl, hs]
    cases g.sourceThread w.2 L with
    | none => rfl
    | some k => simp [Thread.vreg, (Group.thread_advance_regs g is sel k).1, (Group.thread_advance_regs g is sel k).2.1]
  have hp : ∀ n, ((g.advance is sel).thread L).pget n = (g.thread L).pget n := by
    intro n; simp [Thread.pget, (Group.thread_advance_regs g is sel L).2.2.1]
  have hsf : (g.advance is sel).sget = g.sget := funext hs
  have hpf : ((g.advance is sel).thread L).pget = (g.thread L).pget := funext hp
  cases rep with
  | none => simp only [Group.gather, hd, hsf, hpf]
  | some e => simp only [Group.gather, hd, hsf, hpf]

theorem Group.live_advance (g : Group) (is : Issue) (sel : Sel) : (g.advance is sel).live = g.live := by
  unfold Group.advance
  split
  · rfl
  · exact Group.which_modLanes _ _ _ _ (fun _ _ => rfl)

@[simp] theorem Group.putOutstanding_threads (g : Group) (o : Outstanding) : (g.putOutstanding o).threads = g.threads := rfl
@[simp] theorem Group.putOutstanding_regs (g : Group) (o : Outstanding) : (g.putOutstanding o).regs = g.regs := rfl
theorem Group.putOutstanding_live (g : Group) (o : Outstanding) : (g.putOutstanding o).live = g.live := rfl

/-- The parts of the group that a vector issue leaves. -/
theorem vectorIssued_eq (o : VecOp) (is : Issue) (sel : Sel) (e : ReplayEntry) (g : Group) :
    vectorIssued o is sel e g = { g with
      flow := { g.flow with outstanding := g.flow.outstanding ++ [vectorEntry o is sel e g], nextId := g.flow.nextId + 1 }
      regs := { g.regs with
        usplit := g.regs.usplit || (!o.use.sdst.isEmpty && sel.bundle &&& g.live != g.live)
        einj := if (vectorEntry o is sel e g).injected.isSome then setBit g.regs.einj 63 false else g.regs.einj } } := by
  have h2 : ∀ (h : Group) (B : Mask), h.noteSplit B = { h with regs := { h.regs with usplit := h.regs.usplit || (B &&& h.live != h.live) } } := by
    intro h B
    unfold Group.noteSplit
    split
    · next hh => simp [hh]
    · next hh => simp [hh]
  unfold vectorIssued
  simp only [h2, Group.disarm]
  cases hd : o.use.sdst.isEmpty <;> cases hi : (vectorEntry o is sel e g).injected.isSome <;>
    simp [Group.putOutstanding] <;> rfl

theorem isSome_injected (o : VecOp) (is : Issue) (sel : Sel) (e : ReplayEntry) (g : Group) :
    (vectorEntry o is sel e g).injected.isSome = (o.shadow.isSome && g.armed 7 && sel.mask.getLsbD (field 0 6 g.regs.einj).toNat) := by
  simp only [vectorEntry, injectedShadow]
  cases o.shadow with
  | none => simp
  | some f => simp only; split <;> simp_all

/-- A vector or uniform instruction that is not turned away is performed as its row says. -/
theorem row_performs {r : Row} {o : VecOp} (he : ∀ s, exec r.instr s = issueVector o s) (hu : o.use = r.use) (hs : o.sw = r.sw) (hd : r.dest = Issue.next)
    (hsh : o.shadowed = r.shadowed) (hin : o.shadow.isSome = r.injects)
    (hw : ∀ (is : Issue) (sel : Sel) (g ga : Group), is.replay = none → ga = g.advance is sel → sel.mask ≠ 0#64 →
      o.writes ga sel ((maskList sel.mask).map (g.gather r.use none)) = r.writes g ((maskList sel.mask).map (g.gather r.use none)))
    {s : State} {is : Issue} {sel : Sel} {g : Group} (h : Issues s is sel g) (ok : OperandsOk g sel r.use)
    (hf : o.uniform = true → s.dividing sel.g g.partIndex = false) : r.Performs s is sel g := by
  have hli : lanesIn o is sel (g.advance is sel) = (maskList sel.mask).map (g.gather r.use none) := by
    simp only [lanesIn, hu, h.fresh]
    apply List.map_congr_left
    intro L _
    exact Group.gather_advance g is sel r.use none L
  have hadv : (g.advance is sel) = { g with threads := (g.advance is sel).threads } := by
    unfold Group.advance; split <;> simp [Group.modLanes]
  have heff : ∀ s : State, s.group sel.g = some (g.advance is sel) → o.op.effect is sel (capture is sel g o.op.use is.next) s =
      ((s.modGroup sel.g (fun x => vectorIssued o is sel (capture is sel g o.op.use is.next) x)).laters o.latency [.vectorWriteback sel.g g.flow.nextId 0], none) := by
    intro s hsg
    simp [VecOp.op, vectorEffect, hsg, State.laters_one]
  obtain ⟨t, ht, hP⟩ := issue_onGroup (op := o.op) h (by simpa [VecOp.op, hu] using firstStop_std ok h.fresh) (turnsAway_none h rfl rfl hf) rfl
    (fun x => vectorIssued o is sel (capture is sel g o.op.use is.next) x) o.latency [.vectorWriteback sel.g g.flow.nextId 0] heff
    (by rw [vectorIssued_eq]; simp only; rw [hadv])
    (by rw [vectorIssued_eq]; simp) (by rw [vectorIssued_eq]; simp)
    (by rw [vectorIssued_eq]; simp)
    (by intro L hL
        rw [vectorIssued_eq]
        simp only [Group.thread]
        have := Group.thread_advance (is := is) (sel := sel) hL h.fresh
        simp only [Group.thread] at this
        rw [this])
  refine ⟨t, (vectorIssued o is sel (capture is sel g o.op.use is.next) (g.advance is sel)).retired o.op.use o.op.sw sel.bundle, vectorEntry o is sel (capture is sel g o.op.use is.next) (g.advance is sel), by rw [he]; exact ht, ?_, ?_, ?_, ?_, ?_, ?_, ?_, ?_, ?_, ?_⟩
  · rw [← hs]; exact hP
  · intro L hL
    rw [Group.thread_retired (by rw [vectorIssued_eq]; simpa using hL)]
    have ht2 : (vectorIssued o is sel (capture is sel g o.op.use is.next) (g.advance is sel)).thread L = (g.advance is sel).thread L := by
      rw [vectorIssued_eq]; rfl
    rw [ht2, Group.thread_advance hL h.fresh, hd]
    rfl
  · rw [Group.retired_flow, vectorIssued_eq]; simp
  · rw [Group.retired_regs, vectorIssued_eq]
    simp only [isSome_injected, Row.regsAfter, Group.advance_regs, Group.live_advance, hu, hin, Group.armed]
    rfl
  · simp [vectorEntry]
  · rfl
  · rfl
  · simp [vectorEntry, capture, h.fresh]
  · exact hsh
  · simp only [vectorEntry]
    rw [hli]
    exact hw is sel g _ h.fresh rfl h.lanes

/-- A vector instruction completes as its row says. -/
theorem row_completes {r : Row} {o : VecOp} (he : ∀ s, exec r.instr s = issueVector o s) (hu : o.use = r.use) (hs : o.sw = r.sw) (hd : r.dest = Issue.next)
    (hv : o.uniform = false) (hsh : o.shadowed = r.shadowed) (hin : o.shadow.isSome = r.injects)
    (hw : ∀ (is : Issue) (sel : Sel) (g ga : Group), is.replay = none → ga = g.advance is sel →
      o.writes ga sel ((maskList sel.mask).map (g.gather r.use none)) = r.writes g ((maskList sel.mask).map (g.gather r.use none))) : r.Completes :=
  fun _ _ _ _ h ok => row_performs he hu hs hd hsh hin (fun is sel g ga h1 h2 _ => hw is sel g ga h1 h2) h ok (fun h => by simp [hv] at h)

end Sys2Proof.Machine
end

