-- ==== Sys2Proof/Laws/Uniform.lean ====
section
/-! SUPPORT. What the issue of a uniform instruction comes to, and of one that acts on each thread of its bundle. -/
namespace Sys2Proof.Machine

theorem Group.sget_setS_same (g : Group) (n : Nat) (x : Word64) : (g.setS n x).sget n = if n = 0 then 0#64 else x := by
  unfold Group.setS Group.setSAt Group.sget
  split <;> simp

theorem Group.sget_setS_other {n m : Nat} (h : m ≠ n) (g : Group) (x : Word64) : (g.setS n x).sget m = g.sget m := by
  unfold Group.setS Group.setSAt
  split
  · rfl
  · simp only [Group.sget, Assoc.get_set_other h]

theorem Group.setS_eq (g : Group) (n : Nat) (x : Word64) : g.setS n x = { g with regs := { g.regs with s := (g.setS n x).regs.s, sAt := (g.setS n x).regs.sAt } } := by
  unfold Group.setS Group.setSAt; split <;> rfl

theorem Group.noteSplit_eq (g : Group) (B : Mask) :
    g.noteSplit B = { g with regs := { g.regs with usplit := g.regs.usplit || (B &&& g.live != g.live) } } := by
  unfold Group.noteSplit
  split <;> next h => simp [h]

theorem Group.advance_eq (g : Group) (is : Issue) (sel : Sel) : g.advance is sel = { g with threads := (g.advance is sel).threads } := by
  unfold Group.advance; split <;> simp [Group.modLanes]

/-- The uniform sources as an instruction fetched at its PC captures them (02 R67). -/
theorem capture_uni {is : Issue} (h : is.replay = none) (sel : Sel) (g : Group) (u : Use) (n : Word64) : (capture is sel g u n).uni = u.ssrc.map g.sget := by
  simp [capture, h]

/-- A bundle with an active thread has a first one. -/
theorem maskList_cons {m : Mask} (h : m ≠ 0#64) : ∃ L Ls, maskList m = L :: Ls := by
  cases hm : maskList m with
  | cons L Ls => exact ⟨L, Ls, rfl⟩
  | nil =>
    refine absurd ?_ h
    apply BitVec.eq_of_getLsbD_eq
    intro i hi
    have h1 : i ∉ maskList m := by simp [hm]
    simpa [maskList, hi] using h1

/-- A uniform instruction leaves its result outstanding. -/
theorem uniform_completes {i : Instr} {u : Use} {sw : Bool} {d : BitVec 8} {f : List Word64 → Word64} {v : Group → Word64} {n : Nat}
    (he : ∀ s, exec i s = issueVector (uniformOp u sw d f n) s) (hv : ∀ g : Group, f (u.ssrc.map g.sget) = v g) :
    Row.CompletesUniform { instr := i, use := u, sw := sw, writes := once d v } := by
  intro s is sel g h ok hd
  refine row_performs (o := uniformOp u sw d f n) he rfl rfl rfl rfl rfl ?_ h ok (fun _ => hd)
  intro is sel g ga _ _ hm
  obtain ⟨L, Ls, hl⟩ := maskList_cons hm
  simp [uniformOp, once, hl, Group.gather, hv]

/-- An instruction that changes each active thread by itself. -/
theorem threads_complete {r : TRow} {op : Op} (he : ∀ s, exec r.instr s = issue op s) (_hu : op.use = r.use) (hs : op.sw = r.sw)
    (hm : op.mem = false) (hc : op.compared = false) (hv : op.uniform = false) (hi : ∀ s is sel g, op.instead s is sel g = none)
    (hk : ∀ s is sel g, op.checks s is sel g = stdChecks r.use is sel g)
    (f : Issue → Sel → Group → Nat → Thread → Thread)
    (hf : ∀ (is : Issue) (sel : Sel) (g : Group), is.replay = none → sel.mask = sel.bundle → ∀ s, s.group sel.g = some (g.advance is sel) →
      op.effect is sel (capture is sel g op.use is.next) s = (s.modGroup sel.g (fun x => x.modLanes sel.bundle (f is sel g)), none))
    (hr : ∀ (is : Issue) (sel : Sel) (g : Group) (L : Nat) (t : Thread), is.replay = none → sel.mask = sel.bundle → t = g.thread L → sel.bundle.getLsbD L →
      f is sel g L { t with pc := is.next } = r.after is g L t)
    (hp : ∀ (is : Issue) (sel : Sel) (g : Group) (L : Nat) (t : Thread), (f is sel g L t).parked = t.parked) : r.Completes := by
  intro s is sel g h ok
  have hadvT : ∀ L, L < g.threads.length → ((g.advance is sel).modLanes sel.bundle (f is sel g)).thread L =
      if sel.bundle.getLsbD L then r.after is g L (g.thread L) else g.thread L := by
    intro L hL
    rw [Group.thread_modLanes (by simpa using hL), Group.thread_advance hL h.fresh]
    split
    · next hb => exact hr is sel g L _ h.fresh h.whole rfl hb
    · rfl
  obtain ⟨t, ht, hP⟩ := issue_onGroup (op := op) h (by rw [hk]; exact firstStop_std ok h.fresh) (turnsAway_none h hm hc (fun h => by simp [hv] at h)) (hi _ _ _ _)
    (fun x => x.modLanes sel.bundle (f is sel g)) 0 []
    (by intro s' hs'
        rw [hf is sel g h.fresh h.whole s' hs']
        rw [State.laters_nil])
    (by rw [Group.modLanes]; simp only; rw [Group.advance_eq]) (by simp) (by simp) (by simp)
    (by intro L hL
        rw [Group.thread_modLanes (by simpa using hL), Group.thread_advance hL h.fresh]
        split <;> simp [hp])
  refine ⟨t, _, by rw [he]; exact ht, by rw [← hs]; exact hP, by simp, by simp, ?_⟩
  intro L hL
  rw [Group.thread_retired (by simpa using hL), hadvT L hL]
  simp only [Thread.like]

end Sys2Proof.Machine
end

