-- ==== Sys2Proof/Tests/Slice0.lean ====
section
/-! SUPPORT. Tests: words written out from the encodings of chapter 07 and the examples of the specification, a check refused for each field that an encoding restricts, single
steps with results worked out from the rules, and for each statement with hypotheses a state that meets them. -/
set_option Elab.async false
namespace Sys2Proof.Tests
open Sys2Proof.Machine

/-! ### Words: fields from high bits to low as 07 R208-R219 lay them out -/

theorem test_specified_words : Obligations.SpecifiedWordsDecode := by
  unfold Obligations.SpecifiedWordsDecode; decide +kernel

theorem test_word_short : decodeTableWord 16 0b00001_00010_0001_1_0 = some (.iadd16 2 1 true) := by decide +kernel

theorem test_words_vector : decodeTableWord 32 0x08718561 = some (.sel 5 6 7 2 false) ∧ decodeTableWord 32 0x8501C635 = some (.fmadVs 6 7 0 20 false)
    ∧ decodeTableWord 32 0x8605941D = some (.dmad 20 22 0 24 0 false) := by decide +kernel

theorem test_word_convert : decodeTableWord 32 0x94824875 = some (.cvt 8 9 0 2 5 2 false) := by decide +kernel

theorem test_words_predicate : decodeTableWord 32 0x80C0B189 = some (.fcmp 1 6 2 0 3 0 false) ∧ decodeTableWord 32 0x0510108D = some (.ballot 2 20 false) := by decide +kernel

theorem test_words_cross_lane : decodeTableWord 32 0x0200C481 = some (.vscanAddS32 4 3 0 1 false) ∧ decodeTableWord 32 0x1305027D = some (.permSet 2 20 false)
    ∧ decodeTableWord 32 0x1800067D = some (.bxEnc8 6 0 0 false) ∧ decodeTableWord 32 0x1A00067D = some (.bxDec8 6 0 false) := by decide +kernel

theorem test_words_control : decodeTableWord 32 0x0040009D = some (.ret false) ∧ decodeTableWord 32 0x00800A9D = some (.jmp 10 false)
    ∧ decodeTableWord 32 0x01C0189D = some (.rdlnk 24 false) ∧ decodeTableWord 32 0x345610AF = some (.sLih 16 0x3456 true) := by decide +kernel

theorem test_words_memory : decodeTableWord 32 0x040414D9 = some (.sLd 20 4 4 false) ∧ decodeTableWord 32 0x003505E1 = some (.atom 5 20 3 0 false)
    ∧ decodeTableWord 32 0x403505E5 = some (.atomAcq 5 20 3 0 1 false) ∧ decodeTableWord 32 0x443501F1 = some (.red 1 20 3 1 1 false)
    ∧ decodeTableWord 32 0b000001000_100_010100_000101_1100_0001 = some (.ld 5 20 4 8 false) := by decide +kernel

theorem test_words_system : decodeTableWord 32 0x010900B9 = some (.trap 9 false) ∧ decodeTableWord 32 0x020000B9 = some (.rett false)
    ∧ decodeTableWord 32 0x0B0000B1 = some (.genPass false) ∧ decodeTableWord 32 0x030017B1 = some (.cpyCancel 0x17 false) := by decide +kernel

theorem test_words_interrupt : decodeTableWord 32 0x001514B5 = some (.uirqSend 20 21 false) ∧ decodeTableWord 32 0x010000B5 = some (.uirqWait false)
    ∧ decodeTableWord 32 0x020018B5 = some (.uirqTake 24 false) ∧ decodeTableWord 32 0x031B1AB5 = some (.uirqMask 26 27 false)
    ∧ decodeTableWord 32 0x04001CB5 = some (.uirqPend 28 false) ∧ decodeTableWord 32 0x051800B5 = some (.uirqDone 24 false) := by decide +kernel

theorem test_words_matrix : decodeTableWord 32 0b0000_000011_000101_00010000_1111_1001 = some (.mma 16 5 3 false)
    ∧ decodeTableWord 32 0b0000_001_10_000000111_001000_1111_1101 = some (.accLd 8 7 2 1 false) := by decide +kernel

theorem test_words_fence : decodeTableWord 32 0b0000_01_00010_00000_0000_0000_1111_0101 = some (.fence 2 1 false)
    ∧ decodeTableWord 32 0b000_00010101_00010100_00001_1111_0101 = some (.barInit 20 21 false) := by decide +kernel

/-- A reserved number, a reserved cvt type and a reserved width are no instruction (07 R216, R219, R220). -/
theorem test_words_reserved : decodeTableWord 32 (0x050000B9 + 2 ^ 16 * 0x0F) = none ∧ decodeTableWord 32 (0x75 + 2 ^ 22 * 12) = none
    ∧ decodeTableWord 32 (0xC1 + 2 ^ 20 * 7) = none := by decide +kernel

/-! ### Every check of the well-formedness refuses a term -/

theorem test_ill_formed : (List.map Instr.wellFormed [.cvt 0 0 0 12 0 0 false, .cvt 0 0 0 0 15 0 false, .permSet 0 0 false, .icmp 0 6 0 0 0 0 0 false, .xregAcq 0 false,
    .xregTry 1 7 false, .rdsr 0x027 1 false, .rdsr 0 64 false, .wrsr 0x112 1 false, .ld 0 0 7 0 false]).any id = false := by decide +kernel

theorem test_ill_formed_memory : (List.map Instr.wellFormed [.st 0 0 1 0 false, .lds 0 0 7 0 false, .sts 0 0 3 0 false, .ldAcq 0 0 6 0 0 false, .ldCon 0 0 7 0 0 false,
    .stRel 0 0 6 0 0 false, .red 1 0 0 9 0 false, .red 0 0 0 0 1 false, .cacheWb 0 0 2 false, .cacheInv 0 0 7 false, .accLd 0 0 0 3 false, .accSt 0 0 0 7 false,
    .reservedEncoding 0 0, .reservedEncoding 0 6]).any id = false := by decide +kernel

/-! ### A small state: group 0, 16 wide, whose sixteen threads issue the instruction at 0x1000 -/

/-- The bundle of all sixteen threads. -/
def demoSel : Sel := { g := 0, bundle := 0xFFFF, mask := 0xFFFF }

/-- The instruction at 0x1000 issues. -/
def demoIssue : Issue := { sels := [demoSel], pc := 0x1000, word := 0, short := false }

/-- A thread at 0x1000 whose v1, v2 and v3 hold 7, all ones and 5; v11:v10 hold the pointer 0x1000000, v12 the scratchpad offset 64. -/
def demoThread : Thread := { pc := 0x1000, v := [(1, 7), (2, 0xFFFFFFFF), (3, 5), (10, 0x1000000), (12, 64)] }

/-- A group of sixteen such threads of context 0. s16 to s31 hold small numbers, a pointer (s20), a scratchpad offset and lengths. -/
def demoGroup : Group :=
  { place := { gangCapable := true, handler := true, xmax := 16, vec := 0x8000 }
    regs := { s := [(16, 3), (17, BitVec.allOnes 64), (19, 0x20), (20, 0x1000000), (21, 0x100), (22, 1), (23, 64), (24, 0x101), (25, 2), (26, 33), (27, 0x1000), (28, 0xFFFC000000000000)] }
    threads := List.replicate 16 demoThread }

/-- A manifest of one role: one unit of scratchpad, two slabs, eight barrier objects. -/
def demoManifest : Manifest := { gx := 2, gy := 1, gz := 1, units := 1, slabs := 2, objects := 8, cores := 1, slack := 1, waybill := 0, roles := [] }

/-- The block of the group. -/
def demoBlock : Block := { ctx := 0, launch := 0, bx := 0, byy := 0, bz := 0, st := .resident, parts := [{ core := 0 }] }

/-- The launch of the block. -/
def demoLaunch : Launch := { ctx := 0, slot := 0, manifestAddr := 0, man := demoManifest, params := [], signal := some 5, dealt := 1 }

/-- The module with that group, its block, its context, and a page 0x1000000 that leads to 0x20000. -/
def demo (g : Group) : State :=
  { groups := [(0, g)], issue := some demoIssue, ctxs := [(0, { debuggable := true })], blks := [(0, demoBlock)], launches := [(0, demoLaunch)]
    dbg := { tgt := 0x100000000 }
    dies := [(0, { tlb := [(0x1000, { entry := 0x200CF, level := 3, at_ := 0x2000 })] })] }

/-- The group issues. -/
theorem demo_issues (g : Group) (h : g.flow = {}) : Issues (demo g) demoIssue demoSel g where
  issuing := rfl
  alone := rfl
  fresh := rfl
  group := rfl
  whole := rfl
  lanes := by decide
  bank := by rw [h]
  runOn := by simp [Group.runOn, h]
  peers := by simp [h]
  kept := by simp [State.keptRegs, State.convoyOf, demo, h]

/-- The state after a step of `exec`, when there is one. -/
noncomputable def after (i : Instr) (s : State) : Option State :=
  match exec i s with
  | .next t => some t
  | _ => none

/-- A thread of the group after an instruction. -/
noncomputable def threadAfter (i : Instr) (s : State) (L : Nat) : Option Thread := ((after i s).bind (fun t => t.group 0)).map (fun g => g.thread L)

/-- The group after an instruction whose results have been written. -/
noncomputable def landed (i : Instr) (s : State) : Option Group := ((after i s).bind (after (.vectorWriteback 0 0 0))).bind (fun t => t.group 0)

/-- The results that an instruction leaves outstanding. -/
noncomputable def writesAfter (i : Instr) (s : State) : Option (List RegWrite) :=
  (((after i s).bind (fun t => t.group 0)).bind (fun g => g.flow.outstanding.getLast?)).map (fun o => o.writes.take 2)

/-- A replay entry of the instruction at 0x1000. -/
def demoEntry : ReplayEntry := { word := 0x10B9, short := false, reread := false, pc := 0x1000, mask := 0xFFFF, done := 0, next := 0x1004 }

/-- `s.divn s16, s18` outstanding. -/
def demoDivision : Outstanding := { id := 0, kind := .vector, entry := { demoEntry with word := 0x171210A1 }, bundle := 0xFFFF, writes := [.s 16 7] }

/-! ### Single steps, with results from the rules -/

/-- 7 + (-1) wraps to 6 (09 R257). -/
theorem test_iadd_wraps : writesAfter (.iadd 4 1 0 2 0 false) (demo demoGroup) = some [.v 0 4 6 false false, .v 1 4 6 false false] := by decide +kernel

/-- The high word of 7 * (-1) is -1 signed and 6 unsigned (09 R257). -/
theorem test_imulh_signs : writesAfter (.imulh 4 1 0 2 0 false) (demo demoGroup) = some [.v 0 4 0xFFFFFFFF false false, .v 1 4 0xFFFFFFFF false false]
    ∧ writesAfter (.imulhn 4 1 0 2 0 false) (demo demoGroup) = some [.v 0 4 6 false false, .v 1 4 6 false false] := by decide +kernel

/-- Division by zero gives all ones, and the remainder is the dividend (08 R241). -/
theorem test_divide_by_zero : writesAfter (.sDivn 16 18 false) (demo demoGroup) = some [.s 16 (BitVec.allOnes 64)]
    ∧ writesAfter (.sRemn 16 18 false) (demo demoGroup) = some [.s 16 3] := by decide +kernel

/-- s0 discards a write (03 R79), and an immediate is sign-extended (08 R242). -/
theorem test_uniform_zero : (landed (.sAddi 0 0xFFF false) (demo demoGroup)).map (fun g => g.sget 0) = some 0
    ∧ (landed (.sAddi 16 0xFFF false) (demo demoGroup)).map (fun g => g.sget 16) = some 2 := by decide +kernel

/-- A division keeps the uniform pipeline of its partition (08 R245): the next uniform instruction waits, a vector instruction does not. -/
theorem test_division_occupies : ({ demoEntry with word := 0x171210A1 }).divides = true ∧ (demo { demoGroup with flow := { outstanding := [demoDivision] } }).dividing 0 0 = true
    ∧ (threadAfter (.sAddi 17 1 false) (demo { demoGroup with flow := { outstanding := [demoDivision] } }) 0).map (fun t => (t.pc, t.turnedLeaf)) = some (0x1000, 8)
    ∧ (threadAfter (.iadd 4 1 0 2 0 false) (demo { demoGroup with flow := { outstanding := [demoDivision], nextId := 1 } }) 0).map (·.pc) = some 0x1004 := by decide +kernel

/-- 1.5 + 2.25 is 3.75. -/
theorem test_fadd : round32 (faddV 0x3FC00000 0x40100000) = 0x40700000 := by decide +kernel

/-- The example of 06: 300.5 rounds down to 288, 0x79 in E4M3. -/
theorem test_cvt_e4m3 : lowWord (cvtWord 2 5 (modeOf 2) 0x43964000) = 0x79 := by decide +kernel

/-- A branch counts halfwords from its own address (07 R213): s17 is not zero, so twelve bytes back. -/
theorem test_branch_back : (threadAfter (.sBrnz 17 0x3FFA false) (demo demoGroup) 0).map (·.pc) = some 0xFF4
    ∧ (threadAfter (.sBrz 17 0x3FFA false) (demo demoGroup) 0).map (·.pc) = some 0x1004 := by decide +kernel

/-- A link: the next instruction's address (08 R232). -/
theorem test_call_links : (landed (.call 16 false) (demo demoGroup)).map (fun g => ((g.thread 3).pc, (g.thread 3).lnk)) = some (0x1020, 0x1004) := by decide +kernel

/-- The trap instruction: cause 0x1007, its code in TRAPADDR, the bundle at TRAPVEC (12 R344, R348). -/
theorem test_trap_enters : ((after (.trap 9 false) (demo demoGroup)).bind (fun t => t.group 0)).map
    (fun g => (g.trap.cause, g.trap.addr, g.trap.pc, g.trap.tmasked, (g.thread 0).pc)) = some (0x1007, 9, 0x1000, true, 0x8000) := by decide +kernel

/-- A register past the role's uniform registers is an illegal operand (18 R434). -/
theorem test_operand_trap : ((after (.sMov 16 40 false) (demo demoGroup)).bind (fun t => t.group 0)).map (fun g => g.trap.cause) = some 0x1002 := by decide +kernel

/-- The votes of threads whose predicate holds: p7 is always true (03 R79, 09 R268). -/
theorem test_ballot : writesAfter (.ballot 7 20 false) (demo demoGroup) = some [.s 20 0xFFFF] := by decide +kernel

/-- 16 times 7 (09 R269). -/
theorem test_reduction : writesAfter (.vredAddS32 1 20 0 false) (demo demoGroup) = some [.s 20 112] := by decide +kernel

/-- The exclusive scan begins with the identity (09 R270). -/
theorem test_scan : writesAfter (.vscanAddS32 4 1 0 1 false) (demo demoGroup) = some [.v 0 4 0 false false, .v 1 4 7 false false] := by decide +kernel

/-! ### States that meet the statements' hypotheses -/

/-- The conclusion that a value stands in an option. -/
theorem some_of {α : Type} {o : Option α} (h : o.isSome = true) : ∃ x, o = some x := Option.isSome_iff_exists.mp h

/-- A step that answers a next state. -/
noncomputable def isNext : Host.Outcome State Fault Refusal → Bool
  | .next _ => true
  | _ => false

theorem next_of {o : Host.Outcome State Fault Refusal} (h : isNext o = true) : ∃ t, o = .next t := by
  cases o with
  | next t => exact ⟨t, rfl⟩
  | fault f => cases h
  | refused r => cases h

theorem demo_operands : OperandsOk demoGroup demoSel (useVV 15 1 0 2 0) ∧ OperandsOk demoGroup demoSel (useUA 31 31) ∧ OperandsOk demoGroup demoSel {} := by
  refine ⟨⟨?_, ?_, ?_⟩, ⟨?_, ?_, ?_⟩, ⟨?_, ?_, ?_⟩⟩ <;> decide +kernel

/-- A value in an option, with what holds of it. -/
theorem any_of {α : Type} {p : α → Bool} {o : Option α} (h : o.any p = true) : ∃ x, o = some x ∧ p x = true := by
  cases o with
  | none => cases h
  | some x => exact ⟨x, rfl, h⟩

/-- Whether an answer is a success of which `p` holds. -/
def okAny {α ε : Type} (p : State → α → Bool) : State × Except ε α → Bool
  | (u, .ok x) => p u x
  | _ => false

theorem ok_of {α ε : Type} {p : State → α → Bool} {r : State × Except ε α} (h : okAny p r = true) : ∃ u x, r = (u, .ok x) ∧ p u x = true := by
  obtain ⟨u, e | x⟩ := r
  · cases h
  · exact ⟨u, x, rfl, h⟩

/-- The fetch of a chosen bundle, and the instruction it gives. -/
noncomputable def chosenFetch (s : State) (x : Nat × Group × Work) : State × Except FetchStop Fetched :=
  let issued := s.issuedWith 0 x.1 x.2.1 x.2.2
  (s.begin 0 issued).fetch x.2.1.place.core x.2.1.place.ctx x.2.1.code x.2.2.pc

/-- Whether what was fetched is a `nop`. -/
noncomputable def isNop (f : Fetched) : Bool :=
  match f.decode with
  | .instr i => decide (i = .nop false)
  | _ => false

theorem decode_of_isNop {f : Fetched} (h : isNop f = true) : f.decode = .instr (.nop false) := by
  unfold isNop at h
  split at h
  · rename_i i hi
    rw [hi, of_decide_eq_true h]
  · cases h

/-- `StepRunsTheDecodedInstruction`: after reset with a `nop` placed. -/
theorem witness_step :
    let s := State.reset.withFetchWord 32 0x9D
    s.agenda = [] ∧ s.due = none ∧ s.dueLate = none ∧ s.dueTrap = none ∧ s.nextPartition = some 0 ∧ ∃ x u f, s.nextOn 0 = some x ∧ x.2.2.entry = none ∧ x.2.1.refused x.2.2.mask = none
      ∧ chosenFetch s x = (u, .ok f) ∧ f.decode = .instr (.nop false) := by
  intro s
  refine ⟨by decide +kernel, by decide +kernel, by decide +kernel, by decide +kernel, by decide +kernel, ?_⟩
  obtain ⟨x, hx, hc⟩ := any_of (o := s.nextOn 0) (p := fun x => x.2.2.entry.isNone && (x.2.1.refused x.2.2.mask).isNone && okAny (fun _ f => isNop f) (chosenFetch s x))
    (by decide +kernel)
  simp only [Bool.and_eq_true, Option.isNone_iff_eq_none] at hc
  obtain ⟨u, f, hf, hi⟩ := ok_of hc.2
  exact ⟨x, u, f, hx, hc.1.1, hc.1.2, hf, decode_of_isNop hi⟩

/-- And it runs: the placed instruction is taken and its thread goes on. -/
theorem test_step_runs_placed : (match Machine.step (State.reset.withFetchWord 32 0x111110A1) with
    | .next t => (t.group 0).map (fun g => (g.thread 0).pc)
    | _ => none) = some 0x10004 := by decide +kernel

/-- What `FetchReadsTheHalfwordsAtThePc` assumes of a state whose first halfword has `x` in its low byte. -/
def FetchHyps (s : State) (long : Bool) : Prop :=
  ∃ t pa lf, pointerForm 0x1000000 = true ∧ s.translate 0 0 (virtOf 0x1000000) { exec := true } = (t, .ok (pa, lf)) ∧ regionOf pa ≠ 2 ∧ (t.sector (sectorOf pa)).ecc = none
    ∧ t.poisonedAt pa = false ∧ (t.codeByte [] pa).getLsbD 0 = long ∧ ∃ u h, t.fetchHalf 0 0 [] 0x1000002 = (u, .ok h)

/-- `FetchReadsTheHalfwordsAtThePc`: both forms, at the page of the small state. -/
theorem witness_fetch : FetchHyps { (demo demoGroup) with mem := [(0x20000, 0x9D)] } true ∧ FetchHyps { (demo demoGroup) with mem := [(0x20000, 0x9E)] } false := by
  have key : ∀ (s : State) (long : Bool), okAny (fun t (x : Nat × Leaf) => regionOf x.1 != 2 && (t.sector (sectorOf x.1)).ecc.isNone && !t.poisonedAt x.1
        && (t.codeByte [] x.1).getLsbD 0 == long && okAny (fun _ _ => true) (t.fetchHalf 0 0 [] 0x1000002)) (s.translate 0 0 (virtOf 0x1000000) { exec := true }) = true → FetchHyps s long := by
    intro s long h
    obtain ⟨t, x, ht, hp⟩ := ok_of h
    simp only [Bool.and_eq_true, bne_iff_ne, Option.isNone_iff_eq_none, Bool.not_eq_true', beq_iff_eq] at hp
    obtain ⟨u, y, hu, -⟩ := ok_of hp.2
    exact ⟨t, x.1, x.2, by decide, ht, hp.1.1.1.1, hp.1.1.1.2, hp.1.1.2, hp.1.2, u, y, hu⟩
  exact ⟨key _ _ (by decide +kernel), key _ _ (by decide +kernel)⟩

/-- The statements about encodings: the first and the last constructor with an encoding, and the bytes of `nop`. -/
theorem witness_encodings : (Instr.mov16 31 31 true).wellFormed = true ∧ encode (.mov16 31 31 true) ≠ .event ∧ (Instr.accSt 63 511 3 2 true).wellFormed = true
    ∧ encode (.accSt 63 511 3 2 true) ≠ .event ∧ decodeBytes [0x9D, 0, 0, 0] = some (.instr (.nop false), []) := by decide +kernel

/-- `EveryStepKeepsMemoryCanonical`. -/
theorem witness_canonical : Memory.wf (State.reset.withFetchWord 32 0x9D).mem = true ∧ ∃ t, Machine.step (State.reset.withFetchWord 32 0x9D) = .next t :=
  ⟨by decide +kernel, next_of (by decide +kernel)⟩

/-- `FixedRegistersReadAsStated`, and the tables of uniform and vector instructions: registers at the ends of the file. -/
theorem witness_operands : Issues (demo demoGroup) demoIssue demoSel demoGroup ∧ 0 < demoGroup.place.ucount ∧ OperandsOk demoGroup demoSel (useUA 31 31)
    ∧ OperandsOk demoGroup demoSel (useVV 15 1 0 2 0) ∧ OperandsOk demoGroup demoSel (use16 15 1) ∧ OperandsOk demoGroup demoSel (useVL 0)
    ∧ OperandsOk demoGroup demoSel (useDD 14 10 0 12 0) ∧ OperandsOk demoGroup demoSel (useCvt 14 15 0 2 11) ∧ OperandsOk demoGroup demoSel (useCmp 7 15 0 0 0)
    ∧ OperandsOk demoGroup demoSel (useBcast 14 31 2) ∧ OperandsOk demoGroup demoSel (useVred 15 31 0) ∧ OperandsOk demoGroup demoSel (useV4 15 1 2 3)
    ∧ OperandsOk demoGroup demoSel (useBxEnc 12 20 0) := by
  refine ⟨demo_issues _ rfl, by decide, ?_⟩
  refine ⟨?_, ?_, ?_, ?_, ?_, ?_, ?_, ?_, ?_, ?_, ?_⟩ <;> exact ⟨by decide +kernel, by decide +kernel, by decide +kernel⟩

/-- `RdlaneAndPermSetComplete`: a legal descriptor in s16, an illegal one in s17, traps unmasked. -/
theorem witness_rdlane_permset : Issues (demo demoGroup) demoIssue demoSel demoGroup ∧ OperandsOk demoGroup demoSel { ssrc := [16], sdst := [16], vsrc := [{ reg := 15 }] }
    ∧ (demoGroup.thread 3).poison.getLsbD 15 = false ∧ OperandsOk demoGroup demoSel { ssrc := [16] } ∧ OperandsOk demoGroup demoSel { ssrc := [17] } ∧ demoGroup.trap.tmasked = false
    ∧ (let legal := fun (x : Word64) => field 21 43 x = 0 ∧ field 0 3 x ≠ 7 ∧ field 9 3 x ≠ 7 ∧ (x.getLsbD 12 = true → (field 13 8 x).toNat < demoGroup.place.ucount)
       legal (demoGroup.sget 16) ∧ ¬ legal (demoGroup.sget 17)) := by
  refine ⟨demo_issues _ rfl, ⟨?_, ?_, ?_⟩, ?_, ⟨?_, ?_, ?_⟩, ⟨?_, ?_, ?_⟩, ?_, ?_⟩ <;> decide +kernel

/-- A group with a vector instruction and a load outstanding. -/
def demoBusy : Group :=
  { demoGroup with flow := { outstanding := [{ id := 0, kind := .vector, entry := demoEntry, bundle := 0xFFFF, writes := [.v 15 63 1 true true, .p 0 7 true] },
                                             { id := 1, kind := .load, entry := demoEntry, bundle := 0xFFFF, writes := [.s 20 2, .v 0 0 1 false false] }], nextId := 2 } }

/-- `OutstandingResultsAreWritten` and the uniform instructions: a division, and a pipeline that runs none. -/
theorem witness_division : InFile demoGroup demoDivision ∧ demoDivision.entry.divides = true ∧ (demo demoGroup).dividing 0 demoGroup.partIndex = false
    ∧ InFile demoGroup { demoDivision with writes := [.lnk 15 7] } := by
  refine ⟨?_, by decide, by decide +kernel, ?_⟩ <;> (intro w hw; simp only [demoDivision, List.mem_cons, List.not_mem_nil, or_false] at hw; subst hw; decide)

/-- The same: a vector instruction and a load. -/
theorem witness_outstanding : ∃ o p, (demo demoBusy).group 0 = some demoBusy ∧ demoBusy.out 0 = some o ∧ InFile demoBusy o ∧ o.kind ≠ .load ∧ o.disagreeing 0 = 0
    ∧ demoBusy.out 1 = some p ∧ InFile demoBusy p ∧ p.kind = .load ∧ (demo demoBusy).dataHere 0 1 = true := by
  refine ⟨_, _, rfl, rfl, ?_, by decide, by decide +kernel, rfl, ?_, rfl, by decide +kernel⟩ <;>
    (intro w hw; simp only [List.mem_cons, List.not_mem_nil, or_false] at hw; rcases hw with rfl | rfl <;> decide)

/-- `ControlTransfersAndGbarComplete` and `ExitEndsThreads`. -/
theorem witness_control : Issues (demo demoGroup) demoIssue demoSel demoGroup ∧ OperandsOk demoGroup demoSel { usePair 10 with lnkW := true } ∧ OperandsOk demoGroup demoSel {} ∧ OperandsOk demoGroup demoSel { lnkW := true }
    ∧ OperandsOk demoGroup demoSel { vdst := [(14, 2)], lnkR := true } ∧ OperandsOk demoGroup demoSel { psrc := [7] } ∧ demoGroup.place.paired = false := by
  refine ⟨demo_issues _ rfl, ⟨?_, ?_, ?_⟩, ⟨?_, ?_, ?_⟩, ⟨?_, ?_, ?_⟩, ⟨?_, ?_, ?_⟩, ⟨?_, ?_, ?_⟩, ?_⟩ <;> decide +kernel

/-- A partition whose queue holds a request of the group for `n` registers. -/
def demoQueued (n : Nat) : State := { (demo demoGroup) with parts := [(0, { xqueue := [{ g := 0, bundle := 0xFFFF, n := n, entry := demoEntry }] })] }

/-- `ExtendedRegistersAreGrantedInOrder`: the largest amount the role may hold; a free and an occupied queue, a head that fits and one that does not. -/
theorem witness_xreg : Issues (demo demoGroup) demoIssue demoSel demoGroup ∧ operandStop demoGroup demoSel.mask { sdst := [31] } = none
    ∧ demoGroup.regs.xheld + 8 * 2 ≤ demoGroup.place.xmax ∧ demoIssue.short = false ∧ demoSel.bundle &&& ~~~demoGroup.live = 0#64
    ∧ ((demo demoGroup).part demoGroup.partIndex).xqueue = [] ∧ (demo demoGroup).xregFits demoGroup 16 = true
    ∧ (demo demoGroup).xregFits demoGroup 4096 = false := by
  refine ⟨demo_issues _ rfl, ?_⟩; decide +kernel

theorem witness_xreg_queue : ∀ n ∈ [8, 4096], ∃ r, ((demoQueued n).part 0).xqueue = [r] ∧ (demoQueued n).group r.g = some demoGroup
    ∧ (demoQueued n).xregFits demoGroup r.n = decide (n = 8) := by
  intro n hn
  refine ⟨_, rfl, rfl, ?_⟩
  simp only [List.mem_cons, List.not_mem_nil, or_false] at hn
  rcases hn with rfl | rfl <;> decide +kernel

/-- `RdsrAndWrsrFollowTheRegisterTable`: the first and the last listed register, and each that a write changes. -/
theorem witness_sysregs : Issues (demo demoGroup) demoIssue demoSel demoGroup ∧ operandStop demoGroup demoSel.mask { sdst := [31] } = none
    ∧ (sysTable (demo demoGroup) demoGroup).any (fun e => e.1 == 0x001) = true ∧ (sysTable (demo demoGroup) demoGroup).any (fun e => e.1 == 0x13F) = true ∧ (demo demoGroup).dividing 0 demoGroup.partIndex = false
    ∧ operandStop demoGroup demoSel.mask { vdst := [(15, 1)] } = none ∧ operandStop demoGroup demoSel.mask (useSr 0x021 31 true) = none
    ∧ operandStop demoGroup demoSel.mask (useSr 0x051 0 true) = none ∧ (demo demoGroup).context demoGroup.place.ctx ≠ none := by
  refine ⟨demo_issues _ rfl, ?_⟩; decide +kernel

/-- `SystemRegisterEventsComplete`: EINJ kind 1 at the last register, kind 2, a kind that is refused. -/
theorem witness_sysreg_events : (demo demoGroup).group 0 = some demoGroup ∧ (demo demoGroup).debuggable 0 = true ∧ (demo demoGroup).context 0 ≠ none
    ∧ (demo demoGroup).einjRefused demoGroup 0x801000000000780F = false ∧ (demo demoGroup).einjRefused demoGroup 0x80F0000000000000 = true := by decide +kernel

/-- A group in a handler, and one that holds a pending event. -/
def demoHandler : Group := { demoGroup with trap := { inHandler := true, tmasked := true, bundle := 0xFFFF, queue := [demoEntry] } }

/-- `TrapInstructionsEnterAndLeaveTheHandler` and `ConditionsEscalateOrHold`. -/
theorem witness_traps : Issues (demo demoGroup) demoIssue demoSel demoGroup ∧ demoGroup.trap.tmasked = false ∧ (demo demoGroup).dbg.armBrk = false ∧ demoGroup.trap.inHandler = false
    ∧ Issues (demo demoHandler) demoIssue demoSel demoHandler ∧ demoHandler.trap.inHandler = true ∧ demoHandler.trap.tmasked = true
    ∧ ({ code := 0x3602, mask := 1, addr := 0 } : Stop).holds = true := by
  refine ⟨demo_issues _ rfl, ?_, ?_, ?_, demo_issues _ rfl, ?_⟩ <;> decide +kernel

/-- A group whose segment has written v4, and one whose v1 is poisoned. -/
def demoSegment : Group := { demoGroup with threads := List.replicate 16 { demoThread with seg := [{ reg := .v 4, fixed := false }] } }
def demoPoisoned : Group := { demoGroup with threads := List.replicate 16 { demoThread with poison := 2 } }

/-- What `FailedOperandChecksTrap` assumes, for a code. -/
def StopsWith (g : Group) (u : Use) (code : BitVec 16) : Prop :=
  ∃ st, firstStop [operandStop g demoSel.mask u, hazardStop g demoSel.bundle u, poisonStop g demoSel.mask u] = some st ∧ st.code = code

theorem stops_with {g : Group} {u : Use} {code : BitVec 16}
    (h : (firstStop [operandStop g demoSel.mask u, hazardStop g demoSel.bundle u, poisonStop g demoSel.mask u]).any (fun st => st.code == code) = true) : StopsWith g u code := by
  obtain ⟨st, h1, h2⟩ := any_of h
  exact ⟨st, h1, beq_iff_eq.mp h2⟩

/-- `FailedOperandChecksTrap`: each of the three codes, at the first register past the limit. -/
theorem witness_failed_checks : Issues (demo demoGroup) demoIssue demoSel demoGroup ∧ StopsWith demoGroup (useVV 16 1 0 2 0) 0x1002 ∧ StopsWith demoGroup (useUA 32 16) 0x1002
    ∧ Issues (demo demoSegment) demoIssue demoSel demoSegment ∧ StopsWith demoSegment (useVV 5 4 0 2 0) 0x1008
    ∧ Issues (demo demoPoisoned) demoIssue demoSel demoPoisoned ∧ StopsWith demoPoisoned (useVV 5 1 0 2 0) 0x100A :=
  ⟨demo_issues _ rfl, stops_with (by decide +kernel), stops_with (by decide +kernel), demo_issues _ rfl, stops_with (by decide +kernel), demo_issues _ rfl,
    stops_with (by decide +kernel)⟩

/-- A bundle whose PC has no legal form. -/
def demoLost : State := { (demo demoGroup) with issue := some { demoIssue with pc := 0x1000000000000000 } }

/-- `FetchFaultEntersTheHandler`. -/
theorem witness_fetch_fault : ∃ f, demoLost.fetch 0 0 demoGroup.code 0x1000000000000000 = (demoLost, .error f) ∧ demoLost.group 0 = some demoGroup ∧ demoGroup.runOn demoSel.bundle = none
    ∧ demoLost.unfinished 0 demoGroup demoSel.bundle = false ∧ demoGroup.trap.tmasked = false ∧ routeOf f.code = .trap := by
  refine ⟨{ code := 0x1003, addr := 0x1000000000000000 }, ?_, rfl, ?_⟩
  · rfl
  · decide +kernel

/-- `TranslationFollowsTheLeaf`: an access that the leaf permits and one that it does not. -/
theorem witness_translate : ∃ l, (demo demoGroup).leafFor 0 0 0x1000000 = .ok l ∧ l.check { read := true, write := true } = none
    ∧ Leaf.check { l with entry := 0x200C3 } { read := true, write := true } = some .permission :=
  ⟨{ entry := 0x200CF, level := 3, at_ := 0x2000 }, by rfl, by decide, by decide⟩

/-- The same for the walk: the placed page, and the page after it. -/
theorem witness_walk : ∃ c, let s := State.reset.withFetchWord 32 0
    s.context 1 = some c ∧ c.table ≠ 0
    ∧ (let rd := fun (a : Nat) => BitVec.ofNat 64 (bytesFrom s.mem a 8)
       let points := fun (a : Nat) => pteValid (rd a) && !pteLeaf (rd a) && inDram (ptePA (rd a))
       let leaf := fun (V : Nat) =>
         let a0 := c.table + 8 * (V / 2 ^ 39 % 2 ^ 18)
         let a1 := ptePA (rd a0) + 8 * (V / 2 ^ 30 % 512)
         let a2 := ptePA (rd a1) + 8 * (V / 2 ^ 21 % 512)
         (points a0 && points a1 && points a2, ptePA (rd a2) + 8 * (V / 2 ^ 12 % 512))
       (leaf 0x10000).1 = true ∧ pteValid (rd (leaf 0x10000).2) = true ∧ pteLeaf (rd (leaf 0x10000).2) = true ∧ leafMalformed 3 (rd (leaf 0x10000).2) = false
       ∧ (leaf 0x11000).1 = true ∧ pteValid (rd (leaf 0x11000).2) = false ∧ pteValid (rd (c.table + 8)) = false) := by
  refine ⟨{ table := 0x200000, saveBase := 0x500000, saveSize := 0x100000 }, ?_, ?_, ?_⟩ <;> decide +kernel

theorem demo_plain : Plain (demo demoGroup) demoSel demoGroup := ⟨by decide +kernel, by decide +kernel, by decide +kernel⟩

/-- What the statements about accesses assume of an instruction's addresses: legal, aligned, mapped, in device DRAM. -/
def Lands (need : Need) (size : Nat) (l : Addrs) : Prop :=
  Reachable (demo demoGroup) demoIssue demoSel demoGroup size l
    ∧ (let x := landing (demo demoGroup) demoIssue demoSel demoGroup need l
       x.2.1 = [] ∧ x.2.2.length = l.length ∧ ∀ h ∈ x.2.2, regionOf h.pa ≠ 2 ∧ x.1.containedAt h.pa = none)

theorem lands {need : Need} {size : Nat} {l : Addrs} (h1 : (l.all (fun a => pointerForm a.2 && a.2.toNat % size == 0) && !watched (demo demoGroup) demoIssue demoSel demoGroup
      && ((demo demoGroup).engineWaits demoIssue demoSel demoGroup l).isNone) = true)
    (h2 : (let x := landing (demo demoGroup) demoIssue demoSel demoGroup need l
           x.2.1.isEmpty && x.2.2.length == l.length && x.2.2.all (fun h => regionOf h.pa != 2 && (x.1.containedAt h.pa).isNone)) = true) : Lands need size l := by
  simp only [Bool.and_eq_true, List.all_eq_true, beq_iff_eq, Bool.not_eq_true', List.isEmpty_iff, bne_iff_ne, Option.isNone_iff_eq_none] at h1 h2
  exact ⟨⟨fun a ha => (h1.1.1 a ha).1, fun a ha => (h1.1.1 a ha).2, h1.1.2, h1.2⟩, h2.1.1, h2.1.2, h2.2⟩

/-- No finding stops a group on the way to a state of the small module. -/
theorem undisturbed {u : State}
    (h : decide (u.groups = ((demo demoGroup).modGroup 0 (fun x => { x.advance demoIssue demoSel with regs := { (x.advance demoIssue demoSel).regs with einj := 0 } })).groups) = true) :
    Undisturbed (demo demoGroup) demoIssue demoSel u := ⟨0, of_decide_eq_true h⟩

/-- `LoadsComplete`, `StoresWriteTheirLanes`, `AtomicsApplyTheStatedOperations` and `MemoryReleasesWaitAtTheGate`: no finding. -/
theorem witness_undisturbed :
    let s := demo demoGroup
    let x := landing s demoIssue demoSel demoGroup { read := true } (pairAddrs (useLoad 12 10 4) demoIssue demoSel demoGroup 255#9 (sizeOf_ 4))
    let y := landing s demoIssue demoSel demoGroup { write := true } (pairAddrs (useStore 15 10 2) demoIssue demoSel demoGroup 0#9 (sizeOf_ 2))
    let z := landing s demoIssue demoSel demoGroup { read := true, write := true } (pairAddrs (useAtom 12 10 2 10) demoIssue demoSel demoGroup (0#9) 1)
    Undisturbed s demoIssue demoSel (x.1.loadSectors 0 0 0 0 0 (sizeOf_ 4) none x.2.2)
    ∧ Undisturbed s demoIssue demoSel (y.1.performStores 0 0 1 0 0 none y.2.2 (laneStores demoGroup 15 10 2 y.2.2)) ∧ Undisturbed s demoIssue demoSel y.1
    ∧ Undisturbed s demoIssue demoSel (z.1.performAtomics 0 0 5 0 0 10 z.2.2 (laneAtomics demoGroup (useAtom 12 10 2 10) z.2.2)).1 :=
  ⟨undisturbed (by decide +kernel), undisturbed (by decide +kernel), undisturbed (by decide +kernel), undisturbed (by decide +kernel)⟩

/-- `LoadsComplete`, `StoresWriteTheirLanes`, `AtomicsApplyTheStatedOperations` and `MemoryReleasesWaitAtTheGate`: all sixteen lanes at one pointer. -/
theorem witness_accesses : Issues (demo demoGroup) demoIssue demoSel demoGroup ∧ Plain (demo demoGroup) demoSel demoGroup ∧ demoGroup.armed 6 = false
    ∧ OperandsOk demoGroup demoSel (useLoad 12 10 4) ∧ Lands { read := true } (sizeOf_ 4) (pairAddrs (useLoad 12 10 4) demoIssue demoSel demoGroup 255#9 (sizeOf_ 4))
    ∧ OperandsOk demoGroup demoSel (useStore 15 10 2) ∧ Lands { write := true } (sizeOf_ 2) (pairAddrs (useStore 15 10 2) demoIssue demoSel demoGroup 0#9 (sizeOf_ 2)) := by
  refine ⟨demo_issues _ rfl, demo_plain, by decide, ⟨?_, ?_, ?_⟩, lands ?_ ?_, ⟨?_, ?_, ?_⟩, lands ?_ ?_⟩ <;> decide +kernel

theorem witness_atomics : OperandsOk demoGroup demoSel (useAtom 12 10 2 10) ∧ OperandsOk demoGroup demoSel (useRed 10 2 0)
    ∧ Lands { read := true, write := true } (atomSize 10) (pairAddrs (useAtom 12 10 2 10) demoIssue demoSel demoGroup (0#9) 1)
    ∧ Lands { write := true } (atomSize 0) (pairAddrs (useRed 10 2 0) demoIssue demoSel demoGroup (0#9) 1) := by
  refine ⟨⟨?_, ?_, ?_⟩, ⟨?_, ?_, ?_⟩, lands ?_ ?_, lands ?_ ?_⟩ <;> decide +kernel

/-- `StoresWriteTheirLanes`: a store that waits for ownership. -/
theorem witness_pending_store : ∃ p, Tab.get? 3 [(3, ({ g := 0, mask := 1, core := 0, kind := 1, scope := 0, cls := 0, l := [] } : PendingStore))] = some p := ⟨_, rfl⟩

/-- Whether a landing is that of one lane, of which `p` holds. -/
def oneHit (p : State → Hit → Bool) (x : State × List Miss × List Hit) : Bool :=
  match x with
  | (s, [], [h]) => p s h
  | _ => false

theorem oneHit_of {p : State → Hit → Bool} {x : State × List Miss × List Hit} (h : oneHit p x = true) : ∃ y, x.2 = ([], [y]) ∧ p x.1 y = true := by
  obtain ⟨s, m, l⟩ := x
  unfold oneHit at h
  split at h
  · rename_i heq
    cases heq
    exact ⟨_, rfl, h⟩
  · cases h

/-- `UniformAndScratchpadLoadsAndStoresComplete`: one address for the bundle; scratchpad offset 64 in each lane. -/
theorem witness_uniform_access :
    let g := demoGroup
    let s := demo demoGroup
    let l : Addrs := [(lowestOf demoSel.mask, effective (g.sget 20) (1#8) 8)]
    Reachable s demoIssue demoSel g 8 l ∧ OperandsOk g demoSel { ssrc := [20], sdst := [31] } ∧ OperandsOk g demoSel { ssrc := [20, 16] }
    ∧ (let x := landing s demoIssue demoSel g { read := true } l
       ∃ h, x.2 = ([], [h]) ∧ regionOf h.pa ≠ 2 ∧ ((x.1.loadSectors g.place.core demoSel.g 0 0 0 8 (some demoSel.mask) [h]).loadValue h 8).2 = false
         ∧ Undisturbed s demoIssue demoSel (x.1.loadSectors g.place.core demoSel.g 0 0 0 8 (some demoSel.mask) [h]))
    ∧ ∃ h, (landing s demoIssue demoSel g { write := true } l).2 = ([], [h]) := by
  refine ⟨⟨by decide +kernel, by decide +kernel, by decide +kernel, by decide +kernel⟩, ⟨by decide +kernel, by decide +kernel, by decide +kernel⟩,
    ⟨by decide +kernel, by decide +kernel, by decide +kernel⟩, ?_, ?_⟩
  · obtain ⟨h, h1, h2⟩ := oneHit_of (p := fun s h => regionOf h.pa != 2 && !((s.loadSectors 0 0 0 0 0 8 (some demoSel.mask) [h]).loadValue h 8).2
        && decide ((s.loadSectors 0 0 0 0 0 8 (some demoSel.mask) [h]).groups
          = ((demo demoGroup).modGroup 0 (fun x => { x.advance demoIssue demoSel with regs := { (x.advance demoIssue demoSel).regs with einj := 0 } })).groups))
      (x := landing (demo demoGroup) demoIssue demoSel demoGroup { read := true } [(lowestOf demoSel.mask, effective (demoGroup.sget 20) (1#8) 8)]) (by decide +kernel)
    simp only [Bool.and_eq_true, bne_iff_ne, Bool.not_eq_true'] at h2
    exact ⟨h, h1, h2.1.1, h2.1.2, undisturbed h2.2⟩
  · obtain ⟨h, h1, -⟩ := oneHit_of (p := fun _ _ => true)
      (x := landing (demo demoGroup) demoIssue demoSel demoGroup { write := true } [(lowestOf demoSel.mask, effective (demoGroup.sget 20) (1#8) 8)]) (by decide +kernel)
    exact ⟨h, h1⟩

theorem witness_scratchpad : OperandsOk demoGroup demoSel (useLds 15 12 4) ∧ OperandsOk demoGroup demoSel (useSts 3 12 2)
    ∧ (∀ p ∈ scratchAddrs (useLds 15 12 4) demoIssue demoSel demoGroup 0#9 (sizeOf_ 4), (demo demoGroup).spot demoGroup p.2 (sizeOf_ 4) ≠ none ∧ p.2.toNat % sizeOf_ 4 = 0)
    ∧ ∀ p ∈ scratchAddrs (useSts 3 12 2) demoIssue demoSel demoGroup 3#9 (sizeOf_ 2), (demo demoGroup).spot demoGroup p.2 (sizeOf_ 2) ≠ none ∧ p.2.toNat % sizeOf_ 2 = 0 := by
  refine ⟨⟨?_, ?_, ?_⟩, ⟨?_, ?_, ?_⟩, ?_, ?_⟩ <;> decide +kernel

/-- `BarrierInstructionsComplete`: object 1 of eight (s19), and an index past them (s27); counts in s21 and s22, parities in s16 and s25. -/
theorem witness_barriers :
    let s := demo demoGroup
    let g := demoGroup
    Issues s demoIssue demoSel g ∧ Plain s demoSel g ∧ ((s.manifestOf g.place.blk).map (·.objects)).getD 0 ≤ objIndex (g.sget 21) ∧ g.trap.tmasked = false
    ∧ operandStop g demoSel.mask { ssrc := [19, 31] } = none ∧ objIndex (g.sget 19) < ((s.manifestOf g.place.blk).map (·.objects)).getD 0
    ∧ (∃ q, s.barSpot g (g.sget 19) = some q ∧ s.blockPart g.place.blk q.part ≠ none ∧ s.engineOps g.place.blk q = 0 ∧ (s.readBar g.place.blk q).phase ≠ bit (g.sget 16) 0
        ∧ (s.readBar g.place.blk q).phase = bit (g.sget 25) 0 ∧ (s.readBar g.place.blk q).pending + 3 ≤ 2 ^ 30 - 1) ∧ (g.sget 19).toNat % 32 = 0
    ∧ field 0 30 (g.sget 16) ≠ 0 ∧ field 30 2 (g.sget 16) = 0 ∧ field 33 31 (g.sget 16) = 0
    ∧ operandStop g demoSel.mask { ssrc := [19, 16], pdst := [7] } = none ∧ operandStop g demoSel.mask { ssrc := [19], sdst := [0] } = none := by
  refine ⟨demo_issues _ rfl, demo_plain, by decide +kernel, by decide, by decide +kernel, by decide +kernel, ?_, ?_⟩
  · obtain ⟨q, h1, h2⟩ := any_of (o := (demo demoGroup).barSpot demoGroup (demoGroup.sget 19)) (p := fun q => ((demo demoGroup).blockPart 0 q.part).isSome
      && (demo demoGroup).engineOps 0 q == 0 && ((demo demoGroup).readBar 0 q).phase != bit (demoGroup.sget 16) 0 && ((demo demoGroup).readBar 0 q).phase == bit (demoGroup.sget 25) 0
      && decide (((demo demoGroup).readBar 0 q).pending + 3 ≤ 2 ^ 30 - 1)) (by decide +kernel)
    simp only [Bool.and_eq_true, Option.isSome_iff_ne_none, beq_iff_eq, bne_iff_ne, decide_eq_true_eq] at h2
    exact ⟨q, h1, h2.1.1.1.1, h2.1.1.1.2, h2.1.1.2, h2.1.2, h2.2⟩
  · decide +kernel

/-- `OtherReleasesWaitAtTheGate` and `EngineOperandsAreChecked`: each operand that a release takes (s19, s22, s23, s25), and each that traps (s16, s26, s27, s0). -/
theorem witness_releases :
    let s := demo demoGroup
    let g := demoGroup
    (s.scopeValid 0 7 = true ∧ s.scopeValid 0 8 = false) ∧ (g.sget 23).toNat % 64 = 0 ∧ field 12 52 (g.sget 22) = 0 ∧ field 6 10 (g.sget 25) = 0 ∧ field 48 16 (g.sget 25) = 0
    ∧ (g.sget 22 ≠ 0 ∧ (g.sget 22).toNat ≤ 256 ∧ (g.sget 19).toNat % 32 = 0 ∧ (g.sget 19).toNat < 2 ^ 20 ∧ (g.sget 19).toNat + 32 * (g.sget 22).toNat ≤ 4096 * s.unitsOf g.place.blk)
    ∧ (g.sget 26).toNat % 64 ≠ 0 ∧ field 12 52 (g.sget 27) ≠ 0 ∧ g.sget 0 = 0 ∧ ({ demoGroup with place := { demoGroup.place with handler := false } }).place.handler = false
    ∧ operandStop g demoSel.mask { ssrc := [19, 22] } = none := by
  decide +kernel

/-- A block at a waybill stage. -/
theorem witness_stage : ∃ m, let s := { (demo demoGroup) with launches := [(0, { demoLaunch with man := m })], mem := [(0x20000, 1)] }
    Issues s demoIssue demoSel demoGroup ∧ Plain s demoSel demoGroup ∧ stageStop s demoSel demoGroup = none := by
  refine ⟨{ demoManifest with waybill := 0x1000000 }, ⟨rfl, rfl, rfl, rfl, rfl, by decide, rfl, by decide, by decide, by decide +kernel⟩, ⟨by decide +kernel, by decide +kernel, by decide +kernel⟩, by decide +kernel⟩

/-- The module with its context changed. -/
def demoWith (c : Context) : State := { (demo demoGroup) with ctxs := [(0, c)] }

/-- Traces of instruction marks go to the page 0x1000000. -/
def demoTrace : TraceCtl := { bufva := 0x1000000, log2size := 12, enable := true, kinds := 1 }

/-- The state in which `prof.mark` takes the index of its record. -/
def demoMarked : State := (demoWith { debuggable := true, trace := demoTrace }).modGroup 0 (fun x => x.advance demoIssue demoSel)

/-- Whether an answer of `takeIndex` is index 0. -/
noncomputable def tookFirst (r : State × TraceIndex) : Bool :=
  match r.2 with
  | .taken 0 => true
  | _ => false

theorem tookFirst_of {r : State × TraceIndex} (h : tookFirst r = true) : r.2 = .taken 0 := by
  unfold tookFirst at h
  split at h
  · assumption
  · cases h

/-- `GroupRegisterInstructionsAndGenerationsComplete`: a gang of no member and one past the rules, a mark that is recorded, a generation that advances and one that does not. -/
theorem witness_group_registers : Issues (demo demoGroup) demoIssue demoSel demoGroup ∧ Plain (demo demoGroup) demoSel demoGroup ∧ (demo demoGroup).scopeValid 0 7 = true
    ∧ operandStop demoGroup demoSel.mask { ssrc := [18] } = none ∧ operandStop demoGroup demoSel.mask { sdst := [31] } = none ∧ (demo demoGroup).coefficientsBusy 0 = false
    ∧ (demo demoGroup).gangFine 0 demoGroup (demoGroup.sget 18) = true ∧ (demo demoGroup).traceArmed 0 0 = false
    ∧ demoGroup.flow.outstanding.any (fun o => o.kind == .load) = false ∧ (demo demoGroup).context 0 = some { debuggable := true }
    ∧ (1#64).ult ((demo demoGroup).watermark 0 1) = false ∧ (1#64).ult ((demo { demoGroup with sched := { passed := 1 } }).watermark 0 1) = true := by
  refine ⟨demo_issues _ rfl, demo_plain, ?_⟩; decide +kernel

theorem witness_mark :
    let s := demoWith { debuggable := true, trace := demoTrace }
    Issues s demoIssue demoSel demoGroup ∧ Plain s demoSel demoGroup ∧ s.traceArmed 0 0 = true ∧ (s.context 0).map (·.trace) = some demoTrace ∧ s.hold 0 0 = {}
    ∧ (let r := demoMarked.takeIndex 0 0 demoTrace
       let p := r.1.putRecord 0 0 demoTrace 0 (traceRecord 1 demoGroup 0 (s.clkOf 0) 0x1000 (demoGroup.sget 16 &&& 0xFFFF))
       r.2 = .taken 0 ∧ p.2 = true) := by
  refine ⟨⟨rfl, rfl, rfl, rfl, rfl, by decide, rfl, by decide, by decide, by decide +kernel⟩, ⟨by decide +kernel, by decide +kernel, by decide +kernel⟩, by decide +kernel, rfl, by decide +kernel,
    tookFirst_of (by decide +kernel), by decide +kernel⟩

/-- A release at the gate of core 0. -/
def demoHeld (act : Act) (lines : List Nat) : Held :=
  { id := 7, g := 0, bundle := 0xFFFF, mask := 0xFFFF, kind := 4, scope := 1, cls := 0, pc := 0x1000, entry := demoEntry, replay := false, sw := false, lines := lines, acks := [], act := act }

/-- The module with it. -/
def demoGate (act : Act) (lines : List Nat) : State := { (demo demoGroup) with cores := [(0, { gate := [demoHeld act lines] })] }

/-- `ReleasesPerformWhenTheyMay`: each act, a release that waits, and an arrival that takes all of the pending count. -/
theorem witness_release_performs : ∀ act ∈ [Act.fence, .sig 0xFFF, .uirq 0xFFFF0000 1, .arrive 0 0 1, .svc 255, .store [{ L := 0, ptr := 0, pa := 0, size := 4, x := 1 }]],
    (demoGate act []).heldRelease 7 = some (0, demoHeld act []) ∧ (demoGate act []).group 0 = some demoGroup ∧ (demoGate act []).performable 0 (demoHeld act []) = true
      ∧ (demoGate act [5]).performable 0 (demoHeld act [5]) = false := by decide +kernel

theorem witness_release_acts : field 32 16 0xFFFF0000#64 = 0#16 ∧ field 32 16 0xFFFF00000000#64 = 0xFFFF#16 ∧ (demoHeld .fence []).bundle ≠ 0 ∧ (demo demoGroup).blockPart 0 0 ≠ none
    ∧ (let s := (demo demoGroup).writeBar 0 { part := 0, off := 0 } { pending := 1, control := 4, last := 0, acc := 0 }
       1 ≤ (s.readBar 0 { part := 0, off := 0 }).pending) ∧ regionOf 0 ≠ 2 := by decide +kernel

/-- Interrupt blocks: vector 63 deliverable, none deliverable, and a sender entry of any context. -/
def demoIrq : IrqBlock := { pending := 0x8000000000000000, mask := 0, senders := [(0, { allowed := BitVec.allOnes 64, kind := 1, num := 0xFFFF })] }

/-- `InterruptInstructionsAndArrivalsComplete`. -/
theorem witness_interrupts : Issues (demoWith { irq := demoIrq }) demoIssue demoSel demoGroup ∧ (demoWith { irq := demoIrq }).context 0 = some { irq := demoIrq } ∧ demoGroup.place.handler = true
    ∧ operandStop demoGroup demoSel.mask { sdst := [30, 31] } = none ∧ operandStop demoGroup demoSel.mask { ssrc := [16], sdst := [31] } = none
    ∧ (let ready := fun (b : IrqBlock) => b.pending &&& ~~~b.mask &&& ~~~b.inService
       ready {} = 0 ∧ ready demoIrq ≠ 0 ∧ (ready demoIrq).getLsbD 63 = true ∧ ∀ k, k < 63 → (ready demoIrq).getLsbD k = false) := by
  refine ⟨⟨rfl, rfl, rfl, rfl, rfl, by decide, rfl, by decide, by decide, by decide +kernel⟩, rfl, ?_⟩; decide +kernel

theorem witness_interrupt_senders : ({ senders := [(0, { allowed := BitVec.allOnes 64, kind := 1, num := 0 })] } : IrqBlock).accepts 63 1 0 0 = true
    ∧ ({} : IrqBlock).accepts 63 1 0 0 = false := by decide +kernel

/-- `CacheInstructionsComplete`: one sector, none, and a cacheable one. -/
theorem witness_cache : Issues (demo demoGroup) demoIssue demoSel demoGroup ∧ operandStop demoGroup demoSel.mask { ssrc := [20, 23] } = none ∧ (demoGroup.sget 23).toNat ≤ 1048576
    ∧ pointerForm (demoGroup.sget 20) = true
    ∧ (let r := ((demo demoGroup).modGroup 0 (fun y => y.advance demoIssue demoSel)).cacheRange demoGroup (demoGroup.sget 20) (demoGroup.sget 23)
       r.2.length = 1 ∧ r.2.all r.1.cacheable = true) := by
  refine ⟨demo_issues _ rfl, ?_⟩; decide +kernel

/-- `SlabLoadsAndStoresComplete`: the last slab of the block, and the one past it. -/
theorem witness_slabs : (demo demoGroup).slabsOf 0 ≤ (2#9).toNat ∧ (1#9).toNat < (demo demoGroup).slabsOf 0 ∧ (demo demoGroup).slabBusy demoGroup 1 true = false
    ∧ (∃ p, (demo demoGroup).blockPart 0 0 = some p ∧ p.slabErr = [] ∧ p.slabPoison = []) ∧ operandStop demoGroup demoSel.mask { vdst := [(0, 16)] } = none
    ∧ hazardStop demoGroup demoSel.bundle { vdst := [(0, 16)] } = none ∧ operandStop demoGroup demoSel.mask { vsrc := [{ reg := 8, cnt := 8 }] } = none
    ∧ hazardStop demoGroup demoSel.bundle { vsrc := [{ reg := 8, cnt := 8 }] } = none := by
  refine ⟨by decide +kernel, by decide +kernel, by decide +kernel, ⟨{ core := 0 }, by decide +kernel, rfl, rfl⟩, ?_⟩; decide +kernel

/-- A copy record of one row of four bytes from the page 0x1000000. -/
def demoRecord (w2 : Word64) : CopyRecord :=
  { w0 := 0x3FFF0004000100, w1 := 0x1000000, w2 := w2, w3 := 0, name := 0, g := 0, blk := 0, part := 0, ctx := 0, core := 0, chCore := 0, ch := 0 }

/-- The module with a copy record on channel 0. -/
def demoCopies (r : CopyRecord) : State := { (demo demoGroup) with copies := [(5, r)] }

/-- `CopyChannelsTakeAndCancelRecords`: an empty channel, a record to take, one that is malformed (no row). -/
theorem witness_copy_channels : (demo demoGroup).nextRecord 0 0 = none ∧ (demoCopies (demoRecord 0x2000000000000100)).nextRecord 0 0 = some (5, demoRecord 0x2000000000000100)
    ∧ (demoCopies (demoRecord 0x2000000000000100)).copyOk { demoRecord 0x2000000000000100 with active := true } = true
    ∧ (demoCopies { demoRecord 0 with w0 := 0 }).copyOk { demoRecord 0 with w0 := 0, active := true } = false
    ∧ Issues (demo demoGroup) demoIssue demoSel demoGroup ∧ operandStop demoGroup demoSel.mask { sdst := [0] } = none
    ∧ (demoRecord 0).cancel = 0 ∧ ({ demoRecord 0 with cancel := 2 }).cancel = 2 ∧ ∀ e ∈ (demoCopies (demoRecord 0)).copies, e.2.active = false ∧ e.2.remote = [] := by
  refine ⟨by decide +kernel, by decide +kernel, by decide +kernel, by decide +kernel, demo_issues _ rfl, ?_⟩; decide +kernel

/-- Whether an answer is of the right kind, and `p` holds of it. -/
def inrAny {α β : Type} (p : State → β → Bool) : State × (α ⊕ β) → Bool
  | (s, .inr y) => p s y
  | _ => false

theorem inr_of {α β : Type} {p : State → β → Bool} {x : State × (α ⊕ β)} (h : inrAny p x = true) : ∃ y, x.2 = .inr y ∧ p x.1 y = true := by
  obtain ⟨s, a | b⟩ := x
  · cases h
  · exact ⟨b, rfl, h⟩

/-- Whether an answer is of the left kind, and `p` holds of it. -/
def inlAny {α β : Type} (p : α → Bool) : State × (α ⊕ β) → Bool
  | (_, .inl y) => p y
  | _ => false

theorem inl_of {α β : Type} {p : α → Bool} {x : State × (α ⊕ β)} (h : inlAny p x = true) : ∃ y, x.2 = .inl y ∧ p y = true := by
  obtain ⟨s, a | b⟩ := x
  · exact ⟨a, rfl, h⟩
  · cases h

/-- The record in progress. -/
def demoActive (w2 : Word64) : CopyRecord := { demoRecord w2 with active := true }

/-- `CopySegmentsMoveAndCredit`: to scratchpad. -/
theorem witness_segment_scratch :
    let r := demoActive 0x2000000000000100
    let s := demoCopies r
    s.activeOn 0 0 = some (5, r) ∧ r.held = false ∧ r.remote = [] ∧ Tab.get? 5 s.copies = some r ∧ scratchForm r.w2 = true ∧ r.bar = 0x3FFF
    ∧ ∃ y p, (s.copySource r).2 = .inr y ∧ peerPieces y.2 = [] ∧ (s.copySource r).1.copySpot r r.w2 (r.dstOffset r.row + r.col) 4 = some p ∧ s.blockPart r.blk p.part ≠ none := by
  refine ⟨by decide +kernel, rfl, rfl, by decide +kernel, by decide +kernel, by decide +kernel, ?_⟩
  obtain ⟨y, h1, h2⟩ := inr_of (x := (demoCopies (demoActive 0x2000000000000100)).copySource (demoActive 0x2000000000000100))
    (p := fun s y => (peerPieces y.2).isEmpty && (s.copySpot (demoActive 0x2000000000000100) 0x2000000000000100 0 4).any
      (fun p => ((demoCopies (demoActive 0x2000000000000100)).blockPart 0 p.part).isSome)) (by decide +kernel)
  simp only [Bool.and_eq_true, List.isEmpty_iff] at h2
  obtain ⟨p, h3, h4⟩ := any_of h2.2
  exact ⟨y, p, h1, h2.1, h3, Option.isSome_iff_ne_none.mp h4⟩

/-- The same: to memory, with the credit of a byte-count object, and a source that is not mapped. -/
theorem witness_segment_memory :
    let r := demoActive 0x1000040
    let s := demoCopies r
    s.activeOn 0 0 = some (5, r) ∧ scratchForm r.w2 = false ∧ r.kind < 4
    ∧ ∃ y l, (s.copySource r).2 = .inr y ∧ peerPieces y.2 = []
      ∧ ((s.copySource r).1.landPieces r.chCore r.ctx { write := true } (pieces (plusPtr r.w2 (r.dstOffset r.row + r.col)) 4)).2 = .inr l ∧ peerPieces l = []
      ∧ ((s.copySource r).1.landPieces r.chCore r.ctx { write := true } (pieces (plusPtr r.w2 (r.dstOffset r.row + r.col)) 4)).1.destBusy r l = false := by
  refine ⟨by decide +kernel, by decide +kernel, by decide +kernel, ?_⟩
  obtain ⟨y, h1, h2⟩ := inr_of (x := (demoCopies (demoActive 0x1000040)).copySource (demoActive 0x1000040))
    (p := fun s y => (peerPieces y.2).isEmpty && inrAny (fun u l => (peerPieces l).isEmpty && !u.destBusy (demoActive 0x1000040) l) (s.landPieces 0 0 { write := true } (pieces (plusPtr 0x1000040 0) 4))) (by decide +kernel)
  simp only [Bool.and_eq_true, List.isEmpty_iff] at h2
  obtain ⟨l, h3, h4⟩ := inr_of h2.2
  simp only [Bool.and_eq_true, List.isEmpty_iff, Bool.not_eq_true'] at h4
  exact ⟨y, l, h1, h2.1, h3, h4.1, h4.2⟩

theorem witness_segment_fault : ∃ c, ((demoCopies { demoActive 0x1000040 with w1 := 0x5000000 }).copySource { demoActive 0x1000040 with w1 := 0x5000000 }).2 = .inl c ∧ c.code ≠ 0x2704 := by
  obtain ⟨c, h1, h2⟩ := inl_of (x := (demoCopies { demoActive 0x1000040 with w1 := 0x5000000 }).copySource { demoActive 0x1000040 with w1 := 0x5000000 })
    (p := fun c => c.code != 0x2704) (by decide +kernel)
  exact ⟨c, h1, bne_iff_ne.mp h2⟩

/-- A task whose manifest stands at 0x1000000, its parameters at 0x1000100 and its record at 0x1000200. -/
def demoTask : Task := { record := 0x1000200, manifest := 0x1000000, params := 0x1000100, counter := 9, signal := none }

/-- A context with a counter that waits for one signal and one that waits for two, and one task. -/
def demoTasks : Context := { debuggable := true, saveSize := 0x100000, counters := [(0, { count := 2, slot := 0 }), (4095, { count := 1, slot := 1023 })], tasks := [(1023, demoTask)] }

/-- The module with it, and a manifest of one block with one role of one group in memory. -/
def demoDispatch : State :=
  { demoWith demoTasks with mem := storeBytes (storeBytes [] 0x20000 19 0x01010000000000000000010000000100000001) 0x20040 6 0x200000100101 }

/-- Whether a check passes. -/
def passes (r : Except Nat (Manifest × List Word64)) : Bool :=
  match r with
  | .ok _ => true
  | .error _ => false

theorem passes_of {r : Except Nat (Manifest × List Word64)} : (passes r = true → ∃ m l, r = .ok (m, l)) ∧ (passes r = false → ∃ e, r = .error e) := by
  constructor
  · intro h
    cases r with
    | ok x => exact ⟨x.1, x.2, rfl⟩
    | error e => cases h
  · intro h
    cases r with
    | ok x => cases h
    | error e => exact ⟨e, rfl⟩

/-- `CountersReleaseTasks`: a counter with one and with two signals to come, a task that passes and one that fails its check, and a record that can be read, with a free counter. -/
theorem witness_counters : demoDispatch.context 0 = some demoTasks ∧ Tab.get? 1 demoTasks.counters = none ∧ Tab.get? 4095 demoTasks.counters = some { count := 1, slot := 1023 }
    ∧ Tab.get? 0 demoTasks.counters = some { count := 2, slot := 0 } ∧ Tab.get? 1023 demoTasks.tasks = some demoTask ∧ Tab.get? 0 demoTasks.tasks = none
    ∧ (∃ m l, demoDispatch.checkManifest 0 demoTask = .ok (m, l)) ∧ (∃ e, (demoWith demoTasks).checkManifest 0 demoTask = .error e) := by
  refine ⟨rfl, by decide, by decide, by decide, by decide, by decide, passes_of.1 (by decide +kernel), passes_of.2 (by decide +kernel)⟩

theorem witness_post : demoDispatch.readVirt (demoDispatch.homeDie 0) 0 (virtOf 0x1000200) 64 = .ok 0 ∧ bytesAt 0 16 2 < 4096 ∧ bytesAt 0 20 2 / 4096 % 8 = 0 ∧ bytesAt 0 22 42 = 0
    ∧ Tab.get? 1 demoTasks.counters = none ∧ bytesAt 0 18 2 = 0 ∧ bytesAt (2 ^ 144) 18 2 ≠ 0 := by
  have h : ∀ r : Except Nat Nat, (match r with
      | .ok x => x == 0
      | .error _ => false) = true → r = .ok 0 := by
    intro r h
    cases r with
    | ok x => rw [beq_iff_eq.mp h]
    | error e => cases h
  refine ⟨h _ (by decide +kernel), ?_⟩; decide +kernel

/-- A group in a gang of itself and one more, and a group in none. -/
def demoGang : Group := { demoGroup with regs := { demoGroup.regs with gang := 2, gangIdx := [0, 1] } }

/-- Its partner on the next partition. -/
def demoPartner : Group := { demoGang with place := { demoGang.place with gidx := 1, part := 1 } }

/-- An operation of the gang of both: function `fn`, descriptor in s28, its members arrived. -/
def demoOp (running : Bool) (fn : BitVec 4) : MxOp :=
  let entry := { demoEntry with word := fn ++ 0#6 ++ 0#6 ++ 28#8 ++ 0xF9#8 }
  { blk := 0, part := 0, ctx := 0, core := 0, members := [0, 1], running := running
    arrived := [{ g := 0, bundle := 0xFFFF, entry := entry, gang := 2, d0 := 0xFFFC000000000000 }, { g := 1, bundle := 0xFFFF, entry := entry, gang := 2, d0 := 0xFFFC000000000000 }] }

/-- The module with both groups and the operation. -/
def demoMx (o : MxOp) : State := { (demo demoGroup) with groups := [(0, demoGang), (1, demoPartner)], mxops := [(4, o)] }

/-- The module with both groups and two operations. -/
def demoMxs (o p : MxOp) : State := { demoMx o with mxops := [(4, o), (5, p)] }

/-- `MatrixInstructionsArriveAndRun`: a group in a gang and one in none; a rendezvous that is complete and one that waits; an operation that runs. -/
theorem witness_matrix : Issues (demo demoGroup) demoIssue demoSel demoGroup ∧ Plain (demo demoGroup) demoSel demoGroup ∧ gangCount demoGroup.regs.gang = 0 ∧ demoGroup.trap.tmasked = false
    ∧ Issues (demo demoGang) demoIssue demoSel demoGang ∧ gangCount demoGang.regs.gang ≠ 0 ∧ Tab.get? 4 (demoMx (demoOp false 0)).mxops = some (demoOp false 0)
    ∧ (demoMx (demoOp false 0)).mxReady 4 (demoOp false 0) = true ∧ (demoMx { demoOp false 0 with members := [0, 9] }).mxReady 4 { demoOp false 0 with members := [0, 9] } = false
    ∧ (demoMx (demoOp false 0)).gangCounts (demoOp false 0) = true ∧ (demoMx (demoOp true 0)).gangCounts (demoOp true 0) = false
    ∧ (demoMx (demoOp true 0)).mxBehind (demoOp true 0) = false ∧ (demoOp true 0).begun = false ∧ ({ demoOp true 0 with begun := true }).begun = true ∧ (demo demoGroup).unfinished 0 demoGroup 1 = false
    ∧ (demoMxs { demoOp true 0 with seq := 1 } { demoOp true 0 with seq := 2 }).mxBehind { demoOp true 0 with seq := 2 } = true
    ∧ (demoMxs { demoOp true 5 with seq := 1 } { demoOp true 0 with seq := 2 }).mxops.any (fun e => e.2.running && e.2.behind { demoOp true 5 with seq := 1 }) = true
    ∧ (demoMx (demoOp true 5)).mxops.any (fun e => e.2.running && e.2.behind (demoOp true 5)) = false ∧ (∃ p, (demoMx (demoOp true 0)).blockPart 0 0 = some p ∧ p.slabErr = []) := by
  refine ⟨demo_issues _ rfl, demo_plain, by decide, by decide, demo_issues _ rfl, by decide, by decide +kernel, by decide +kernel, by decide +kernel, by decide +kernel, by decide +kernel,
    by decide +kernel, rfl, rfl, by decide +kernel, by decide +kernel, by decide +kernel, by decide +kernel, { core := 0 }, by decide +kernel, rfl⟩

/-- The same: the check passes for `acc.zero` and `mma`, and fails for a reserved function; what completes in the array, and an iteration that a save stops. -/
theorem witness_matrix_checks : (∀ fn ∈ [0#4, 6#4], (demoMx (demoOp false fn)).mxCheck ((demoMx (demoOp false fn)).readDescriptors (demoOp false fn)) = none)
    ∧ ((demoMx (demoOp false 5)).mxCheck ((demoMx (demoOp false 5)).readDescriptors (demoOp false 5))).isSome = true
    ∧ (demoOp true 0).stopped = false ∧ (demoOp true 0).desc.bar = 0x3FFF ∧ (demoOp true 6).desc.fn = 6 ∧ (demoOp true 1).desc.fn = 1
    ∧ (demoOp true 1).desc.lookups (demoOp true 1).edge = [] ∧ (demoOp true 5).desc.fn = 5 ∧ (demoOp true 0).desc.iterates = false
    ∧ (demoOp true 4).desc.fn = 4 ∧ (demoOp true 4).desc.count = 0 ∧ (demoOp true 4).progress.phase = 0 := by
  decide +kernel

/-- The same: a divergence that is pending, for the threads that wait in `gbar`. -/
theorem witness_divergence : ∃ m pc, let g := { demoGroup with threads := List.replicate 16 { demoThread with wait := .gbar }, trap := { divergePending := true } }
    g.trap.divergePending = true ∧ g.st = .resident ∧ g.trap.held = false ∧ g.trap.tmasked = false ∧ g.divergeBundle = some (m, pc) :=
  ⟨0xFFFF, 0xFFC, by decide +kernel, by decide +kernel, by decide +kernel, by decide +kernel, by decide +kernel⟩

/-- `CheckersHandleTheirEvents`: an event without and with an earlier one that its stamp shows out of order. -/
def demoEvent (id kind : Nat) (stamp : Option (BitVec 96)) : MemEvent := { id := id, g := 0, mask := 1, kind := kind, scope := 5, line := some 0x200, locs := [(0x20000, 4)], stamp := stamp }

/-- The module with events in the reorder checker of core 0. -/
def demoEvents (l v : List MemEvent) : State := { (demo demoGroup) with cores := [(0, { events := l, verified := v })] }

/-- Whether a stamp shows a pair out of order whose groups exist, with a line to contain. -/
def breaksAt (s : State) (core : Nat) (e : MemEvent) : Bool :=
  let c := (s.coreAt core).verify e
  (s.orderBroken core e).any (fun p => (s.group p.2.g).isSome && (findingLine (c.events ++ c.verified) p.1 p.2).isSome)

theorem witness_stamps :
    let s := demoEvents [demoEvent 2 0 none] [demoEvent 1 2 (some 0x000000000001000000090000)]
    let late := demoEvents [demoEvent 1 2 (some 0x000000000001000000090000), demoEvent 2 0 none] []
    (s.coreAt 0).events.find? (fun x => x.id == 2) = some (demoEvent 2 0 none)
    ∧ (demoEvents [demoEvent 2 0 none] []).orderBroken 0 { demoEvent 2 0 none with stamp := some 5 } = none
    ∧ breaksAt s 0 { demoEvent 2 0 none with stamp := some 0x000000000001000000010000 } = true
    ∧ s.stampLate 0 (demoEvent 2 0 none) = false ∧ ({ late with logical := [(reorderAgent 0, 0x10000000000)] }).stampLate 0 (demoEvent 2 0 none) = true := by
  decide +kernel

/-- The same: a line with records that agree, with two writers of one interval, with one that is overdue, and with none; a release that has asked for its number. -/
theorem witness_records :
    let r : IntervalRecord := { hash := 1, interval := 1, edge := false, role := 1, sect := 1, line := 0 }
    let old := { (demo demoGroup) with lines := [(0, { pending := [{ agent := 0, rec_ := r, home := r }] })] }
    ({ pending := [{ agent := 0, rec_ := r, home := r }] } : Line).disagreement (fun _ => true) = none
    ∧ ({ pending := [{ agent := 0, rec_ := r, home := r }, { agent := 1, rec_ := r, home := r }] } : Line).disagreement (fun _ => true) ≠ none ∧ ((demo demoGroup).line 0).pending = []
    ∧ old.overdue 0 = none ∧ ({ old with clocks := checkerTimeout }).overdue 0 ≠ none
    ∧ ((demo demoGroup).line 0).contained = none
    ∧ (let h := { demoHeld .fence [] with sc := true, asked := true }
       let s := { (demo demoGroup) with cores := [(0, { gate := [h] })] }
       s.heldRelease 7 = some (0, h) ∧ h ∈ (s.coreAt 0).gate ∧ h.seq = none ∧ ∀ h ∈ (s.coreAt 0).gate, h.early = false) := by
  decide +kernel

/-- `CachesAndMemoryEnginesAct`: a line that is contained and one that is not; a walk that finds a leaf and one that fails; a page being zeroed; a scale that a window gives. -/
def demoWindow : Window := { base := 0x100000, limit := 0x200000, scale := 0x300000, ctl := 0x709 }

/-- Whether a walk finds a leaf. -/
def found (r : Except TFault Leaf) : Bool :=
  match r with
  | .ok _ => true
  | .error _ => false

theorem found_of {r : Except TFault Leaf} : (found r = true → ∃ l, r = .ok l) ∧ (found r = false → ∃ f, r = .error f) := by
  constructor
  · intro h
    cases r with
    | ok x => exact ⟨x, rfl⟩
    | error e => cases h
  · intro h
    cases r with
    | ok x => cases h
    | error e => exact ⟨e, rfl⟩

theorem witness_engines : (demo demoGroup).keepsLine 3 = false ∧ (∀ i ∈ [0, 1, 2, 3], (demo demoGroup).engineOwns (12 + i) = false ∧ (demo demoGroup).pinHolder (12 + i) = none)
    ∧ (let s := { (demo demoGroup) with cores := [(2, { l1 := [{ line := 12, st := .s }] })], lines := [(3, { owners := [] })] }
       (s.coreAt 2).l1Line 12 ≠ none ∧ 2 ∈ s.recallTargets 12)
    ∧ (({ (demo demoGroup) with lines := [(3, { contained := some { code := 0x4901, interval := 0, scope := 0, prior := 0, kindY := 0, injected := false } })] }).keepsLine 3) = true
    ∧ ((∃ l, (State.reset.withFetchWord 32 0).walk 1 (4096 * 16) = .ok l) ∧ ∃ f, (State.reset.withFetchWord 32 0).walk 1 (4096 * 17) = .error f)
    ∧ Tab.get? 9 (({ (demo demoGroup) with zeroing := [(9, (0x2000, 0x900F))] }).zeroing) = some (0x2000, 0x900F)
    ∧ (1048575 < 2 ^ 20 ∧ (demo demoGroup).scaleAddr 0 7 0 = none) ∧ (({ (demo demoGroup) with windows := [(15, demoWindow)] }).scaleAddr 0 7 0).isSome = true := by
  refine ⟨by decide +kernel, by decide +kernel, by decide +kernel, by decide +kernel, ⟨found_of.1 (by decide +kernel), found_of.2 (by decide +kernel)⟩, by decide +kernel, by decide +kernel, by decide +kernel⟩

/-- The same: a sector without an error, with a corrected and with an uncorrected one. -/
theorem witness_scrub :
    let s := { (demo demoGroup) with sectors := [(1, { ecc := some .corrected }), (2, { ecc := some .misdirected })] }
    (s.sector 0).ecc = none ∧ (s.sector 1).ecc = some .corrected ∧ s.dirtyInL2 1 = false ∧ (s.sector 2).ecc ≠ none ∧ (s.sector 2).ecc ≠ some .corrected ∧ s.dirtyInL2 2 = false := by
  decide +kernel

/-- A role of one group of 64 threads with 64 registers, and a manifest with it. -/
def demoRole : Role := { wcode := 3, groups := 1, base := 64, xmax := 0, gang := false, handler := false, paired := false, redundant := false, ucount := 32, entry := 0, vec := 0 }
def demoKernel : Manifest := { demoManifest with slack := 0, roles := [demoRole] }

/-- A context whose work may run on die 0, with a save area of four megabytes. -/
def demoOwner (priority : Nat) : Context := { priority := priority, dieMask := 1, saveBase := 0x800000, saveSize := 0x400000 }

/-- The module with a launch ready on die 0, and block 7 of it in the queue of cluster 0. -/
def demoLaunched : State :=
  { ctxs := [(0, demoOwner 0)], launches := [(0, { demoLaunch with man := demoKernel })], dies := [(0, { ready := [0] })]
    blks := [(7, { demoBlock with st := .queued, parts := [] })], queues := [(0, [7])] }

/-- `LaunchesRunAsBlocks`: a launch with a cluster to deal to, and with none; a block that can be placed, and an empty queue. -/
theorem witness_launches : (∃ l i k, demoLaunched.dealtLaunch 0 = some (0, l) ∧ demoLaunched.nextCluster (maskClusters (demoLaunched.dieMaskOf l.ctx)) l.turn = some (i, k))
    ∧ ({ demoLaunched with queues := (List.range 12).map (fun k => (k, List.replicate 64 7)) }).nextCluster (maskClusters 1) 0 = none
    ∧ demoLaunched.returnsFirst 0 = none ∧ (∃ x, demoLaunched.nextPlaced 0 = some x ∧ x.2.2.2.1.rear.isNone = true)
    ∧ ({ demoLaunched with queues := [] }).nextPlaced 0 = none := by
  refine ⟨?_, by decide +kernel, by decide +kernel, any_of (by decide +kernel), ?_⟩
  · obtain ⟨x, hx⟩ := some_of (o := demoLaunched.nextCluster (maskClusters 1) 0) (by decide +kernel)
    exact ⟨{ demoLaunch with man := demoKernel }, x.1, x.2, by decide +kernel, hx⟩
  · have h : (({ demoLaunched with queues := [] }).nextPlaced 0).isNone = true := by decide +kernel
    exact Option.isNone_iff_eq_none.mp h

/-- The module with the block in a state, and its group in one. -/
def demoEnding (st : BlockState) (g : Group) : State := { (demo g) with blks := [(0, { demoBlock with st := st })], launches := [(0, { demoLaunch with ended := 1 })] }

/-- The same: blocks that become resident, end, and do neither; a group that can end, and one that cannot. -/
theorem witness_blocks : (demoEnding .placing demoGroup).blk 0 = some { demoBlock with st := .placing } ∧ demoBlock.twin = none
    ∧ (demoEnding .resident { demoGroup with st := .ended }).blockEndReady 0 = true ∧ (demoEnding .resident demoGroup).blockEndReady 0 = false
    ∧ Tab.get? 0 (demoEnding .resident demoGroup).launches = some { demoLaunch with ended := 1 } ∧ ((demoEnding .resident demoGroup).context 0).any (·.live) = true
    ∧ demoManifest.gridSize ≤ 1 + 1 ∧ 0 + 1 < demoManifest.gridSize ∧ (demo demoGroup).endReady 0 demoGroup = false
    ∧ (let g := { demoGroup with threads := List.replicate 16 { demoThread with exited := true } }
       (demo g).endReady 0 g = true) := by decide +kernel

/-- Core 0 has one partition in service, full of two groups of low priority; the other cores' scratchpads are held; a block of high priority needs a core. -/
def demoCrowded : State :=
  let g : Group := { place := { ctx := 1, blk := 0, wcode := 3, base := 64, rows := [0, 1, 2, 3], record := 0x800000 }, threads := List.replicate 64 {} }
  { ctxs := [(0, demoOwner 0), (1, { demoOwner 5 with saveBase := 0x1000000 })]
    launches := [(0, { demoLaunch with ctx := 1, man := demoKernel }), (1, { demoLaunch with man := { demoKernel with units := 128 } }), (2, { demoLaunch with man := demoKernel })]
    blks := [(0, { demoBlock with ctx := 1, parts := [] }), (2, { demoBlock with launch := 2, parts := (List.range 47).map (fun k => { core := k + 1 }) }),
             (7, { demoBlock with launch := 1, st := .queued, parts := [] })]
    queues := [(0, [7])], groups := [(0, g), (1, { g with place := { g.place with rows := [4, 5, 6, 7] } })], fenced := (List.range 16).drop 1 }

/-- `WorkIsSavedAndReturns`: a head that fits nowhere and the groups chosen for it; a queue without a head. -/
theorem witness_eviction : (∃ e, demoCrowded.stuckHead 0 = some e) ∧ demoCrowded.room = none
    ∧ (∃ e, (demoCrowded.victimCores 1 0).findSome? (fun c => (demoCrowded.evictionSet 7 { demoBlock with launch := 1, st := .queued, parts := [] } { demoKernel with units := 128 } c).map (fun x => (c, x))) = some e
        ∧ e.2.2.isEmpty = true) ∧ ∃ n ∈ [0, 1], ∃ g, demoCrowded.group n = some g ∧ g.st = .resident ∧ demoCrowded.convoyOf n = none := by
  refine ⟨some_of (by decide +kernel), rfl, any_of (by decide +kernel), 1, by decide, _, rfl, rfl, by decide +kernel⟩

/-- A group in a state, alone in a small module. -/
def demoAway (st : GroupState) : Group := { demoGroup with st := st, place := { demoGroup.place with record := 0x900000 } }

/-- The same: saves that are ready and not, a block saved whole, a group that returns, restores with and without a damaged record. -/
theorem witness_saves : (∀ kind ∈ [0, 1, 2], (demo (demoAway (.saving kind))).saveReady 0 (demoAway (.saving kind)) = true) ∧ (demoAway (.saving 0)).live ≠ 0
    ∧ ((demo demoGroup).coreAt 0).written0 = [] ∧ (demo { demoBusy with st := .saving 0 }).saveReady 0 { demoBusy with st := .saving 0 } = false
    ∧ (demoEnding .saving (demoAway .saved)).blockSaveReady 0 { demoBlock with st := .saving } = true ∧ (demoEnding .saving demoGroup).blockSaveReady 0 { demoBlock with st := .saving } = false
    ∧ ((demo (demoAway .saved)).nextReturn 0).isSome = true := by
  decide +kernel

theorem witness_restore : (demo (demoAway .restoring)).vitalError (demoAway .restoring) = none
    ∧ (let s := { (demo (demoAway .restoring)) with sectors := [(0x900000 / 64, { poison := true })] }
       s.vitalError (demoAway .restoring) ≠ none)
    ∧ (let y := (demo (demoAway .restoring)).poisonWords ((demoAway .restoring).load [])
       y.trap.nested = none ∧ y.trap.held = false ∧ y.flow.late = [] ∧ ((demo (demoAway .restoring)).blk 0).any (fun b => b.st == .saving) = false
       ∧ ((demo (demoAway .restoring)).part 0).xqueue = []) := by
  refine ⟨by decide +kernel, by decide +kernel, by decide +kernel⟩

/-- A group whose threads all wait in `xreg.acq`, first in the queue of its partition for more than the lanes hold. -/
def demoStarved : Group := { demoGroup with threads := List.replicate 16 { demoThread with wait := .xregAcq } }
def demoDeadlock : State := { demoQueued 4096 with groups := [(0, demoStarved)] }

/-- `SchedulerEventsComplete`. -/
theorem witness_scheduler : (demo demoGroup).deadlocked 0 = false ∧ demoDeadlock.deadlocked 0 = true ∧ (demoDeadlock.part 0).xqueue = [] ++ [{ g := 0, bundle := 0xFFFF, n := 4096, entry := demoEntry }]
    ∧ demoDeadlock.group 0 = some demoStarved ∧ demoStarved.runOn 0xFFFF = none ∧ demoStarved.trap.tmasked = false ∧ (∀ c ∈ [0, 1], (demo demoGroup).traceArmed c 1 = false)
    ∧ (let s := { (demo demoGroup) with cores := [(0, { trace := [(0, { waiting := true })] })] }
       Tab.keys (s.coreAt 0).trace = [0] ∧ (s.hold 0 0).waiting = true) ∧ Tab.keys ((demo demoGroup).coreAt 0).trace = [] := by decide +kernel

/-- The same: a sample that is recorded, a held record whose page is back, and one whose page stays away. -/
theorem witness_samples :
    let s := demoWith { debuggable := true, trace := { demoTrace with kinds := 2 } }
    let held := fun (s : State) => s.setHold 0 0 { held := [(some 3, 0)], waiting := true }
    let away := demoWith { debuggable := true, trace := { demoTrace with bufva := 0x5000000 } }
    Tab.keys s.ctxs = [0] ∧ s.traceArmed 0 1 = true ∧ s.hold 0 0 = {} ∧ s.groups = [(0, demoGroup)] ∧ demoGroup.partIndex = 0 ∧ demoGroup.lowThread = some 0
    ∧ tookFirst (s.takeIndex 0 0 demoTrace) = true
    ∧ ((s.takeIndex 0 0 demoTrace).1.putRecord 0 0 demoTrace 0 (traceRecord 2 demoGroup 0 (s.clkOf 0) 0x1000 0xFFFF)).2 = true
    ∧ Tab.keys ((held s).coreAt 0).trace = [0] ∧ (held s).hold 0 0 = { held := [(some 3, 0)], waiting := true }
    ∧ (((held s).setHold 0 0 {}).putRecord 0 0 demoTrace 3 0).2 = true
    ∧ (((held away).setHold 0 0 {}).putRecord 0 0 { demoTrace with bufva := 0x5000000 } 3 0).2 = false := by decide +kernel

/-- An entry of a compare buffer, with its word. -/
def demoCompare (word : BitVec 32) : CompareEntry :=
  { sig := { word := word, mask := 1, addrs := [], data := [] }, pc := 0x1000, bundle := 1, mask := 1, kind := 1, scope := 0, sw := false, entry := demoEntry, act := .store [] }

/-- A convoy of groups 0 and 1 with an entry of the lead, and one of the rear. -/
def demoConvoy (rear : Option CompareEntry) : Convoy :=
  { lead := 0, rear := 1, slack := 8, held := [demoCompare 5], rearEntry := rear, retries := 1, snapLead := some demoGroup, snapRear := some demoGroup }

/-- The module with it. -/
def demoConvoyed (c : Convoy) : State := { (demo demoGroup) with groups := [(0, demoGroup), (1, demoPartner)], convoys := [(0, c)] }

/-- `ConvoysCompareAndRetry`: entries that match and that differ, a rear that is late, a convoy that is set back, with both snapshots. -/
theorem witness_convoys : (∀ e ∈ [demoCompare 5, demoCompare 6], (demoConvoyed (demoConvoy (some e))).convoy 0 = some (demoConvoy (some e))
      ∧ (demoConvoyed (demoConvoy (some e))).comparable (demoConvoy (some e)) = true) ∧ (demoCompare 5).sig ≠ (demoCompare 6).sig
    ∧ (demoConvoyed (demoConvoy none)).group 0 = some demoGroup ∧ (demoConvoyed (demoConvoy none)).group 1 = some demoPartner
    ∧ (demoConvoyed (demoConvoy none)).comparable (demoConvoy none) = false ∧ (demoConvoyed (demoConvoy none)).convoyCounts (demoConvoy none) = true
    ∧ (demoConvoyed (demoConvoy (some (demoCompare 5)))).convoyCounts (demoConvoy (some (demoCompare 5))) = false ∧ (demoConvoy none).retries < 2 ∧ (demoConvoy none).nonStore = false
    ∧ (demoConvoyed { demoConvoy none with retrying := true }).retryReady { demoConvoy none with retrying := true } = true
    ∧ (demoConvoyed (demoConvoy none)).retryReady (demoConvoy none) = false ∧ (demoConvoy none).evicting = false
    ∧ ((demoConvoyed (demoConvoy none)).part 0).xqueue = [] ∧ ((demoConvoyed (demoConvoy none)).part 1).xqueue = [] := by decide +kernel

/-- A group that is off its core with thread 3 in a service call, and one call in the request ring. -/
def demoCaller : Group := { demoGroup with st := .offCore, threads := demoGroup.threads.set 3 { demoThread with wait := .svc, waitOn := 1, pc := 0x1004 } }
def demoCall (n : Nat) (args : List (Nat × List Word32)) : RingEntry := { seq := 6, ctx := 0, g := 0, n := n, mask := 8, pc := 0x1000, args := args }
def demoRing (l : List RingEntry) (used : List Nat) : State := { (demo demoCaller) with slices := [(0, { ring := l, ringWait := used })] }

/-- `ServiceCallsAreAppendedAndAnswered`: a group with a call to append, a ring with and without room. -/
theorem witness_ring : demoCaller.st = .offCore ∧ demoCaller.sched.returning = false ∧ demoCaller.waiting .svc = 8 ∧ ((demoRing [] []).slice 0).ring = [] ∧ ((demoRing [] []).slice 0).ringWait = []
    ∧ ((demoRing [] []).slice 0).ringUsed + (callEntry {} 0 demoCaller).size ≤ 2 ^ 20
    ∧ 2 ^ 20 < ({ ring := List.replicate 500 (demoCall 1 (List.replicate 64 (0, []))) } : Slice).ringUsed + (callEntry {} 0 demoCaller).size
    ∧ ((demoRing [] [0]).slice 0).ringWait = [0] ∧ (demoRing [] []).convoyOf 0 = none := by decide +kernel

/-- The same: calls of each kind at the head of the ring; the arguments of call 1 and of call 3. -/
theorem witness_calls : (∀ n ∈ [0, 1, 2, 3, 4, 127, 128, 255], (demoRing [demoCall n [(3, [0, 0, 6, 0, 0, 0, 0, 0])]] []).callOf 0 = some (0, demoCall n [(3, [0, 0, 6, 0, 0, 0, 0, 0])])
      ∧ ((demoRing [demoCall n [(3, [0, 0, 6, 0, 0, 0, 0, 0])]] []).slice 0).nextCall.map (·.seq) = some 6 ∧ (demoRing [demoCall n []] []).convoyOf 0 = none ∧ (demoCall n []).forwarded = [] ∧ (demoCall n []).results = [])
    ∧ argOf (3, [0, 0, 6, 0, 0, 0, 0, 0]) 0 = 0 ∧ exchangeOk (3, [0, 0, 6, 0, 0, 0, 0, 0]) = false ∧ exchangeOk (3, [4096, 3, 0, 0, 0, 0, 0, 0]) = true := by decide +kernel

/-- The same: an allocation that succeeds. -/
theorem witness_allocation :
    let s := { demoLaunched with ctxs := [(0, { demoOwner 0 with table := 0x200000 })] }
    s.context 0 = some { demoOwner 0 with table := 0x200000 } ∧ ((s.allocate 0 1 6).2).getLsbD 63 = false := by decide +kernel

/-- `EventsReachTheHostAndAreDisposedOf`: the queue enabled with room and an entry, and without; records that hold a group, escalated it, or hold nothing. -/
def demoEventRecord (grp : Option Nat) : EventRecord :=
  { seq := 0, owner := 1, code := 0x3602, cls := 4, disp := 0, path := 0, ctx := 0, info := 0, clk := 0, detail := 0, grp := grp }
def demoLogged (g : Group) (grp : Option Nat) : State := { (demo g) with slices := [(0, { log := [demoEventRecord grp] })] }

theorem witness_dispositions :
    (let g := { demoGroup with trap := { held := true } }
     (demoLogged g (some 0)).eventRecord 0 = some (demoEventRecord (some 0)) ∧ (demoLogged g (some 0)).group 0 = some g ∧ g.trap.heldSeq = 0 ∧ g.st = .resident)
    ∧ (let g := { demoGroup with st := .escalated }
       (demoLogged g (some 0)).group 0 = some g ∧ g.trap.held = false ∧ g.trap.heldSeq = 0) ∧ (demoEventRecord none).disp = 0 ∧ (demoEventRecord none).owner ≠ 2
    ∧ (let r := { demoEventRecord none with ctx := 1 }
       let s := { (demo demoGroup) with slices := [(0, { log := [r] })], ctxs := [(1, {})] }
       s.eventRecord 0 = some r ∧ r.disp = 0 ∧ r.grp = none ∧ r.ctx ≠ 0xFFFF ∧ r.ctx ≠ 0 ∧ s.context r.ctx.toNat = some {})
    ∧ (demoLogged demoGroup none).eventRecord 0 = some (demoEventRecord none) ∧ (demoLogged demoGroup none).eventRecord 1 = none ∧ (demoLogged demoGroup none).copies = [] := by decide +kernel

theorem witness_heq :
    let s := { (demo demoGroup) with host := { heqCtl := 0x60001, heqHeld := [{ kind := 3, ctx := 0, body := 0, cls := 4, key := some 0 }] } }
    s.host.heqHeld ≠ [] ∧ s.heqReady = true ∧ s.host.msixMasked 0 = true ∧ ({ msixTable := [(1, 0x100000000)] } : HostSide).msixMasked 0 = false ∧ (demo demoGroup).heqReady = false := by decide +kernel

/-! Mailbox queues: the record `x` at HEAD of queue `q`, bound to a context, of a class. -/

/-- A queue that is enabled with 64 entries and one record. -/
def demoBox (ctx : Nat) (cls : Nat) : Mailbox := { ctl := BitVec.ofNat 64 (0x60001 + 2 ^ 24 * cls + 2 ^ 32 * ctx), tail := 1 }
def demoMail (q : Nat) (x : Nat) (m : Mailbox) : State :=
  { (demo demoGroup) with mem := storeBytes [] (2 ^ 48) 64 x, host := { queues := [(q, m)] }, ctxs := [(0, { debuggable := true, table := 0x200000 })], plat := { ready := true, perst := false, phase := 5 } }

/-- The record is the next to be applied, of its kind, in a live context, and well-formed. -/
def appliesNow (s : State) (q kind code : Nat) : Bool :=
  s.mailboxReady q && s.recordTag q == (kind, code) && !(s.mailbox q).overrun && !(s.mailbox q).dead && (s.context (s.mailbox q).ctx).any (·.live) && recordOk (s.record q)

/-- A record of a kind with a pointer at +8 and a length at +4. -/
def demoRec (kind len ptr : Nat) : Nat := kind + 2 ^ 32 * len + 2 ^ 64 * ptr
/-- A record of kind 7 with a request code and data from +32. -/
def demoReq (code data : Nat) : Nat := 7 + 2 ^ 192 * code + 2 ^ 256 * data

/-- `QueueRegistersTakeTheirWrites`: the last queue, with and without an overrun, and a device that is busy. -/
theorem witness_queue_registers : 255 < 256 ∧ (demoBox 0 0).en = true ∧ (demoBox 0 0).halted = false ∧ 2 ^ (demoBox 0 0).log2n < (field 0 32 65#64 - (demoBox 0 0).head).toNat
    ∧ ({} : Mailbox).en = false ∧ ({} : HostSide).busy = false ∧ ({ queues := [(0, { demoBox 0 0 with wait := .revoke [] })] } : HostSide).busy = true := by decide +kernel

/-- `MailboxRecordsAreApplied` and `HostInterruptRecordsFollowTheSenderTable`: a record of every kind that is applied. -/
theorem witness_records_apply : appliesNow (demoMail 255 0 (demoBox 0 0)) 255 0 0 = true ∧ appliesNow (demoMail 0 (demoRec 1 32 0x1000000) (demoBox 0 0)) 0 1 0 = true
    ∧ appliesNow (demoMail 0 (demoRec 2 1 0x1000000) (demoBox 0 0)) 0 2 0 = true ∧ appliesNow (demoMail 0 (demoRec 3 1048576 0x1000000) (demoBox 0 0)) 0 3 0 = true
    ∧ appliesNow (demoMail 0 (4 + 2 ^ 192 * 63) (demoBox 0 2)) 0 4 0 = true ∧ appliesNow (demoMail 0 (demoRec 5 0 0x1000040) (demoBox 0 0)) 0 5 0 = true
    ∧ appliesNow (demoMail 0 6 (demoBox 0 0)) 0 6 0 = true := by decide +kernel

/-- The same: queues that are not ready, dead, overrun, and with a malformed record. -/
theorem witness_records_refused : (demoMail 0 0 {}).mailboxReady 0 = false
    ∧ (let s := demoMail 0 0 { demoBox 0 0 with dead := true }
       s.mailboxReady 0 = true ∧ s.recordTag 0 = (0, 0) ∧ (s.mailbox 0).dead = true)
    ∧ (let s := demoMail 0 0 { demoBox 0 0 with tail := 65 }
       s.mailboxReady 0 = true ∧ s.recordTag 0 = (0, 0) ∧ (s.mailbox 0).overrun = true)
    ∧ (let s := demoMail 0 (2 ^ 500) (demoBox 0 0)
       s.mailboxReady 0 = true ∧ s.recordTag 0 = (0, 0) ∧ recordOk (s.record 0) = false) := by decide +kernel

/-- The same: a write that reaches its page and one that does not; a reply to a call that waits for two threads, one, and none. -/
theorem witness_mailbox_access : ((demoMail 0 (demoRec 1 32 0x1000000) (demoBox 0 0)).mailboxWrite 0 0 mailboxUnits 0x5000000 32 1).2 ≠ 0
    ∧ (let s := { (demoMail 0 (demoRec 1 32 0x1000000) (demoBox 0 0)) with ctxs := [(0, { exchange := [(0x1000000, 4096, 3)] })] }
       (s.mailboxWrite 0 0 mailboxUnits 0x1000000 8 1).2 = 0 
       ∧ ({ s with remotes := [(1, { host := false, g := 0, mask := 0, pa := 0x2000000000000, ptr := 0, kind := 4, out := none })] }).mailboxOwed 0 = true ∧ (s.mailboxRead 0 mailboxUnits 0x1000000 8 0).2 = 0) := by decide +kernel

/-- The same: a write after which peers owe nothing. -/
theorem witness_mailbox_done :
    let s := { (demoMail 0 (demoRec 1 32 0x1000000) (demoBox 0 0)) with cores := [(2, { l1 := [{ line := 0x800, st := .m, pinned := true }] })], ctxs := [(0, { exchange := [(0x1000000, 4096, 3)] })] }
    (match s.mailboxWrite 0 0 mailboxUnits 0x1000000 8 1 with
      | (u, n) => n == 0 && !u.mailboxOwed 0) = true := by decide +kernel

theorem witness_call_reply :
    let e := { demoCall 1 [] with seq := 0, forwarded := [0, 5], begun := true }
    let s := fun (e : RingEntry) => { (demoMail 0 6 (demoBox 0 0)) with groups := [(0, demoCaller)], slices := [(0, { ring := [e] })] }
    let find := fun (s : State) => (s.slice (s.homeSlice 0)).ring.find? (fun e => e.seq == 0#32 && e.ctx == 0 && e.forwarded.contains 0 && e.n != 2)
    find (s e) = some e ∧ (∃ y ∈ e.forwarded, y ≠ 0) ∧ find (s { e with forwarded := [0] }) = some { e with forwarded := [0] } ∧ find (s { e with n := 2 }) = none ∧ e.n ≠ 3 ∧ e.answers = []
    ∧ demoCaller.st = .offCore ∧ (s e).convoyOf 0 = none ∧ appliesNow (s e) 0 6 0 = true := by decide +kernel

/-- `KernelRequestsAreServed`: a request of each code that may be served, and one that may not. -/
theorem witness_requests : (∀ code ∈ [1, 2, 3, 4, 5, 6, 7, 8], appliesNow (demoMail 255 (demoReq code 0) (demoBox 0 0)) 255 7 code = true)
    ∧ appliesNow (demoMail 0 (demoReq 1 0) (demoBox 0 1)) 0 7 1 = true ∧ ((demoMail 0 (demoReq 1 0) (demoBox 0 0)).mailbox 0).cls = 0 ∧ ((demoMail 0 (demoReq 1 0) (demoBox 0 1)).mailbox 0).cls ≠ 0 := by
  decide +kernel

/-- The same: an extent of one page that is mapped, and one that is not; a revoke of a known and of an unknown extent. -/
theorem witness_map :
    let x := demoReq 1 (0x8000 + 2 ^ 64 + 2 ^ 96 * 1 + 2 ^ 128 * 64 + 2 ^ 192 * 9)
    let s := { (demoMail 0 x (demoBox 0 0)) with ctxs := [(0, { demoOwner 0 with table := 0x200000 })] }
    (s.mapExtent 0 x).isSome = true ∧ s.mapExtent 0 (demoReq 1 1) = none ∧ bytesAt x 40 4 = 1
    ∧ (s.mapSource false 64 0).isSome = true ∧ (s.leafPlace 0 0x8000).isSome = true := by decide +kernel

theorem witness_revoke :
    let s := State.reset.withFetchWord 32 0
    let c : Context := { extents := [(9, 16, 1)] }
    c.extentPages 9 = [16] ∧ c.extentPages 8 = [] ∧ found (s.walk 1 (4096 * 16)) = true ∧ (demo demoGroup).pagesBusy [5].contains = false
    ∧ (({ (demo demoGroup) with stores := [(1, { g := 0, mask := 1, core := 0, kind := 1, scope := 0, cls := 0, l := [{ L := 0, ptr := 0, pa := 0x5000, size := 4, x := 0 }] })] }).pagesBusy [5].contains) = true := by
  decide +kernel

/-- The same: an event that the host may dispose of; fields of an export, a trace control and an interrupt configuration. -/
theorem witness_request_fields :
    let r := { demoEventRecord none with heqIndex := some 0 }
    ({ (demo demoGroup) with slices := [(0, { log := [r] })] }).hostEvent 0 = some 0
    ∧ (let x := demoReq 4 (2 ^ 128 * 4096 + 2 ^ 16)
       bytesAt x 33 1 = 0 ∧ bytesAt x 38 2 < 8 ∧ bytesAt x 48 8 % 4096 = 0 ∧ bytesAt x 48 8 ≤ 2 ^ 32 ∧ bytesAt x 56 8 = 0)
    ∧ (let x := demoReq 7 (2 ^ 64 * 0x1000 + 2 ^ 128 * 12 + 2 ^ 144 * 30)
       bytesAt x 34 6 = 0 ∧ bytesAt x 40 8 % 4096 = 0 ∧ 12 ≤ bytesAt x 48 1 ∧ bytesAt x 48 1 ≤ 30 ∧ bytesAt x 49 1 < 16 ∧ 10 ≤ bytesAt x 50 1 ∧ bytesAt x 50 1 ≤ 30 ∧ bytesAt x 51 13 = 0)
    ∧ (let x := demoReq 8 (2 ^ 16 + 2 ^ 24 * 63 + 2 ^ 128 * 3)
       bytesAt x 35 1 < 64 ∧ bytesAt x 36 4 = 0 ∧ bytesAt x 34 1 = 1 ∧ bytesAt x 48 1 < 4 ∧ bytesAt x 49 1 = 0 ∧ bytesAt x 54 10 = 0)
    ∧ (let x := demoReq 8 (2 ^ 24 * 63 + 2 ^ 64 * 7)
       bytesAt x 35 1 < 64 ∧ bytesAt x 36 4 = 0 ∧ bytesAt x 34 1 = 0 ∧ bytesAt x 40 8 < 8 ∧ bytesAt x 48 16 = 0)
    ∧ ((demo demoGroup).context 0).any (fun c => c.live && c.debuggable) = true := by decide +kernel

/-- The same: a context to create and to destroy, and one that drains. -/
theorem witness_create :
    let x := demoReq 5 (2 ^ 8 * 1 + 2 ^ 32 * 1)
    let s := demoMail 0 x (demoBox 0 0)
    createFields x = true ∧ bytesAt x 40 8 = 0 ∧ scopeTableOk 0 = true ∧ s.freeContext = some 1 ∧ createFields (demoReq 5 0) = false
    ∧ (s.buildContext 1 (createdContext x (s.homeFor (BitVec.ofNat 4 (bytesAt x 33 1))) 0) 0).isSome = true := by decide +kernel

theorem witness_destroy :
    let s := { (demo demoGroup) with ctxs := [(0, {}), (1, { live := false })], host := { queues := [(255, { demoBox 0 0 with wait := .destroy 1 })] } }
    s.contextIdle 1 = true ∧ s.contextIdle 0 = false ∧ s.destroyer 1 = some 255 ∧ (demo demoGroup).destroyer 1 = none
    ∧ bytesAt (demoReq 6 1) 32 2 ≠ 0 ∧ bytesAt (demoReq 6 1) 34 30 = 0 := by decide +kernel

/-! Power, boot, debug, ports -/

/-- `RailsResetAndBoot`: the rails on in order, images that pass and that do not; each phase of a boot that goes on, with no defect and with a slice that fails. -/
theorem witness_boot :
    let p : Platform := { rails := [0, 1, 2, 3] }
    p.perst = true ∧ p.misordered = false ∧ p.strap = false ∧ p.defects = [] ∧ p.main.fault p.vendor p.minVersion = 0 ∧ p.rescue.fault p.vendor p.minVersion = 0
    ∧ ({ p.main with bootable := false }).fault 0 0 ≠ 0 ∧ ({ p.main with version := 1 }).fault 0 2 ≠ 0 ∧ ({ p with misordered := true }).misordered = true
    ∧ (∀ n ∈ [1#4, 2#4, 3#4, 4#4], ({ p with perst := false, booting := true, phase := n }).phase = n ∧ ({ p with perst := false, booting := true, phase := n }).booting = true)
    ∧ failedPartitions (diePath 0 5 0) = [] ∧ ({ p with defects := [diePath 0 5 0] }).defects = [diePath 0 5 0]
    ∧ ¬ 3 ∈ ({} : Platform).rails ∧ 3 ∈ p.rails := by decide +kernel

/-- `ManagementBlockActs`: a margin to move each way, a report in progress, a restore of an image that passes and of one that does not. -/
theorem witness_management :
    let m : Margin := { offset := 3, target := 4 }
    Tab.get? 191 [(191, m)] = some m ∧ m.offset < m.target ∧ ({ m with target := 2 }).target < ({ m with target := 2 }).offset ∧ ({} : Platform).attBusy = false
    ∧ ({ attBusy := true } : Platform).attBusy = true ∧ ({ fwBusy := true } : Platform).carried.fault 0 0 = 0 ∧ ({ ({} : Platform).carried with signer := none }).fault 0 0 ≠ 0
    ∧ ({ ready := true } : Platform).ready = true ∧ bit 1#64 0 = true ∧ field 32 16 0xFFFF00000000#64 = 0xFFFF#16 := by decide +kernel

/-- `DebugAndHostRegistersTakeTheirWrites`: a debuggable and another context in DBGTGT; a device that serves BAR0. -/
theorem witness_debug : ({ (demo demoGroup) with dbg := {} }).debuggable ({ (demo demoGroup) with dbg := {} }).debugCtx = true ∧ (demo demoGroup).debuggable (demo demoGroup).debugCtx = false
    ∧ (demo demoGroup).dbg.frozen = [] ∧ ({ phase := 5 } : Platform).phase ≠ 0 ∧ ({} : Platform).phase = 0 ∧ ({} : HostSide).route.length = 16 := by decide +kernel

/-- `PortsAnswerAndFail`: a request to the host and one to a peer, with an outstanding load; routes; an export entry. -/
def demoRemote (host : Bool) : Remote := { host := host, g := 0, mask := 1, pa := 0x2030000000000, ptr := 0, kind := 1, out := some 1, dev := 3 }
def demoPorts (r : Remote) : State := { (demo demoBusy) with remotes := [(6, r)] }

theorem witness_ports : Tab.get? 6 (demoPorts (demoRemote true)).remotes = some (demoRemote true) ∧ Tab.get? 6 (demoPorts (demoRemote false)).remotes = some (demoRemote false)
    ∧ Tab.get? 5 (demoPorts (demoRemote false)).remotes = none ∧ (demoPorts (demoRemote true)).cxlUp = true ∧ (demoPorts (demoRemote false)).group 0 = some demoBusy
    ∧ ({ (demoPorts (demoRemote false)) with remotes := Tab.del 6 (demoPorts (demoRemote false)).remotes }).dataHere 0 1 = true ∧ demoBusy.flow.watch = []
    ∧ ({ (demoPorts (demoRemote false)) with remotes := [(6, demoRemote false), (7, demoRemote false)] }).dataHere 0 1 = false
    ∧ (demoPorts (demoRemote false)).portsTo 0 (peerOf 0x2030000000000) = 0 ∧ ({ (demoPorts (demoRemote false)) with routes := [(3, 1)] }).portsTo 0 (peerOf 0x2030000000000) ≠ 0
    ∧ (demo demoGroup).routePending = [] ∧ (demo demoGroup).owedBy 3 = false ∧ ({ (demoPorts (demoRemote false)) with routes := [(3, 1)] }).owedBy 3 = true := by decide +kernel

theorem witness_export :
    let e : ExportEntry := { dev := 3, ctx := 4, perms := 7, va := 0x1000000, size := 0x1000 }
    let s := demoWith { exports := [(255, e)] }
    s.exporter 3 4 255 0xFF8 16 8 = some (0, e) ∧ s.exporter 3 4 255 0xFFC 16 8 = none ∧ peerNeed 16 = { write := true }
    ∧ ((s.exportPieces 0 (peerNeed 16) (pieces (plusPtr e.va 0xFF8) 8)).2.map List.length) = some 1 ∧ ((s.exportPieces 0 (peerNeed 0) (pieces (plusPtr e.va 0xFF8) 8)).2.map List.length) = some 1 := by
  decide +kernel

end Sys2Proof.Tests
end

/-! PROOFS. Bytes of physical memory (00 R3): what a read gives after a write. -/
namespace Sys2Proof.Machine

/-- One byte more multiplies the number of values by 256. -/
theorem two_pow_bytes_succ (k : Nat) : 2 ^ (8 * (k + 1)) = 256 * 2 ^ (8 * k) :=
  (Nat.pow_add 2 (8 * k) 8).trans (Nat.mul_comm _ _)

/-- Byte `a` of a stored value: the low byte at the lowest address. -/
theorem storeBytes_get_inside {m : Assoc 8} {pa n x a : Nat} (hlo : pa ≤ a) (hhi : a < pa + n) :
    Assoc.get a (storeBytes m pa n x) = BitVec.ofNat 8 (x / 2 ^ (8 * (a - pa))) := by
  induction n generalizing m pa x with
  | zero => omega
  | succ n ih =>
    rw [storeBytes]
    obtain rfl | hne : a = pa ∨ pa + 1 ≤ a := by omega
    · simp [storeBytes_get_outside (m := Assoc.set a _ m) (Or.inl (Nat.lt_succ_self a))]
    · have hnext : a - pa = a - (pa + 1) + 1 := by omega
      rw [ih hne (by omega), hnext, two_pow_bytes_succ, Nat.div_div_eq_div_mul]

/-- A byte after a store: that of the value inside the range, the one before it outside. -/
theorem storeBytes_get (m : Assoc 8) (pa n x a : Nat) :
    Assoc.get a (storeBytes m pa n x) = if pa ≤ a ∧ a < pa + n then BitVec.ofNat 8 (x / 2 ^ (8 * (a - pa))) else Assoc.get a m := by
  split
  · next h => exact storeBytes_get_inside h.1 h.2
  · next h => exact storeBytes_get_outside (by omega)

/-- Reading back the bytes that a store wrote gives the value, cut to those bytes. -/
theorem bytesFrom_storeBytes (m : Assoc 8) (pa n x : Nat) : bytesFrom (storeBytes m pa n x) pa n = x % 2 ^ (8 * n) := by
  induction n generalizing m pa x with
  | zero => simp [bytesFrom, Nat.mod_one]
  | succ n ih =>
    have hlow : Assoc.get pa (storeBytes m pa (n + 1) x) = BitVec.ofNat 8 x := by
      simpa using storeBytes_get_inside (m := m) (x := x) (Nat.le_refl pa) (by omega : pa < pa + (n + 1))
    have hhigh : bytesFrom (storeBytes m pa (n + 1) x) (pa + 1) n = x / 256 % 2 ^ (8 * n) := ih _ _ _
    have hbyte : (BitVec.ofNat 8 x).toNat = x % 256 := BitVec.toNat_ofNat x 8
    calc bytesFrom (storeBytes m pa (n + 1) x) pa (n + 1)
        = x % 256 + 256 * (x / 256 % 2 ^ (8 * n)) := by rw [bytesFrom, hlow, hhigh, hbyte]
      _ = x % (256 * 2 ^ (8 * n)) := Nat.mod_mul.symm
      _ = x % 2 ^ (8 * (n + 1)) := by rw [two_pow_bytes_succ]

/-- Settles O7: the bytes of the range by `storeBytes_get`, the read of all of them by `bytesFrom_storeBytes`. -/
theorem memoryReadsWhatWasWritten : Obligations.MemoryReadsWhatWasWritten :=
  fun s pa n x => ⟨storeBytes_get s.mem pa n x, bytesFrom_storeBytes s.mem pa n x⟩

end Sys2Proof.Machine

/-! PROOFS. Instruction fetch (07 R206): a fetch that meets no error leaves its state alone and reads the bytes at the PC. -/
namespace Sys2Proof.Machine

/-- A cached copy with no error is left alone by the check of its L1. -/
theorem State.checkL1_of_clean {s : State} {core ctx gidx k : Nat} (h : ∀ l, (s.coreAt core).l1Line k = some l → l.err = none) :
    s.checkL1 core ctx gidx k = s := by
  unfold State.checkL1
  split
  · rfl
  · next l hl => rw [h l hl]

/-- A sector with no error in its L2 bank is left alone by the check of the bank. -/
theorem State.checkL2_of_clean {s : State} {ctx gidx k : Nat} (h : Tab.get? (k % 4) (s.line (k / 4)).l2err = none) : s.checkL2 ctx gidx k = s := by
  unfold State.checkL2
  rw [h]

/-- A sector with no error in memory shows none to a read. -/
theorem State.storedError_of_clean {s : State} {pa : Nat} (h : (s.sector (sectorOf pa)).ecc = none) : s.storedError pa = none := by
  simp [State.storedError, h]

/-- A fetch from caches with no error passes their check. -/
theorem State.fetchCaches_of_clean {s : State} {core ctx pa : Nat} (pc : Word64) (hl1 : ∀ l, (s.coreAt core).l1Line (sectorOf pa) = some l → l.err = none)
    (hl2 : Tab.get? (sectorOf pa % 4) (s.line (sectorOf pa / 4)).l2err = none) : s.fetchCaches core ctx pa pc = (s, none) := by
  unfold State.fetchCaches
  dsimp only
  split
  · next l hl => simp [hl1 l hl, State.checkL1_of_clean hl1]
  · simp [hl2, State.checkL2_of_clean hl2]

/-- A fetch from a sector with neither error nor poison passes its check. -/
theorem State.fetchCheck_of_clean {s : State} {pa : Nat} (ctx : Nat) (pc : Word64) (hecc : (s.sector (sectorOf pa)).ecc = none) (hp : s.poisonedAt pa = false) :
    s.fetchCheck ctx pa pc = (s, none) := by
  simp [State.fetchCheck, State.storedError_of_clean hecc, hp]

/-- A halfword whose address translates and whose copies have no error: the byte at the address low, the next one high. -/
theorem State.fetchHalf_of_clean {s t : State} {core ctx pa : Nat} {pc : Word64} {lf : Leaf} (code : Tab Nat) (hform : pointerForm pc = true)
    (htr : s.translate core ctx (virtOf pc) { exec := true } = (t, .ok (pa, lf))) (hr : regionOf pa ≠ 2) (hecc : (t.sector (sectorOf pa)).ecc = none)
    (hp : t.poisonedAt pa = false) (hl1 : ∀ l, (t.coreAt core).l1Line (sectorOf pa) = some l → l.err = none)
    (hl2 : Tab.get? (sectorOf pa % 4) (t.line (sectorOf pa / 4)).l2err = none) :
    s.fetchHalf core ctx code pc = (t, .ok (halfOfBytes (t.codeByte code pa) (t.codeByte code (pa + 1)))) := by
  have hcheck := State.fetchCheck_of_clean ctx pc hecc hp
  have herrors : t.fetchErrors core ctx pa pc = (t, none) := by simp [State.fetchErrors, State.fetchCaches_of_clean pc hl1 hl2, hcheck]
  simp [State.fetchHalf, hform, htr, hr, herrors, hcheck]

/-- Bit 0 of a halfword is bit 0 of its byte at the lower address. -/
theorem halfOfBytes_getLsbD_zero (b0 b1 : Byte) : (halfOfBytes b0 b1).getLsbD 0 = b0.getLsbD 0 := by
  rw [halfOfBytes, BitVec.getLsbD_append]
  rfl

/-- A halfword with bit 0 clear is the whole instruction (07 R206). -/
theorem State.fetch_short {s t : State} {core ctx : Nat} {code : Tab Nat} {pc : Word64} {h : BitVec 16} (hf : s.fetchHalf core ctx code pc = (t, .ok h))
    (h0 : h.getLsbD 0 = false) : s.fetch core ctx code pc = (t, .ok (.short h)) := by
  simp only [State.fetch, hf, h0, Bool.false_eq_true, if_false]

/-- A halfword with bit 0 set is the low half of the word; the next one, fetched after it, is the high half (07 R206). -/
theorem State.fetch_long {s t u : State} {core ctx : Nat} {code : Tab Nat} {pc : Word64} {h h' : BitVec 16} (hf : s.fetchHalf core ctx code pc = (t, .ok h))
    (h0 : h.getLsbD 0 = true) (hf' : t.fetchHalf core ctx code (pc + 2) = (u, .ok h')) : s.fetch core ctx code pc = (u, .ok (.long (wordOfHalves h h'))) := by
  simp only [State.fetch, hf, h0, if_true, hf']

/-- A byte whose kept older values are all from before the group's last invalidation of its sector is seen as memory has it (04 R146). -/
theorem State.codeByte_of_invalidated {s : State} {code : Tab Nat} {pa : Nat} (h : ∀ o ∈ s.oldCode, o.pa = pa → o.epoch < (Tab.get? (pa / 64) code).getD 0) :
    s.codeByte code pa = s.byteAt pa := by
  have hnone : s.oldCode.find? (fun o => o.pa == pa && decide ((Tab.get? (pa / 64) code).getD 0 ≤ o.epoch)) = none := by
    simp only [List.find?_eq_none, Bool.and_eq_true, beq_iff_eq, decide_eq_true_eq, not_and, Nat.not_le]
    exact h
  rw [State.codeByte, hnone]

/-- Settles O2: the halfword at the PC by `State.fetchHalf_of_clean`, the length by its bit 0, the bytes seen by `State.codeByte_of_invalidated`. -/
theorem fetchReadsTheHalfwordsAtThePc : Obligations.FetchReadsTheHalfwordsAtThePc := by
  refine ⟨fun s t core ctx code pc pa lf hform htr hr hecc hp hl1 hl2 => ?_, fun s code pa => State.codeByte_of_invalidated⟩
  have hhalf := State.fetchHalf_of_clean code hform htr hr hecc hp hl1 hl2
  have hbit := halfOfBytes_getLsbD_zero (t.codeByte code pa) (t.codeByte code (pa + 1))
  refine ⟨hhalf, fun h0 => State.fetch_short hhalf (hbit.trans h0), fun u h h0 hnext => ?_⟩
  rw [State.fetch_long hhalf (hbit.trans h0) hnext, BitVec.append_assoc]
  rfl

end Sys2Proof.Machine

/-! PROOFS. The floating-point instructions of the vector lanes and `cvt` (06 R186, R188, 09 R261-R265), and `s.fadd` and `s.fmul` (08 R241): a lane operation completes as the
row of its writes; what is left of each instruction is that its function is the rounding its row names. -/
namespace Sys2Proof.Machine

/-! ### What a lane operation writes, and that it completes -/

/-- An operation with one destination word writes the first word of its result in each lane. -/
theorem laneWrites_word {u : Use} {d : BitVec 6} (hd : u.dstWords = [d.toNat]) (f : LaneIn → Word32) (more : LaneIn → List Word32) (g : Group) (ins : List LaneIn) :
    ins.flatMap (laneWrite u (fun i => f i :: more i) anyTaint) = eachLane d f g ins := by
  have hlane : ∀ i, laneWrite u (fun i => f i :: more i) anyTaint i = [.v i.L d.toNat (f i) (i.tv.any id) false] := fun i => by
    simp [laneWrite, hd, anyTaint]
  rw [eachLane, List.map_eq_flatMap, funext hlane]

/-- An operation whose destination is a pair writes the low word of its result, then the high word, in each lane. -/
theorem laneWrites_pair {u : Use} {d : BitVec 6} (hd : u.dstWords = [d.toNat, d.toNat + 1]) (f : LaneIn → Word64) (g : Group) (ins : List LaneIn) :
    ins.flatMap (laneWrite u (fun i => [lowWord (f i), highWord (f i)]) anyTaint) = eachPair d f g ins := by
  have hlane : ∀ i, laneWrite u (fun i => [lowWord (f i), highWord (f i)]) anyTaint i =
      [.v i.L d.toNat (lowWord (f i)) (i.tv.any id) false, .v i.L (d.toNat + 1) (highWord (f i)) (i.tv.any id) false] := fun i => by
    simp [laneWrite, hd, anyTaint]
  rw [eachPair, funext hlane]

section LaneOperations
variable {i : Instr} {u : Use} {sw sh inj : Bool} {d : BitVec 6} {n : Nat} {sd : Option (Nat → List LaneIn → BitVec 16)}

/-- A lane operation completes as the row of its writes, whatever its latency; an injection acts on it when it has a shadow (17 R424). -/
theorem laneOp_completes {f : LaneIn → List Word32} {w : Group → List LaneIn → List RegWrite}
    (he : ∀ s, exec i s = issueVector { laneOp u sw f with shadowed := sh, shadow := sd, bound := n } s) (hi : sd.isSome = inj)
    (hw : ∀ g ins, ins.flatMap (laneWrite u f anyTaint) = w g ins) :
    ({ instr := i, use := u, sw := sw, writes := w, shadowed := sh, injects := inj } : Row).Completes :=
  row_completes (o := { laneOp u sw f with shadowed := sh, shadow := sd, bound := n }) he rfl rfl rfl rfl rfl hi (fun _ _ g _ _ _ => hw g _)

/-- A lane operation on words completes with its result in each lane. -/
theorem wordOp_completes {f : LaneIn → Word32} (he : ∀ s, exec i s = issueVector { laneOp u sw (fun x => [f x]) with shadowed := sh, shadow := sd, bound := n } s)
    (hi : sd.isSome = inj) (hd : u.dstWords = [d.toNat]) :
    ({ instr := i, use := u, sw := sw, writes := eachLane d f, shadowed := sh, injects := inj } : Row).Completes :=
  laneOp_completes he hi (laneWrites_word hd f (fun _ => []))

/-- A lane operation on pairs completes with its result in each lane's pair. -/
theorem pairOp_completes {f : LaneIn → Word64} (he : ∀ s, exec i s = issueVector { pairOp u sw f with shadowed := sh, bound := n } s)
    (hd : u.dstWords = [d.toNat, d.toNat + 1]) : ({ instr := i, use := u, sw := sw, writes := eachPair d f, shadowed := sh } : Row).Completes :=
  laneOp_completes he rfl (laneWrites_pair hd f)

end LaneOperations

/-! ### binary32 and binary64 (09 R261, R262, R264) -/

/-- In each row the function of the instruction is the rounding of the exact value that the row names; the four of 09 R262 write pairs. -/
theorem floatRows_complete (d a b c : BitVec 6) (p q r : BitVec 2) (u : BitVec 8) (sw : Bool) : ∀ x ∈ floatRows d a b c p q r u sw, x.Completes := by
  simp only [floatRows, List.forall_mem_cons]
  refine ⟨?fadd, ?fsub, ?fmul, ?fscale, ?fmad, ?faddVs, ?fmulVs, ?fmadVs, ?ffma, ?fsqrt, ?fround, ?faddmin, ?faddminVs, ?ffract,
    ?frcp, ?frsq, ?fexp2, ?flog2, ?fsin, ?fcos, ?fmin, ?fmax, ?fclass, ?dadd, ?dmul, ?dmad, ?dmin, List.forall_mem_nil _⟩
  case dadd | dmul | dmad | dmin => exact pairOp_completes (fun _ => rfl) rfl
  all_goals exact wordOp_completes (fun _ => rfl) rfl rfl

/-! ### Packed formats (09 R263) -/

/-- An element of a word is the field of 16 bits at its place. -/
theorem toNat_field_eq_element (x : Word32) (e : Nat) : (field (16 * e) 16 x).toNat = element x e := by
  rw [BitVec.extractLsb'_toNat, Nat.shiftRight_eq_div_pow, element]

theorem halves_eq_twoElements (f : Nat → Nat → Nat) (a b : Word32) : halves f a b = twoElements (fun e => f (element a e) (element b e)) := by
  simp only [twoElements, ← toNat_field_eq_element]
  rfl

theorem halves3_eq_twoElements (f : Nat → Nat → Nat → Nat) (a b c : Word32) :
    halves3 f a b c = twoElements (fun e => f (element a e) (element b e) (element c e)) := by
  simp only [twoElements, ← toNat_field_eq_element]
  rfl

/-- The rows of a packed format complete, whichever instructions add, multiply, multiply and add, and choose the larger in it. -/
theorem packedRows_complete {fm : Fmt} {add mul mad mx : BitVec 6 → BitVec 6 → BitVec 2 → BitVec 6 → BitVec 2 → Bool → Instr} {d a b : BitVec 6} {p q : BitVec 2} {sw : Bool}
    (hadd : ∀ s, exec (add d a p b q sw) s = issueVector { vvOp (useVV d a p b q) sw (halves fm.addCode) with shadowed := true } s)
    (hmul : ∀ s, exec (mul d a p b q sw) s = issueVector { vvOp (useVV d a p b q) sw (halves fm.mulCode) with shadowed := true } s)
    (hmad : ∀ s, exec (mad d a p b q sw) s = issueVector { vvdOp (useVVd d a p b q) sw (halves3 fm.fmaCode) with shadowed := true } s)
    (hmx : ∀ s, exec (mx d a p b q sw) s = issueVector (vvOp (useVV d a p b q) sw (halves fm.maxOf)) s) :
    ∀ x ∈ packedRows fm add mul mad mx d a b p q sw, x.Completes := by
  simp only [vvOp, vvdOp, halves_eq_twoElements, halves3_eq_twoElements] at hadd hmul hmad hmx
  simp only [packedRows, List.forall_mem_cons]
  exact ⟨wordOp_completes hadd rfl rfl, wordOp_completes hmul rfl rfl, wordOp_completes hmad rfl rfl, wordOp_completes hmx rfl rfl, List.forall_mem_nil _⟩

/-- Settles O12: the scalar rows by `floatRows_complete`, each packed format by `packedRows_complete`. -/
theorem vectorFloatInstructionsComplete : Obligations.VectorFloatInstructionsComplete := fun d a b c p q r u sw =>
  ⟨floatRows_complete d a b c p q r u sw, packedRows_complete (fun _ => rfl) (fun _ => rfl) (fun _ => rfl) (fun _ => rfl),
    packedRows_complete (fun _ => rfl) (fun _ => rfl) (fun _ => rfl) (fun _ => rfl)⟩

/-! ### Conversions (06 R188, 09 R265) -/

/-- The type codes of the floating-point types (07 R219). -/
theorem isFloatTy_eq (e : BitVec 4) : isFloatTy e = (e == 2 || e == 3 || e == 4 || e == 5 || e == 6 || (11 : Nat) ≤ e.toNat) := by
  decide +revert

/-- A conversion towards binary64 writes a pair, any other one word; only one towards binary32 has a shadow that an injection acts on (17 R424). -/
theorem cvtRow_completes (d a : BitVec 6) (p : BitVec 2) (f e : BitVec 4) (r : BitVec 2) (sw : Bool) : (cvtRow d a p f e r sw).Completes := by
  have hexec : ∀ s, exec (.cvt d a p f e r sw) s = issueVector { pairOp (useCvt d a p f e) sw (fun i => cvtWord f e (modeOf r) (cvtInput f i)) with
      shadowed := e == 2 || e == 3 || e == 4 || e == 5 || e == 6 || (11 : Nat) ≤ e.toNat, shadow := (cvtOp d a p f e r sw).shadow, bound := 8 } s := by
    rw [← isFloatTy_eq]
    exact fun _ => rfl
  have hshadow : (cvtOp d a p f e r sw).shadow.isSome = (e == 2) := by
    by_cases h : e = 2
    · subst h
      rfl
    · rw [beq_false_of_ne h, cvtOp, if_neg h, Option.isSome_none]
  refine laneOp_completes hexec hshadow (fun g ins => ?_)
  split
  · next h => exact laneWrites_pair (by rw [useCvt, if_pos h]; rfl) _ g ins
  · next h => exact laneWrites_word (by rw [useCvt, if_neg h]; rfl) _ _ g ins

/-! ### Uniform additions and products (08 R241) -/

/-- A shadowed uniform operation leaves its result outstanding, computed once from the low words of sd and sb. -/
theorem uniformFp_completes {i : Instr} {d b : BitVec 8} {sw : Bool} {f : Word32 → Word32 → Word32} (he : ∀ s, exec i s = issueVector (uniformFp d b sw f) s) :
    ({ instr := i, use := useUA d b, sw := sw, shadowed := true
       writes := fun g _ => [.s d.toNat ((f (lowWord (g.sget d.toNat)) (lowWord (g.sget b.toNat))).setWidth 64)] } : Row).CompletesUniform := by
  intro s is sel g h ok hd
  refine row_performs (o := uniformFp d b sw f) he rfl rfl rfl rfl rfl (fun _ sel g _ _ _ hm => ?_) h ok (fun _ => hd)
  obtain ⟨L, Ls, hl⟩ := maskList_cons hm
  rw [hl]
  rfl

/-- Settles O13: `cvt` by `cvtRow_completes`, `s.fadd` and `s.fmul` by `uniformFp_completes`. -/
theorem conversionsAndUniformFloatsComplete : Obligations.ConversionsAndUniformFloatsComplete := by
  refine ⟨fun d a p f e r sw _ _ => cvtRow_completes d a p f e r sw, fun d b sw => ?_⟩
  simp only [uniformFpRows, List.forall_mem_cons]
  exact ⟨uniformFp_completes (f := fadd) (fun _ => rfl), uniformFp_completes (f := fmul) (fun _ => rfl), List.forall_mem_nil _⟩

end Sys2Proof.Machine

/-! PROOFS. Compares, predicate logic and votes (09 R267, R268), reductions, scans, broadcasts and block formats (09 R269-R271, R274, R275): each is a vector operation,
and what it writes is what its row writes. -/
namespace Sys2Proof.Machine

/-- A vector operation completes as the row of its writes, when these depend on the operands of the active lanes alone. -/
theorem vecOp_completes {i : Instr} {o : VecOp} {w : Group → List LaneIn → List RegWrite} {inj : Bool} (he : ∀ s, exec i s = issueVector o s) (hv : o.uniform = false)
    (hi : o.shadow.isSome = inj) (hw : ∀ g g' sel ins, o.writes g sel ins = w g' ins) :
    ({ instr := i, use := o.use, sw := o.sw, writes := w, shadowed := o.shadowed, injects := inj } : Row).Completes :=
  row_completes he rfl rfl rfl hv rfl hi (fun _ sel g ga _ _ => hw ga g sel _)

/-! ### Predicates and votes (09 R267, R268) -/

/-- An operation on predicates completes with its result in each active lane. -/
theorem predOp_completes {i : Instr} {u : Use} {d : BitVec 3} {sw : Bool} {f : LaneIn → Bool} (he : ∀ s, exec i s = issueVector (predOp u d sw f) s) :
    ({ instr := i, use := u, sw := sw, writes := eachPred d f } : Row).Completes :=
  vecOp_completes he rfl rfl (fun _ _ _ _ => rfl)

/-- A vote completes with one value in each active lane, computed from the predicates of all of them. -/
theorem voteOp_completes {i : Instr} {d p : BitVec 3} {sw : Bool} {f : List Bool → Bool} {v : List LaneIn → Bool}
    (he : ∀ s, exec i s = issueVector (voteOp d p sw f) s) (hv : ∀ ins : List LaneIn, f (ins.map LaneIn.pa) = v ins) :
    ({ instr := i, use := usePP d [p], sw := sw, writes := fun g ins => eachPred d (fun _ => v ins) g ins } : Row).Completes :=
  vecOp_completes he rfl rfl (fun _ _ _ ins => by rw [← hv ins]; rfl)

/-- Settles O14: the compares and the predicate logic by `predOp_completes`, the votes by `voteOp_completes`; `ballot` writes its row's set as it stands. -/
theorem predicateInstructionsComplete : Obligations.PredicateInstructionsComplete := by
  intro d p3 q3 c a b p q ty u sw
  simp only [predicateRows, List.forall_mem_cons]
  refine ⟨?icmp, ?fcmp, ?pand, ?por, ?pxor, ?pandn, ?pnot, ?pmov, ?voteAny, ?voteAll, ?ballot, List.forall_mem_nil _⟩
  case voteAny => exact voteOp_completes (fun _ => rfl) (fun _ => List.any_map)
  case voteAll => exact voteOp_completes (fun _ => rfl) (fun _ => List.all_map)
  case ballot => exact vecOp_completes (o := ballotOp p3 u sw) (fun _ => rfl) rfl rfl (fun _ _ _ _ => rfl)
  all_goals exact predOp_completes (fun _ => rfl)

/-! ### The choices of reductions and scans (09 R269, R270) -/

theorem int32_min_toInt (a b : Word32) : int32 (min a.toInt b.toInt) = iminW a b := by
  rw [iminW, int32]
  by_cases h : b.toInt < a.toInt
  · rw [if_pos (BitVec.slt_iff_toInt_lt.mpr h), Int.min_eq_right (Int.le_of_lt h), BitVec.ofInt_toInt]
  · rw [if_neg (mt BitVec.slt_iff_toInt_lt.mp h), Int.min_eq_left (Int.not_lt.mp h), BitVec.ofInt_toInt]

theorem int32_max_toInt (a b : Word32) : int32 (max a.toInt b.toInt) = imaxW a b := by
  rw [imaxW, int32]
  by_cases h : a.toInt < b.toInt
  · rw [if_pos (BitVec.slt_iff_toInt_lt.mpr h), Int.max_eq_right (Int.le_of_lt h), BitVec.ofInt_toInt]
  · rw [if_neg (mt BitVec.slt_iff_toInt_lt.mp h), Int.max_eq_left (Int.not_lt.mp h), BitVec.ofInt_toInt]

theorem ofNat_min_toNat (a b : Word32) : BitVec.ofNat 32 (min a.toNat b.toNat) = nminW a b := by
  rw [nminW]
  by_cases h : b.toNat < a.toNat
  · rw [if_pos (BitVec.ult_iff_toNat_lt.mpr h), Nat.min_eq_right (Nat.le_of_lt h), BitVec.ofNat_toNat, BitVec.setWidth_eq]
  · rw [if_neg (mt BitVec.ult_iff_toNat_lt.mp h), Nat.min_eq_left (Nat.not_lt.mp h), BitVec.ofNat_toNat, BitVec.setWidth_eq]

theorem ofNat_max_toNat (a b : Word32) : BitVec.ofNat 32 (max a.toNat b.toNat) = nmaxW a b := by
  rw [nmaxW]
  by_cases h : a.toNat < b.toNat
  · rw [if_pos (BitVec.ult_iff_toNat_lt.mpr h), Nat.max_eq_right (Nat.le_of_lt h), BitVec.ofNat_toNat, BitVec.setWidth_eq]
  · rw [if_neg (mt BitVec.ult_iff_toNat_lt.mp h), Nat.max_eq_left (Nat.not_lt.mp h), BitVec.ofNat_toNat, BitVec.setWidth_eq]

/-! ### Reductions (09 R269) -/

/-- A reduction completes with the combination of the active threads' values in ascending thread index. -/
theorem reduceRow_completes {i : Instr} {v : BitVec 6} {u : BitVec 8} {p : BitVec 2} {sw sg sh : Bool} {f : Word32 → Word32 → Word32}
    (he : ∀ s, exec i s = issueVector { vredOp v u p sw sg f with shadowed := sh } s) : (reduceRow i v u p sw sg f sh).Completes := by
  refine vecOp_completes he rfl rfl (fun _ _ _ ins => ?_)
  dsimp only [vredOp]
  cases ins.map LaneIn.a with
  | nil => cases sg <;> rfl
  | cons x xs => rfl

theorem reductionRows_complete (v : BitVec 6) (u : BitVec 8) (p : BitVec 2) (sw : Bool) : ∀ x ∈ reductionRows v u p sw, x.Completes := by
  simp only [reductionRows, int32_min_toInt, int32_max_toInt, ofNat_min_toNat, ofNat_max_toNat, List.forall_mem_cons]
  refine ⟨?addS32, ?addF32, ?minS32, ?maxS32, ?minB32, ?maxB32, ?minF32, ?maxF32, ?and, ?or, ?xor, List.forall_mem_nil _⟩
  all_goals exact reduceRow_completes (fun _ => rfl)

/-! ### Scans (09 R270) -/

/-- Element `j` of the running combinations that continue `acc` combines `acc` with the first `j + 1` values. -/
theorem scanFrom_getElem? (f : Word32 → Word32 → Word32) (acc : Word32) (ys : List Word32) (j : Nat) (h : j < ys.length) :
    (scanl1.scanFrom f acc ys)[j]? = some ((ys.take (j + 1)).foldl f acc) := by
  induction ys generalizing acc j with
  | nil => simp at h
  | cons y ys ih =>
    cases j with
    | zero => rfl
    | succ j => exact ih (f acc y) j (by simpa using h)

/-- Element `j` of the running combinations of a list combines the first `j + 1` values. -/
theorem scanl1_getElem? (f : Word32 → Word32 → Word32) (xs : List Word32) (j : Nat) (h : j < xs.length) :
    (scanl1 f xs)[j]? = some (combine f (xs.take (j + 1))) := by
  cases xs with
  | nil => simp at h
  | cons x xs =>
    cases j with
    | zero => rfl
    | succ j => exact scanFrom_getElem? f x xs j (by simpa using h)

theorem scanFrom_length (f : Word32 → Word32 → Word32) (acc : Word32) (ys : List Word32) : (scanl1.scanFrom f acc ys).length = ys.length := by
  induction ys generalizing acc with
  | nil => rfl
  | cons y ys ih => simp [scanl1.scanFrom, ih]

theorem scanl1_length (f : Word32 → Word32 → Word32) (xs : List Word32) : (scanl1 f xs).length = xs.length := by
  cases xs with
  | nil => rfl
  | cons x xs => simp [scanl1, scanFrom_length]

/-- A combination of at least one value is a scan's value, whatever the identity. -/
theorem combine_take_succ (f : Word32 → Word32 → Word32) (idn : Word32) {ex : Bool} {xs : List Word32} {j k : Nat} (hj : (if ex then j else j + 1) = k + 1)
    (hx : xs ≠ []) : combine f (xs.take (k + 1)) = scanValue f idn ex xs j := by
  cases xs with
  | nil => exact absurd rfl hx
  | cons x xs => rw [scanValue, hj]; rfl

/-- The result of the thread at position `j` is the value that the scan leaves there. -/
theorem scanResults_getElem? (f : Word32 → Word32 → Word32) (idn : Word32) (ex : Bool) (xs : List Word32) (j : Nat) (h : j < xs.length) :
    (scanResults f idn ex xs)[j]? = some (scanValue f idn ex xs j) := by
  have hx : xs ≠ [] := List.ne_nil_of_length_pos (by omega)
  cases ex with
  | false => simpa [scanResults, combine_take_succ f idn (ex := false) rfl hx] using scanl1_getElem? f xs j h
  | true =>
    cases j with
    | zero => rfl
    | succ k =>
      have hk : k < (scanl1 f xs).length - 1 := by rw [scanl1_length]; omega
      calc (scanResults f idn true xs)[k + 1]?
        _ = (scanl1 f xs).dropLast[k]? := rfl
        _ = some (combine f (xs.take (k + 1))) := by rw [List.getElem?_dropLast, if_pos hk, scanl1_getElem? f xs k (by omega)]
        _ = some (scanValue f idn true xs (k + 1)) := by rw [combine_take_succ f idn (ex := true) rfl hx]

/-- The writes of a scan, when `v` gives the results by position. -/
theorem scanWrites_eq_map (d : Nat) (ex : Bool) (ts : List Bool) (v : Nat → Word32) (j : Nat) (ins : List LaneIn) (xs : List Word32)
    (h : ∀ k, k < ins.length → xs[k]? = some (v (j + k))) :
    scanWrites d ex ts j ins xs = (ins.zipIdx j).map (fun x => .v x.1.L d (v x.2) (scanTaint ex ts x.2) false) := by
  induction ins generalizing j xs with
  | nil => rfl
  | cons i ins ih =>
    cases xs with
    | nil => simpa using h 0 (by simp)
    | cons x xs =>
      have hx : x = v j := by simpa using h 0 (by simp)
      have htail := ih (j + 1) xs (fun k hk => by simpa [Nat.add_assoc, Nat.add_comm 1] using h (k + 1) (by simpa using hk))
      rw [scanWrites, htail, hx]
      rfl

/-- A scan completes with each active thread's value and taint; an injection acts on a shadowed one (17 R424). -/
theorem scanRow_completes {i : Instr} {d a : BitVec 6} {p : BitVec 2} {e : BitVec 1} {sw sh : Bool} {f : Word32 → Word32 → Word32} {idn : Word32}
    {sd : Option (Nat → List LaneIn → BitVec 16)} (he : ∀ s, exec i s = issueVector { vscanOp d a p e sw f idn with shadowed := sh, shadow := sd } s)
    (hi : sd.isSome = sh) : (scanRow i d a p e sw f idn sh).Completes :=
  vecOp_completes he rfl hi (fun _ _ _ ins => scanWrites_eq_map d.toNat (e == 1) (ins.map anyTaint) _ 0 ins _
    (fun k hk => by rw [Nat.zero_add]; exact scanResults_getElem? f idn (e == 1) (ins.map LaneIn.a) k (by simpa using hk)))

theorem scanRows_complete (d a : BitVec 6) (p : BitVec 2) (e : BitVec 1) (sw : Bool) : ∀ x ∈ scanRows d a p e sw, x.Completes := by
  simp only [scanRows, int32_min_toInt, int32_max_toInt, List.forall_mem_cons]
  refine ⟨?addS32, ?addF32, ?minS32, ?maxS32, ?minF32, ?maxF32, List.forall_mem_nil _⟩
  all_goals exact scanRow_completes (fun _ => rfl) rfl

/-! ### Broadcasts and block formats (09 R271, R274, R275) -/

/-- The broadcasts and the block decodings work on each lane by itself; a block encoding looks at the active threads of the whole block. -/
theorem blockRows_complete (v : BitVec 6) (u : BitVec 8) (p : BitVec 2) (sw : Bool) : ∀ x ∈ blockRows v u p sw, x.Completes := by
  simp only [blockRows, List.forall_mem_cons]
  refine ⟨?bcast, ?bcastd, ?dec8, ?dec4, ?enc8, ?enc4, List.forall_mem_nil _⟩
  case bcastd => exact pairOp_completes (fun _ => rfl) rfl
  case enc8 => exact vecOp_completes (o := bxEncOp bx8 4 v u p sw) (fun _ => rfl) rfl rfl (fun _ _ _ _ => rfl)
  case enc4 => exact vecOp_completes (o := bxEncOp bx4 2 v u p sw) (fun _ => rfl) rfl rfl (fun _ _ _ _ => rfl)
  all_goals exact wordOp_completes (fun _ => rfl) rfl rfl

/-- Settles O15: `reductionRows_complete`, `scanRows_complete`, `blockRows_complete`. -/
theorem crossLaneInstructionsComplete : Obligations.CrossLaneInstructionsComplete := fun d a u p e sw =>
  ⟨reductionRows_complete a u p sw, scanRows_complete d a p e sw, blockRows_complete a u p sw⟩

end Sys2Proof.Machine

/-! PROOFS. An instruction that a condition stops at issue takes its trap (12 R344, 18 R429), and one that changes registers of its group at once is performed. -/
namespace Sys2Proof.Machine

/-! ### A trap at issue -/

/-- A thread of the group that enters its handler: those of the trapping bundle stand at TRAPVEC, and every segment write set is empty (12 R344, 19 R440). -/
theorem Group.thread_enterHandler {g : Group} {L : Nat} (hL : L < g.threads.length) (h64 : L < 64) :
    g.enterHandler.thread L = { (if (g.trap.bundle &&& g.live).getLsbD L then { g.thread L with pc := g.place.vec, parked := false, wait := .none, waitCount := 0 }
      else g.thread L) with seg := [] } := by
  unfold Group.enterHandler Group.clearSegs
  rw [Group.thread_modLanes (by simpa using hL), if_pos (by simp only [BitVec.getLsbD_allOnes, h64, decide_true]), Group.thread_modLanes]
  · rfl
  · exact hL

/-- The group that has entered its handler on a condition has taken the trap with that condition's frame. -/
theorem trapTaken_enterHandler (g : Group) (st : Stop) (pc : Word64) (q : List ReplayEntry) (B : Mask) :
    TrapTaken g (g.writeFrame st pc q B).enterHandler B st.code pc st.addr st.mask q where
  frame := rfl
  kept := rfl
  size := by simp [Group.enterHandler, Group.clearSegs, Group.writeFrame]
  threads _ hL h64 := Group.thread_enterHandler hL h64
  scoreboard := ⟨rfl, rfl⟩

/-- The entry of an instruction fetched at its PC, done on no lane. -/
theorem headEntry_capture {is : Issue} (hr : is.replay = none) (sel : Sel) (g : Group) (u : Use) (n : Word64) : HeadEntry is sel 0 (capture is sel g u n) := by
  simp only [capture, hr]
  exact ⟨⟨rfl, rfl, rfl⟩, rfl, rfl⟩

/-- A bundle that issues alone, with traps unmasked and nothing unfinished, takes the trap of the condition that stops its instruction. -/
theorem issue_stops {s : State} {is : Issue} {sel : Sel} {g : Group} {op : Op} {st : Stop} (h : Issues s is sel g) (hc : firstStop (op.checks s is sel g) = some st)
    (hh : st.holds = false) (ht : g.trap.tmasked = false) (hu : s.unfinished sel.g g sel.bundle = false) :
    issue op s = .next { s.modGroup sel.g (fun x => (x.writeFrame st is.pc
      (stoppedEntry st (capture is sel g op.use is.next) :: g.pendingEntries sel.bundle) sel.bundle).enterHandler) with issue := none } := by
  simp [issue, h.issuing, h.alone, State.issueOn, State.mergeRunOns, h.group, h.lanes, h.bank, bankReads, Op.leavesRunOn, h.runOn, Op.stopOf, hc,
    State.issueStop, hu, State.takeStop, ht, hh]

/-- The same in the terms of the statements, for a condition that leaves its instruction undone. -/
theorem traps_of_stop {i : Instr} {s : State} {is : Issue} {sel : Sel} {g : Group} {op : Op} {st : Stop} (he : ∀ s, exec i s = issue op s) (h : Issues s is sel g)
    (hc : firstStop (op.checks s is sel g) = some st) (hh : st.holds = false) (hb : ∀ e, stoppedEntry st e = e) (ht : g.trap.tmasked = false)
    (hu : s.unfinished sel.g g sel.bundle = false) : Traps i s is sel g st.code st.addr st.mask 0 :=
  ⟨_, _, _, (he s).trans (issue_stops h hc hh ht hu), rfl, State.group_modGroup h.group _, fun _ hk => State.group_modGroup_other hk _,
    (hb _).symm ▸ headEntry_capture h.fresh sel g op.use is.next, trapTaken_enterHandler g st is.pc _ sel.bundle⟩

/-- An illegal operand traps with code 0x1002, its kind and its number (18 R434). -/
theorem traps_of_illegal {i : Instr} {s : State} {is : Issue} {sel : Sel} {g : Group} {op : Op} {m : Mask} {kind : BitVec 4} {n : Nat}
    (he : ∀ s, exec i s = issue op s) (h : Issues s is sel g) (hc : firstStop (op.checks s is sel g) = some (illegal m kind n)) (ht : g.trap.tmasked = false)
    (hu : s.unfinished sel.g g sel.bundle = false) : Traps i s is sel g 0x1002 (operandAddr kind n) m 0 :=
  traps_of_stop he h hc rfl (fun _ => rfl) ht hu

/-! ### Registers changed at issue -/

/-- An instruction that changes its group's registers at once is performed, with nothing outstanding. -/
theorem issue_onRegs {s : State} {is : Issue} {sel : Sel} {g : Group} {op : Op} (h : Issues s is sel g) (hc : firstStop (op.checks s is sel g) = none)
    (ht : op.turnsAway s sel g = none) (hi : op.instead s is sel g = none) (f : GroupRegs → GroupRegs)
    (he : op.effect is sel (capture is sel g op.use is.next) = onGroup (fun x => { x with regs := f x.regs }) sel) :
    ∃ t g', issue op s = .next t ∧ Performed s t sel g g' op.sw [] ∧ Advanced is sel g g' ∧ g'.flow = g.flow ∧ g'.regs = f g.regs := by
  have hthread : ∀ L, L < g.threads.length → ({ g.advance is sel with regs := f (g.advance is sel).regs } : Group).thread L
      = { g.thread L with pc := if sel.bundle.getLsbD L then is.next else (g.thread L).pc } := fun _ hL => Group.thread_advance hL h.fresh
  obtain ⟨t, hx, hP⟩ := issue_onGroup h hc ht hi (fun x => { x with regs := f x.regs }) 0 []
    (fun s _ => by rw [he, State.laters_nil]; rfl) (by rw [Group.advance_eq]) (by simp) (by simp) (by simp) (fun L hL => by rw [hthread L hL])
  refine ⟨t, _, hx, hP, fun L hL => ?_, by simp, by simp⟩
  rw [Group.thread_retired (by simpa using hL), hthread L hL]
  rfl

end Sys2Proof.Machine

/-! PROOFS. `rdlane` (09 R271) and `perm.set` (03 R87, 09 R272, 18 R434). -/
namespace Sys2Proof.Machine

/-! ### `rdlane` -/

/-- The thread that `rdlane` reads: that of its uniform register, modulo the group's width. -/
def rdlaneThread (u : BitVec 8) (g : Group) : Nat := (g.sget u.toNat).toNat % 64 % g.width

/-- `rdlane` as a row: the word of the named thread, zero-extended. -/
noncomputable def rdlaneRow (v : BitVec 6) (u : BitVec 8) (sw : Bool) : Row :=
  { instr := .rdlane v u sw, use := useRdlane v u, sw := sw
    writes := fun g _ => [.s u.toNat (zext 64 ((g.thread (rdlaneThread u g)).vreg v.toNat))] }

theorem sourceThread_rdlane (g : Group) (u : BitVec 8) (L : Nat) : g.sourceThread (4 + u.toNat) L = some (rdlaneThread u g) := by
  simp [Group.sourceThread, rdlaneThread]

/-- Every active thread is delivered the word of the named thread. -/
theorem gather_rdlane_a (g : Group) (v : BitVec 6) (u : BitVec 8) (L : Nat) :
    (g.gather (useRdlane v u) none L).a = (g.thread (rdlaneThread u g)).vreg v.toNat := by
  simp [Group.gather, LaneIn.a, useRdlane, Use.srcWords, wordsOf, Group.deliver, sourceThread_rdlane]

theorem rdlaneRow_performs (v : BitVec 6) (u : BitVec 8) (sw : Bool) {s : State} {is : Issue} {sel : Sel} {g : Group} (h : Issues s is sel g)
    (ok : OperandsOk g sel (useRdlane v u)) : (rdlaneRow v u sw).Performs s is sel g := by
  refine row_performs (r := rdlaneRow v u sw) (fun _ => rfl) rfl rfl rfl rfl rfl (fun _ sel g _ _ _ hm => ?_) h ok (fun hu => nomatch hu)
  obtain ⟨L, Ls, hl⟩ := maskList_cons hm
  rw [hl]
  exact congrArg (fun x => [RegWrite.s u.toNat (zext 64 x)]) (gather_rdlane_a g v u L)

/-- No injection acts on `rdlane`: of the registers it changes USPLIT alone. -/
theorem rdlaneRow_regsAfter (v : BitVec 6) (u : BitVec 8) (sw : Bool) (g : Group) (sel : Sel) :
    (rdlaneRow v u sw).regsAfter g sel = { g.regs with usplit := g.regs.usplit || (sel.bundle &&& g.live != g.live) } := rfl

/-! ### `perm.set` -/

/-- A descriptor that a group may use (09 R272): no code 7, no bit of [63:21], and a fill register within the group's allotment. -/
def LegalDescriptor (g : Group) (x : Word64) : Prop :=
  field 21 43 x = 0 ∧ field 0 3 x ≠ 7 ∧ field 9 3 x ≠ 7 ∧ (x.getLsbD 12 = true → (field 13 8 x).toNat < g.place.ucount)

/-- The condition of `perm.set` fetched at its PC is that of the descriptor in its register. -/
theorem permStop_of_fresh {is : Issue} (hr : is.replay = none) (v : BitVec 6) (u : BitVec 8) (sel : Sel) (g : Group) [Decidable (LegalDescriptor g (g.sget u.toNat))] :
    permStop v u is sel g = if LegalDescriptor g (g.sget u.toNat) then none else some (illegal sel.mask 9 v.toNat) := by
  have hcond : (field 21 43 (g.sget u.toNat) != 0 || field 0 3 (g.sget u.toNat) == 7 || field 9 3 (g.sget u.toNat) == 7
      || (bit (g.sget u.toNat) 12 && decide (g.place.ucount ≤ (field 13 8 (g.sget u.toNat)).toNat))) = true ↔ ¬ LegalDescriptor g (g.sget u.toNat) := by
    simp only [LegalDescriptor, Classical.not_and_iff_not_or_not, Bool.or_eq_true, Bool.and_eq_true, bne_iff_ne, beq_iff_eq, decide_eq_true_eq,
      Classical.not_imp, Classical.not_not, Nat.not_lt, or_assoc, ne_eq]
  simp only [permStop, uniSrc, hr]
  by_cases hlegal : LegalDescriptor g (g.sget u.toNat)
  · rw [if_pos hlegal, if_neg (fun hbad => hcond.mp hbad hlegal)]
  · rw [if_neg hlegal, if_pos (hcond.mpr hlegal)]

/-- With registers that may be read, the descriptor's condition is the only one. -/
theorem permSetOp_firstStop {is : Issue} {sel : Sel} {g : Group} {u : BitVec 8} (hr : is.replay = none) (ok : OperandsOk g sel { ssrc := [u.toNat] }) (v : BitVec 6)
    (sw : Bool) (s : State) : firstStop ((permSetOp v u sw).checks s is sel g) = permStop v u is sel g := by
  simp only [permSetOp, stdChecks, hr, ok.operands, ok.hazard, ok.poison, firstStop_none]
  cases permStop v u is sel g <;> rfl

/-- A legal descriptor is in its slot at once. -/
theorem permSet_performs {s : State} {is : Issue} {sel : Sel} {g : Group} {u : BitVec 8} (v : BitVec 6) (sw : Bool) (h : Issues s is sel g)
    (ok : OperandsOk g sel { ssrc := [u.toNat] }) (hlegal : LegalDescriptor g (g.sget u.toNat)) :
    ∃ t g', exec (.permSet v u sw) s = .next t ∧ Performed s t sel g g' sw [] ∧ Advanced is sel g g' ∧ g'.flow = g.flow
      ∧ g'.regs = { g.regs with perm := Assoc.set v.toNat (lowWord (g.sget u.toNat)) g.regs.perm } := by
  classical
  have hstop : firstStop ((permSetOp v u sw).checks s is sel g) = none := by
    rw [permSetOp_firstStop h.fresh ok, permStop_of_fresh h.fresh, if_pos hlegal]
  refine issue_onRegs (op := permSetOp v u sw) h hstop (turnsAway_none h rfl rfl (fun hu => nomatch hu)) rfl
    (fun r => { r with perm := Assoc.set v.toNat (lowWord (g.sget u.toNat)) r.perm }) ?_
  simp only [permSetOp, capture_uni h.fresh]
  rfl

/-- TRAPADDR of an illegal descriptor: kind 9 and the slot (18 R434). -/
theorem operandAddr_slot (v : BitVec 6) : operandAddr 9 v.toNat = 0x900#64 ||| zext 64 v := by
  decide +revert

/-- An illegal descriptor is an illegal operand. -/
theorem permSet_traps {s : State} {is : Issue} {sel : Sel} {g : Group} {u : BitVec 8} (v : BitVec 6) (sw : Bool) (h : Issues s is sel g)
    (ok : OperandsOk g sel { ssrc := [u.toNat] }) (hillegal : ¬ LegalDescriptor g (g.sget u.toNat)) (ht : g.trap.tmasked = false)
    (hu : s.unfinished sel.g g sel.bundle = false) : Traps (.permSet v u sw) s is sel g 0x1002 (0x900#64 ||| zext 64 v) sel.mask 0 := by
  classical
  have hstop : firstStop ((permSetOp v u sw).checks s is sel g) = some (illegal sel.mask 9 v.toNat) := by
    rw [permSetOp_firstStop h.fresh ok, permStop_of_fresh h.fresh, if_neg hillegal]
  rw [← operandAddr_slot]
  exact traps_of_illegal (op := permSetOp v u sw) (fun _ => rfl) h hstop ht hu

/-- Settles O16: `rdlane` by its row, `perm.set` by `permSet_performs` and `permSet_traps`. -/
theorem rdlaneAndPermSetComplete : Obligations.RdlaneAndPermSetComplete := by
  refine ⟨fun v u sw s is sel g h ok => ?_, fun v u sw s is sel g h ok => ⟨fun hlegal => ?_, permSet_traps v sw h ok⟩⟩
  · obtain ⟨t, g', o, hx, hP, hadv, hflow, hregs, hid, hkind, -, hmask, -, hwrites⟩ := rdlaneRow_performs v u sw h ok
    exact ⟨t, g', o, hx, hP, hadv, hflow, hregs.trans (rdlaneRow_regsAfter v u sw g sel), hid, hkind, hmask, hwrites⟩
  · obtain ⟨t, g', hx, hP, hadv, hflow, hregs⟩ := permSet_performs v sw h ok hlegal
    exact ⟨t, g', hx, hP, hadv, hflow, by rw [hregs], by rw [hregs]; exact Assoc.get_set_same _ _ _, fun n hn => by rw [hregs]; exact Assoc.get_set_other hn _ _⟩

end Sys2Proof.Machine
